-- ==== Sys2Proof/Word.lean ====
section
/-! DEFINITION. The word types of the model and the two containers it is made of. -/
namespace Sys2Proof

/-- A byte of memory, of a packet or of a record (R7). -/
abbrev Byte := BitVec 8

/-- A string of bytes, first byte first. -/
abbrev Bytes := List (BitVec 8)

/-- A register word (R402) and a scalar register (R103). -/
abbrev Word := BitVec 64

/-- A 128-bit tile instruction (R118). -/
abbrev IWord := BitVec 128

/-- A finite table of what differs from a default: pairs of a key and a value, keys strictly
rising, no value equal to the default at its key. -/
abbrev Sparse (α : Type) := List (Nat × α)

end Sys2Proof
end

