-- ==== Sys2Proof/Syntax.lean ====
section
/-! DEFINITION. The commands of the KL7 block, one constructor for each row of the opcode table,
and the shapes of their operands. Where a command is the arrival of a message, its operands are the
message's fields as the spec lays them out; where it is an event, they are what the device senses. -/
namespace Sys2Proof

/-! ## Tile instructions (R118 to R120) -/

/-- The tile and the context that issue an instruction (R114). -/
structure At where
  tile : Fin 1024
  ctx : Fin 3
  deriving DecidableEq, Repr

/-- Layout R of Table PRG-3, without the opcode. -/
structure LayR where
  fa : BitVec 5
  fb : BitVec 5
  fc : BitVec 5
  fd : BitVec 5
  fe : BitVec 5
  ff : BitVec 5
  aux : BitVec 26
  imm : BitVec 64
  deriving DecidableEq, Repr

/-- The MM layout of Table PRG-5, without the opcode. -/
structure LayMM where
  arrays : BitVec 8
  sfmt : BitVec 4
  xfmt : BitVec 4
  sbase : BitVec 6
  xbase : BitVec 6
  dbase : BitVec 6
  dcount : BitVec 6
  rows : BitVec 12
  rowmask : BitVec 16
  colmask : BitVec 16
  acc : BitVec 1
  xsrc : BitVec 1
  xaddr : BitVec 5
  smx : BitVec 1
  xmx : BitVec 1
  sscale : BitVec 6
  xscale : BitVec 6
  rsv : BitVec 15
  deriving DecidableEq, Repr

/-- The VCR layout of Table PRG-6, without the opcode. -/
structure LayVC where
  slot : BitVec 5
  abase : BitVec 6
  bbase : BitVec 6
  cbase : BitVec 6
  dbase : BitVec 6
  n : BitVec 14
  pred : BitVec 3
  k0 : BitVec 5
  k1 : BitVec 5
  tid : BitVec 5
  e0 : BitVec 5
  g : BitVec 5
  rsv : BitVec 49
  deriving DecidableEq, Repr

/-! ## Start-up and the configuration image (chapter 16) -/

/-- A firmware or microcode image as stage 2 or 5 reads it from the flash (Table BOT-3): bytes 0 to 127 of its header, the
SHAKE256-512 digest of its body, and its signature. -/
structure ImageRead where
  head : Bytes
  digest : BitVec 512
  sig : BitVec 912
  deriving DecidableEq, Repr

/-- A configuration image as it stands in the flash (Table BOT-4): every byte before the signature, and the signature. -/
structure ConfigRead where
  body : Bytes
  sig : BitVec 912
  deriving DecidableEq, Repr

/-- What the boot chain reads (Table SEC-2): the fuse parity, the ROM's own digest, the two firmware slots, the two
configuration copies, the two microcode copies, and whether the newest lantern entry was cut short (R367). -/
structure BootInput where
  fuseOk : Bool
  romDigest : BitVec 512
  fwA : ImageRead
  fwB : ImageRead
  cfg0 : ConfigRead
  cfg1 : ConfigRead
  uc0 : ImageRead
  uc1 : ImageRead
  cutEntry : Bool
  deriving DecidableEq, Repr

/-- The head of a configuration record (R395): its length field and whether every reserved field
and the padding are zero. -/
structure RecHead where
  length : BitVec 32
  rsvZero : Bool
  deriving DecidableEq, Repr

/-- A service endpoint of the TOPOLOGY record. -/
structure Endpoint where
  index : BitVec 16
  owner : BitVec 16
  port : BitVec 8
  deriving DecidableEq, Repr

/-- Four bytes x, y, z, w: a coordinate, an extent or the torus dimensions. -/
structure Quad where
  x : BitVec 8
  y : BitVec 8
  z : BitVec 8
  w : BitVec 8
  deriving DecidableEq, Repr

/-- The value of a HOST_NET record. -/
structure HostNet where
  pmdSel : BitVec 8
  prefixLen : BitVec 8
  vlan : BitVec 16
  mac : BitVec 48
  ubtikPort : BitVec 16
  ptpDomain : BitVec 8
  dscpCtrl : BitVec 8
  dscpBulk : BitVec 8
  address : BitVec 128
  router : BitVec 128
  deriving DecidableEq, Repr

/-- The PTP messages that a slave-only clock with the delay request-response mechanism takes (R304): a Sync, one-step or
two-step, the Follow_Up of a two-step Sync, and the answer to a Delay_Req, with their sequence ids and the master's
timestamps in ns. -/
inductive PtpKind where
  | sync (twoStep : Bool) (seq : BitVec 16) (origin : BitVec 64)
  | followUp (seq : BitVec 16) (origin : BitVec 64)
  | delayResp (seq : BitVec 16) (received : BitVec 64)
  deriving DecidableEq, Repr

/-- A PTP message as it arrives (R304): its domain, its kind, its own timestamp on arrival, and the timestamp of the
Delay_Req that leaves in answer, both as CLK_PTP gives them, in ns. -/
structure PtpMessage where
  domain : BitVec 8
  kind : PtpKind
  arrival : BitVec 64
  departure : BitVec 64
  deriving DecidableEq, Repr

/-- One temperature sample (R173, R434), in 1/16 of a degree: 64 logic sensors, and 48 sensors for
each stack. -/
structure TempSample where
  logic : List Int
  stack0 : List Int
  stack1 : List Int
  stack2 : List Int
  stack3 : List Int
  deriving DecidableEq, Repr

/-! ## Fabric (chapter 8) -/

/-- The packet header of Table FAB-3 and its payload. Bytes 8 to 31 of a packet of the collective engine hold the
fields of Table COL-4 in the same places; `w18` and `w22` are its bytes 18 and 19, 22 and 23, which hold the length and
zero in any other packet. -/
structure Packet where
  op : BitVec 8
  flags : BitVec 8
  jobTag : BitVec 16
  src : BitVec 12
  dst : BitVec 12
  streamSeq : BitVec 32
  xferId : BitVec 16
  pktIndex : BitVec 16
  pktCount : BitVec 16
  notify : BitVec 16
  dstAddr : BitVec 64
  payload : Bytes
  w18 : BitVec 16 := 0
  w22 : BitVec 16 := 0
  deriving DecidableEq, Repr

/-- The collective packet of Tables COL-3 and COL-4. -/
structure ColPacket where
  jobTag : BitVec 16
  src : BitVec 12
  dst : BitVec 12
  cid : BitVec 32
  chunk : BitVec 32
  step : BitVec 32
  epoch : BitVec 32
  attempt : BitVec 16
  contributor : BitVec 8
  dim : BitVec 2
  gather : Bool
  minus : Bool
  part : BitVec 4
  run : BitVec 8
  fmt : BitVec 8
  payload : Bytes
  deriving DecidableEq, Repr

/-- The parameters that a READY packet announces (Table COL-3). -/
structure ReadyBody where
  op : BitVec 8
  fmt : BitVec 8
  dims : BitVec 8
  bucketNo : BitVec 16
  len : BitVec 64
  deriving DecidableEq, Repr

/-- A link frame's header of Table FAB-1 and its CRC-32C. `fec` says that the FEC codewords that carried it were
corrected. -/
structure LinkHead where
  type : BitVec 8
  vc : BitVec 8
  length : BitVec 16
  seq : BitVec 32
  ack : BitVec 32
  creditVc : BitVec 8
  creditUnits : BitVec 16
  crc : BitVec 32
  fec : Bool
  deriving DecidableEq, Repr

/-- What a frame carries, with the frame's header. -/
structure Framed (α : Type) where
  head : LinkHead
  body : α
  deriving DecidableEq, Repr

/-- What a LANE frame says (R197): the logical lane, the physical lane it moves to, and whether it
is the receive direction of this end. -/
structure LaneBody where
  logical : Fin 4
  physical : Fin 5
  rx : Bool
  codeword : BitVec 64
  deriving DecidableEq, Repr

/-- The IDENT body of Table FAB-7. -/
structure IdentBody where
  lpv : BitVec 8
  flags : BitVec 8
  port : BitVec 8
  serial : BitVec 128
  site : BitVec 10
  coord : Quad
  expect : Quad
  dims : Quad
  peerNonce : BitVec 128
  ownNonce : BitVec 128
  pubkey : BitVec 456
  certSig : BitVec 912
  sig : BitVec 912
  deriving DecidableEq, Repr

/-- What a link frame carries (R198): nothing, a packet, the next sequence number expected, a nonce, an identity, a
lane switch, or whether the sender accepts its peer. -/
inductive FrameBody where
  | none
  | data (k : Packet)
  | nak (next : BitVec 32)
  | hello (nonce : BitVec 128)
  | ident (b : IdentBody)
  | lane (b : LaneBody)
  | state (accept : Bool)
  deriving DecidableEq, Repr

/-- An announcement carried by a LINK_STATE packet (R214, R356). -/
inductive LinkNews where
  | down (dev : BitVec 12) (port : BitVec 8) (time : BitVec 64)
  | up (dev : BitVec 12) (port : BitVec 8) (time : BitVec 64)
  | withdrawal (cls : BitVec 8) (dev : BitVec 12)
  | other (kind : BitVec 8)
  deriving DecidableEq, Repr

/-- The tag of a packet of the collective engine (R234): collective id, step, layout epoch and attempt. -/
structure ColTag where
  cid : BitVec 32
  step : BitVec 32
  epoch : BitVec 32
  attempt : BitVec 16
  deriving DecidableEq, Repr

/-- A DECIDE payload of Table COL-5, with its tag, and the group whose rejoin a vote decides (R359, DESIGN CHOICE, log
entry 116). -/
structure Decision where
  tag : ColTag
  rejoin : Option (BitVec 8)
  number : BitVec 32
  group : BitVec 8
  divisor : BitVec 16
  bucket : BitVec 32
  veto : BitVec 8
  flags : BitVec 8
  origin : BitVec 32
  norm : BitVec 64
  deriving DecidableEq, Repr

/-- A REPORT payload of Table COL-5, with its sender's device index and its tag, and the group that asks to rejoin (R359,
DESIGN CHOICE, log entry 116). -/
structure Report where
  sender : BitVec 12
  tag : ColTag
  rejoin : Option (BitVec 8)
  applied : BitVec 32
  bucket : BitVec 32
  veto : BitVec 8
  flags : BitVec 8
  origin : BitVec 32
  norm : BitVec 64
  deriving DecidableEq, Repr

/-! ## Delta exchange (chapters 10 and 11) -/

/-- Where a datagram comes from or goes to: IPv6 address, UDP port, VLAN and flow label (R306). -/
structure NetPath where
  addr : BitVec 128
  port : BitVec 16
  vlan : BitVec 12
  flow : BitVec 20
  deriving DecidableEq, Repr

/-- A frame at the host port as far as R301, R302, R303 and R305 look at it: its length, its VLAN tag, an IPv6 extension
header, an uncorrectable FEC codeword, the verdict of the UDP checksum, the UDP port and length, and the first fields of
the Ubtik header (Table HST-2). -/
structure Wire where
  fec : Bool
  frameLen : Nat
  vlan : Option (BitVec 12)
  extension : Bool
  checksumOk : Bool
  port : BitVec 16
  udpLen : BitVec 16
  version : BitVec 8
  cls : BitVec 8
  flags : BitVec 8
  dst : BitVec 32
  length : BitVec 16
  deriving DecidableEq, Repr

/-- A fragment of a MANIFEST-class message (R308). -/
structure Frag where
  index : BitVec 16
  count : BitVec 16
  last : Bool
  data : Bytes
  deriving DecidableEq, Repr

/-- What R325 gives a handshake datagram beside its payload: its Ubtik header, the tagged flag, key_epoch and the tag. -/
structure HsTag where
  header : Bytes
  tagged : Bool
  keyEpoch : BitVec 16
  tag : BitVec 128
  deriving DecidableEq, Repr

/-- A handshake payload with what its datagram gives it. -/
structure Tagged (α : Type) where
  tag : HsTag
  body : α
  deriving DecidableEq, Repr

/-- A fragment, and the body of the message that it is part of. -/
structure Part (α : Type) where
  frag : Frag
  body : α
  deriving DecidableEq, Repr

/-- The Ubtik header fields (Table HST-2) that admission and the cipher engines look at (R342, R344). `tagOk` says
that the tag verified; `mismatches` how often the two cipher engines disagreed on the message. -/
structure Ubtik where
  page : BitVec 8
  context : BitVec 32
  src : BitVec 32
  keyEpoch : BitVec 16
  length : BitVec 16
  msg : BitVec 64
  tagged : Bool
  tagOk : Bool
  mismatches : BitVec 8
  deriving DecidableEq, Repr

/-- A coded block of Table DXC-1: header fields and body. -/
structure Block where
  raw : Bool
  final : Bool
  fp4 : Bool
  tableId : BitVec 3
  rsvZero : Bool
  shard : BitVec 32
  round : BitVec 64
  block : BitVec 32
  elemCount : BitVec 16
  groups : BitVec 16
  firstGroup : BitVec 32
  codedLen : BitVec 16
  body : Bytes
  deriving DecidableEq, Repr

/-- A TABLE body of Table DXC-2. -/
structure TableBody where
  retire : Bool
  fp4 : Bool
  id : BitVec 3
  rsvZero : Bool
  round : BitVec 64
  gapLens : List (BitVec 4)
  valLens : List (BitVec 4)
  deriving DecidableEq, Repr

/-- A contribution entry of a manifest (Table DXR-3). -/
structure Contribution where
  site : BitVec 16
  age : BitVec 8
  round : BitVec 64
  weight : BitVec 32
  deriving DecidableEq, Repr

/-- A RECEIPT body of Table DXR-5. -/
structure ReceiptBody where
  site : BitVec 16
  fedJob : BitVec 32
  round : BitVec 64
  absentIssuer : BitVec 16
  entries : List (BitVec 16 × BitVec 64)
  sig : BitVec 912
  deriving DecidableEq, Repr

/-- A manifest of Table DXR-3. -/
structure ManifestBody where
  takeover : Bool
  issuer : BitVec 16
  fedJob : BitVec 32
  round : BitVec 64
  nextDeadline : BitVec 64
  nextBeacon : BitVec 16
  eta : BitVec 32
  mu : BitVec 32
  baseDigest : BitVec 256
  prevSeal : BitVec 256
  members : List (BitVec 16 × BitVec 8)
  contribs : List Contribution
  absents : List ReceiptBody
  sig : BitVec 912
  deriving DecidableEq, Repr

/-- A COUNTERSIGN body of Table DXR-4. -/
structure CountersignBody where
  site : BitVec 16
  fedJob : BitVec 32
  round : BitVec 64
  manifestDigest : BitVec 256
  anchorDigest : BitVec 256
  sig : BitVec 912
  deriving DecidableEq, Repr

/-- A JOIN body of Table DXR-5. -/
structure JoinBody where
  site : BitVec 16
  fedJob : BitVec 32
  round : BitVec 64
  sig : BitVec 912
  deriving DecidableEq, Repr

/-- A HEART body of Table DXR-6. -/
structure HeartBody where
  seq : BitVec 32
  txTime : BitVec 64
  secondary : Bool
  hearsPrimary : Bool
  hearsSecondary : Bool
  exchange : Bool
  shard : BitVec 32
  deriving DecidableEq, Repr

/-- An entry of an ACK or NACK (Table HST-6), its twelve bytes as three values. -/
structure AckEntry where
  a : BitVec 32
  b : BitVec 32
  c : BitVec 32
  deriving DecidableEq, Repr

/-- An ACK or NACK body (R316). -/
structure AckBody where
  cls : BitVec 8
  reason : BitVec 8
  ref : BitVec 64
  entries : List AckEntry
  deriving DecidableEq, Repr

/-! ## Host port (chapters 12 and 13) -/

/-- What every CTRL request carries (R306, R310): its Ubtik header, and where it comes from. -/
structure Req where
  head : Ubtik
  path : NetPath
  deriving DecidableEq, Repr

/-- The session id of a request, and its number (Table HST-2). -/
def Req.session (r : Req) : BitVec 32 := r.head.context
def Req.msg (r : Req) : BitVec 64 := r.head.msg

/-- The arguments of JOB_START (Table HST-4). -/
structure JobArgs where
  job : BitVec 8
  mask : BitVec 8
  tag : BitVec 16
  origin : Quad
  extent : Quad
  fedJob : BitVec 32
  deriving DecidableEq, Repr

/-- A handshake INIT of Table SEC-5, with its sender and where it comes from. -/
structure InitBody where
  kind : BitVec 8
  flags : BitVec 8
  page : BitVec 8
  nonce : BitVec 128
  eph : BitVec 448
  src : BitVec 32
  path : NetPath
  deriving DecidableEq, Repr

/-- A handshake RESP of Table SEC-5. -/
structure RespBody where
  src : BitVec 32
  status : BitVec 8
  session : BitVec 32
  nonce : BitVec 128
  eph : BitVec 448
  serial : BitVec 128
  pubkey : BitVec 456
  certSig : BitVec 912
  sig : BitVec 912
  deriving DecidableEq, Repr

/-- A handshake FIN of Table SEC-5. -/
structure FinBody where
  src : BitVec 32
  nonceI : BitVec 128
  credential : BitVec 8
  serial : BitVec 128
  pubkey : BitVec 456
  certSig : BitVec 912
  sig : BitVec 912
  deriving DecidableEq, Repr

/-! ## Memory, service and faults -/

/-- What a read of a line finds (R175); `retried` says that its command met a parity error first. -/
inductive LineRead where
  | clean
  | corrected
  | retried
  | uncorrectable
  deriving DecidableEq, Repr

/-- A block that Lerhus watches (R353), numbered as R366 numbers it. -/
abbrev BlockNo := BitVec 12

/-! ## The commands -/

/-- One command of the block: one constructor for each row of the opcode table, those without operands last. -/
inductive Instr where
  /-- POWER_ON (R398). -/
  | powerOn (resetHigh : Bool)
  /-- PLL_LOCK (R398). -/
  | pllLock (b : BootInput)
  /-- DEVICE_RECORD (R420). -/
  | deviceRecord (h : RecHead) (site : BitVec 16) (coord : Quad) (flags : BitVec 8)
  /-- TOPOLOGY_RECORD (R420). -/
  | topologyRecord (h : RecHead) (dims : Quad) (mode : BitVec 8) (linkWait : BitVec 16) (eps : List Endpoint)
  /-- TICK_RECORD (R420). -/
  | tickRecord (h : RecHead) (period : BitVec 16) (phase : BitVec 32) (ptpWait : BitVec 32)
  /-- POWER_RECORD (R420). -/
  | powerRecord (h : RecHead) (mode : BitVec 8) (limit : BitVec 32)
  /-- PORT_RECORD (R420). -/
  | portRecord (h : RecHead) (p : BitVec 8) (flags : BitVec 8) (buf : BitVec 8) (lanes : Quad)
  /-- HOST_NET_RECORD (R420). -/
  | hostNetRecord (h : RecHead) (n : HostNet)
  /-- HOST_LIST_RECORD (R395). -/
  | hostListRecord (h : RecHead) (hosts : List (BitVec 128))
  /-- REG_RECORD (R396). -/
  | regRecord (h : RecHead) (entries : List (BitVec 32 × BitVec 64))
  /-- NOTE_RECORD (R395). -/
  | noteRecord (h : RecHead)
  /-- TILE_SELF_TEST_DONE (R389). -/
  | tileSelfTestDone (failed : List (Fin 1056))
  /-- STACK_TRAINED (R389). -/
  | stackTrained (q : Fin 4) (failed : List (Fin 66))
  /-- FIRST_TICK (R390). -/
  | firstTick (time : BitVec 64)
  /-- PTP_MESSAGE (R304). -/
  | ptpMessage (m : PtpMessage)
  /-- PTP_LOCK (R16). -/
  | ptpLock (ptp pps : Bool) (phaseErr : Int)
  /-- PTP_LOCK_LOST (R16). -/
  | ptpLockLost (ptp pps : Bool)
  /-- PPS_EDGE (R429). -/
  | ppsEdge (err : BitVec 32)
  /-- SUPPLY_FAULT (R421). -/
  | supplyFault (rail : Fin 10) (mv : BitVec 64)
  /-- PMB_ALERT (R422). -/
  | pmbAlert (status : BitVec 16)
  /-- LOCKSTEP_MISMATCH (R354). -/
  | lockstepMismatch (pc : BitVec 64)
  /-- LASER_FAULT (R433). -/
  | laserFault (lanes : List (Fin 10 × Fin 5)) (host : Bool)
  /-- TEMP_SAMPLE (R173). -/
  | tempSample (s : TempSample)
  /-- FRAME_START (R108). -/
  | frameStart (t : Fin 1024)
  /-- CHANNEL_SWITCH (R180). -/
  | channelSwitch (q : Fin 4)
  /-- MICROCODE_SWAP (R376). -/
  | microcodeSwap (q : Fin 4)
  /-- PWR_MODE_WRITE (R20). -/
  | pwrModeWrite (v : BitVec 64)
  /-- TICK_WRITE (R411). -/
  | tickWrite (phase : Bool) (v : BitVec 64)
  /-- REGISTER_WRITE (R8). -/
  | registerWrite (slot : Fin 9) (off : BitVec 16) (v : BitVec 64)
  /-- NOP (R120). -/
  | nop (i : At) (f : LayR)
  /-- ADD (R120). -/
  | add (i : At) (f : LayR)
  /-- SUB (R120). -/
  | sub (i : At) (f : LayR)
  /-- MUL (R120). -/
  | mul (i : At) (f : LayR)
  /-- AND (R120). -/
  | and (i : At) (f : LayR)
  /-- OR (R120). -/
  | or (i : At) (f : LayR)
  /-- XOR (R120). -/
  | xor (i : At) (f : LayR)
  /-- SHL (R120). -/
  | shl (i : At) (f : LayR)
  /-- SHR (R120). -/
  | shr (i : At) (f : LayR)
  /-- SRA (R120). -/
  | sra (i : At) (f : LayR)
  /-- SLT (R120). -/
  | slt (i : At) (f : LayR)
  /-- SLTU (R120). -/
  | sltu (i : At) (f : LayR)
  /-- RDINFO (R120). -/
  | rdinfo (i : At) (f : LayR)
  /-- PSET (R120). -/
  | pset (i : At) (f : LayR)
  /-- PGET (R120). -/
  | pget (i : At) (f : LayR)
  /-- BR (R120). -/
  | br (i : At) (f : LayR)
  /-- FEND (R110). -/
  | fend (i : At) (f : LayR)
  /-- MMW (R34). -/
  | mmw (i : At) (f : LayMM)
  /-- MMF (R33). -/
  | mmf (i : At) (f : LayMM)
  /-- MMD (R43). -/
  | mmd (i : At) (f : LayMM)
  /-- MM_STREAM_START (R121). -/
  | mmStreamStart (t : Fin 1024)
  /-- MM_COMPLETE (R40). -/
  | mmComplete (t : Fin 1024) (n : Nat := 1)
  /-- VCR (R82). -/
  | vcr (i : At) (f : LayVC)
  /-- VC_START (R100). -/
  | vcStart (t : Fin 1024)
  /-- VC_COMPLETE (R100). -/
  | vcComplete (t : Fin 1024)
  /-- VDL (R88). -/
  | vdl (i : At) (f : LayR)
  /-- LD (R122). -/
  | ld (i : At) (f : LayR)
  /-- ST (R122). -/
  | st (i : At) (f : LayR)
  /-- LDT (R122). -/
  | ldt (i : At) (f : LayR)
  /-- STC (R123). -/
  | stc (i : At) (f : LayR)
  /-- LDS (R120). -/
  | lds (i : At) (f : LayR)
  /-- STS (R120). -/
  | sts (i : At) (f : LayR)
  /-- LOAD_STORE_COMPLETE (R129). -/
  | loadStoreComplete (t : Fin 1024) (n : Nat) (g : Nat := 1)
  /-- DIN (R124). -/
  | din (i : At) (f : LayR)
  /-- DOUT (R124). -/
  | dout (i : At) (f : LayR)
  /-- QUEUE_ROOM (R170). -/
  | queueRoom (t : Fin 1024) (id : Nat)
  /-- DMA_COMPLETE (R124). -/
  | dmaComplete (t : Fin 1024) (id : Nat) (n : Nat := 1)
  /-- PUT (R125). -/
  | put (i : At) (f : LayR)
  /-- GET (R125). -/
  | get (i : At) (f : LayR)
  /-- WAIT (R130). -/
  | wait (i : At) (f : LayR)
  /-- EVSET (R130). -/
  | evset (i : At) (f : LayR)
  /-- EVADD (R131). -/
  | evadd (i : At) (f : LayR)
  /-- FENCE (R132). -/
  | fence (i : At) (f : LayR)
  /-- SYNC (R134). -/
  | sync (i : At) (f : LayR)
  /-- CLAUNCH (R224). -/
  | claunch (i : At) (f : LayR)
  /-- CEFENCE (R249). -/
  | cefence (i : At) (f : LayR)
  /-- SCOMMIT (R126). -/
  | scommit (i : At) (f : LayR)
  /-- SABORT (R148). -/
  | sabort (i : At) (f : LayR)
  /-- DCLOSE (R127). -/
  | dclose (i : At) (f : LayR)
  /-- DSTAT (R120). -/
  | dstat (i : At) (f : LayR)
  /-- VOTE_SEND (R143). -/
  | voteSend (j : Fin 4)
  /-- DECIDE_VOTE (R241). -/
  | decideVote (j : Fin 4) (d : Decision)
  /-- ATTEMPT_OPEN (R113). -/
  | attemptOpen (j : Fin 4)
  /-- VOTE_TIMEOUT (R148). -/
  | voteTimeout (j : Fin 4) (missing : List (BitVec 12))
  /-- HOST_ABORT (R147). -/
  | hostAbort (j : Fin 4)
  /-- PEER_REPAIR_DONE (R149). -/
  | peerRepairDone (j : Fin 4) (addr : BitVec 42) (data : Bytes)
  /-- DIGEST_RECEIVE (R161). -/
  | digestReceive (j : Fin 4) (group : BitVec 8) (region : BitVec 16) (digest : BitVec 256)
  /-- DIGEST_REREAD_DONE (R161). -/
  | digestRereadDone (j : Fin 4) (region : BitVec 16) (own : BitVec 256) (agree : List (BitVec 8 × Bool))
  /-- DIGEST_REPLACEMENT_DONE (R162). -/
  | digestReplacementDone (j : Fin 4) (region : BitVec 16) (data : Bytes) (digest : BitVec 256) (all : Bool := true)
  /-- REJOIN (R359). -/
  | rejoin (j : Fin 4)
  /-- REJOIN_COPY_DONE (R359). -/
  | rejoinCopyDone (j : Fin 4) (step : BitVec 64) (epoch : BitVec 32) (copies : List (BitVec 42 × Bytes)) (digests : List (BitVec 16 × BitVec 256) := [])
    (all : Bool := true)
  /-- INSTALLATION_ACT (R258). -/
  | installationAct (j : Fin 4) (ready : Bool)
  /-- REPAIR_REQUEST (R178). -/
  | repairRequest (v : BitVec 64)
  /-- REPAIR_COPY_DONE (R180). -/
  | repairCopyDone (q : Fin 4)
  /-- REPAIR_FAILED (R179). -/
  | repairFailed (q : Fin 4) (lines : List (BitVec 42))
  /-- REPAIR_THRESHOLD (R176). -/
  | repairThreshold (q : Fin 4) (chan : Fin 64)
  /-- BOND_GROUP_FAILURE (R176). -/
  | bondGroupFailure (q : Fin 4) (chan : Fin 64)
  /-- PATROL_SCRUB (R176). -/
  | patrolScrub (line : BitVec 42) (r : LineRead) (other : Bool := false)
  /-- LOOKUP_REQUEST (R104). -/
  | lookupRequest (q : Fin 4) (rows : List Bytes)
  /-- LOOKUP_DONE (R104). -/
  | lookupDone (q : Fin 4) (n : Nat)
  /-- GLOG_APPEND (R184). -/
  | glogAppend (q : Fin 4)
  /-- GLOG_APPLY (R185). -/
  | glogApply (j : Fin 4) (w : List (BitVec 32)) (acc : BitVec 32)
  /-- GLOG_WRITEBACK_DONE (R185). -/
  | glogWritebackDone (j : Fin 4)
  /-- CODEC_BUILD (R190). -/
  | codecBuild (q : Fin 4)
  /-- CODEC_BUILD_DONE (R191). -/
  | codecBuildDone (j : Fin 4) (slot : Fin 16)
  /-- CODEC_RELEASE (R191). -/
  | codecRelease (q : Fin 4)
  /-- IDLE_FRAME (R198). -/
  | idleFrame (p : Fin 10) (h : LinkHead)
  /-- DATA_FRAME (R199). -/
  | dataFrame (p : Fin 10) (h : LinkHead) (k : Packet)
  /-- NAK (R199). -/
  | nak (p : Fin 10) (h : LinkHead) (next : BitVec 32)
  /-- RETRY_TIMEOUT (R199). -/
  | retryTimeout (p : Fin 10)
  /-- LANE (R197). -/
  | lane (p : Fin 10) (f : Framed LaneBody)
  /-- LANE_FAILURE (R197). -/
  | laneFailure (p : Fin 10) (lane : Fin 5) (rx : Bool)
  /-- LANE_ROTATION (R380). -/
  | laneRotation (p : Fin 10)
  /-- PRBS_TEST_DONE (R380). -/
  | prbsTestDone (p : Fin 10) (lane : Fin 5) (pass : Bool)
  /-- LIGHT_AND_LOCK (R220). -/
  | lightAndLock (p : Fin 10) (lanes : BitVec 5)
  /-- LINK_TRAINED (R220). -/
  | linkTrained (p : Fin 10) (rtt : BitVec 20) (nonce : BitVec 128)
  /-- TRAIN_TIMEOUT (R220). -/
  | trainTimeout (p : Fin 10)
  /-- DOWN_HOLD_EXPIRY (R220). -/
  | downHoldExpiry (p : Fin 10)
  /-- HELLO (R216). -/
  | hello (p : Fin 10) (f : Framed (BitVec 128))
  /-- HELLO_REPEAT (R216). -/
  | helloRepeat (p : Fin 10)
  /-- IDENT (R217). -/
  | ident (p : Fin 10) (f : Framed IdentBody)
  /-- IDENT_TIMEOUT (R220). -/
  | identTimeout (p : Fin 10)
  /-- STATE_FRAME (R217). -/
  | stateFrame (p : Fin 10) (f : Framed Bool)
  /-- LINK_DOWN (R213). -/
  | linkDown (p : Fin 10)
  /-- PORT_ENABLE (R220). -/
  | portEnable (p : Fin 10) (en : Bool)
  /-- QUARANTINE_RELEASE (R220). -/
  | quarantineRelease (p : Fin 10)
  /-- PUT_PACKET (R211). -/
  | putPacket (k : Packet)
  /-- GET_REQ (R206). -/
  | getReq (k : Packet)
  /-- GET_DATA (R206). -/
  | getData (k : Packet)
  /-- COMPLETION (R208). -/
  | completion (k : Packet)
  /-- TRANSFER_RESEND (R211). -/
  | transferResend (id : BitVec 16)
  /-- FULL_RESEND_DELAY (R208). -/
  | fullResendDelay (id : BitVec 16)
  /-- E2E_TIMEOUT (R207). -/
  | e2eTimeout (id : BitVec 16)
  /-- LOG_ENTRY (R209). -/
  | logEntry (k : Packet)
  /-- LINK_STATE (R214). -/
  | linkState (tag : BitVec 16) (n : LinkNews)
  /-- ABSENT_HOLD_EXPIRY (R357). -/
  | absentHoldExpiry (j : Fin 4) (dev : BitVec 12)
  /-- BYPASS_ARM_WRITE (R425). -/
  | bypassArmWrite (arm : Bool)
  /-- COLLECTIVE_START (R227). -/
  | collectiveStart (j : Fin 4) (cid : BitVec 32)
  /-- READY (R235). -/
  | ready (k : ColPacket) (b : ReadyBody)
  /-- CHUNK (R236). -/
  | chunk (k : ColPacket)
  /-- COLLECTIVE_DONE (R226). -/
  | collectiveDone (j : Fin 4) (cid : BitVec 32)
  /-- REPORT_SEAL (R239). -/
  | reportSeal (j : Fin 4) (r : Report)
  /-- REPORT_VOTE (R241). -/
  | reportVote (j : Fin 4) (r : Report)
  /-- REPORT_APPLIED (R244). -/
  | reportApplied (j : Fin 4) (r : Report) (held : List (Fin 4 × Decision) := [])
  /-- DECIDE_SEAL (R240). -/
  | decideSeal (j : Fin 4) (d : Decision)
  /-- DECIDE_EXCLUDE (R243). -/
  | decideExclude (j : Fin 4) (d : Decision)
  /-- EPOCH_ADVANCE (R249). -/
  | epochAdvance (j : Fin 4)
  /-- ROUND_CLOSE (R257). -/
  | roundClose (j : Fin 4)
  /-- LIVE_READ_DONE (R127). -/
  | liveReadDone (j : Fin 4)
  /-- TABLE_BUILD (R293). -/
  | tableBuild (j : Fin 4) (peer : BitVec 32) (round : BitVec 64)
  /-- BLOCK_ENCODE_DONE (R299). -/
  | blockEncodeDone (j : Fin 4) (peer : BitVec 32) (k : Fin 8 := 0)
  /-- BLOCK_SEND (R279). -/
  | blockSend (j : Fin 4) (peer : BitVec 32)
  /-- DELTA (R298). -/
  | delta (u : Ubtik) (blocks : List Block) (whole : Bool)
  /-- TABLE (R295). -/
  | table (u : Ubtik) (b : TableBody)
  /-- TABLE_RETIRE (R295). -/
  | tableRetire (u : Ubtik) (b : TableBody)
  /-- MANIFEST (R266). -/
  | manifest (u : Ubtik) (m : Part ManifestBody)
  /-- OUTER_UPDATE_DONE (R270). -/
  | outerUpdateDone (j : Fin 4) (others : List (BitVec 32 × BitVec 256) := [])
  /-- NEXT_COPY_RECEIVE (R255). -/
  | nextCopyReceive (j : Fin 4) (shard : BitVec 32) (a m : List (BitVec 32)) (digest : BitVec 256)
  /-- COUNTERSIGN (R264). -/
  | countersign (u : Ubtik) (c : Part CountersignBody)
  /-- RECEIPT (R262). -/
  | receipt (u : Ubtik) (r : Part ReceiptBody)
  /-- JOIN (R281). -/
  | join (u : Ubtik) (b : Part JoinBody)
  /-- HEART (R274). -/
  | heart (u : Ubtik) (h : HeartBody)
  /-- HEART_SEND (R274). -/
  | heartSend (j : Fin 4)
  /-- PATH_SILENCE (R275). -/
  | pathSilence (j : Fin 4) (entry : BitVec 12) (secondary : Bool)
  /-- PATH_RETURN (R275). -/
  | pathReturn (j : Fin 4) (entry : BitVec 12)
  /-- CUTOFF (R259). -/
  | cutoff (j : Fin 4) (round : BitVec 64) (reports : List (List (BitVec 16 × BitVec 64)) := [])
  /-- MANIFEST_DEADLINE (R262). -/
  | manifestDeadline (j : Fin 4)
  /-- BEACON_ABSENT (R267). -/
  | beaconAbsent (j : Fin 4)
  /-- TAKEOVER_TIMEOUT (R267). -/
  | takeoverTimeout (j : Fin 4)
  /-- ANCHOR_DIGEST_TIMEOUT (R268). -/
  | anchorDigestTimeout (j : Fin 4)
  /-- STALL_LIMIT (R267). -/
  | stallLimit (j : Fin 4)
  /-- REFETCH_TIMEOUT (R271). -/
  | refetchTimeout (j : Fin 4)
  /-- REFETCH_DONE (R271). -/
  | refetchDone (j : Fin 4) (site : BitVec 16) (base : Bool) (others : List (BitVec 32 × BitVec 256))
  /-- GAP_TIMEOUT (R277). -/
  | gapTimeout (j : Fin 4) (shard : BitVec 32) (round : BitVec 64) (blocks : List (BitVec 32)) (peer : BitVec 32)
  /-- NACK_RESEND (R277). -/
  | nackResend (j : Fin 4) (shard : BitVec 32) (round : BitVec 64) (peer : BitVec 32)
  /-- ACK (R316). -/
  | ack (u : Ubtik) (b : AckBody)
  /-- NACK (R316). -/
  | nack (u : Ubtik) (b : AckBody)
  /-- ACK_COALESCE_EXPIRY (R316). -/
  | ackCoalesceExpiry (j : Fin 4) (peer : BitVec 32)
  /-- BLOCK_RESEND_TIMEOUT (R316). -/
  | blockResendTimeout (j : Fin 4) (peer : BitVec 32)
  /-- FRAGMENT_RESEND (R308). -/
  | fragmentResend (msg : BitVec 64) (index : BitVec 16)
  /-- FRAGMENT_DISCARD (R308). -/
  | fragmentDiscard (src : BitVec 32) (msg : BitVec 64)
  /-- CTRL_NOP (R311). -/
  | ctrlNop (r : Req) (op : BitVec 16 := 0) (rsv : BitVec 16 := 0)
  /-- READ (R311). -/
  | read (r : Req) (addr : BitVec 64) (len : BitVec 32)
  /-- WRITE (R311). -/
  | write (r : Req) (addr : BitVec 64) (data : Bytes)
  /-- JOB_START (R312). -/
  | jobStart (r : Req) (a : JobArgs)
  /-- JOB_STOP (R311). -/
  | jobStop (r : Req) (job mode : BitVec 8)
  /-- BULK_EXPORT (R314). -/
  | bulkExport (r : Req) (addr len : BitVec 64) (udp : BitVec 16) (page : BitVec 8)
  /-- BULK_IMPORT (R315). -/
  | bulkImport (r : Req) (addr len : BitVec 64) (page : BitVec 8)
  /-- SUBSCRIBE (R317). -/
  | subscribe (r : Req) (mask : BitVec 32)
  /-- DRAIN (R311). -/
  | drain (r : Req)
  /-- RESET (R363). -/
  | reset (r : Req)
  /-- CLOSE (R309). -/
  | close (r : Req)
  /-- SESSION_TIMEOUT (R309). -/
  | sessionTimeout (slot : Fin 8)
  /-- SESSION_KILL (R309). -/
  | sessionKill (slots : BitVec 8)
  /-- BULK_DATA (R315). -/
  | bulkData (u : Ubtik) (xfer : BitVec 64) (segment : BitVec 32) (offset : BitVec 64) (data : Bytes) (last : Bool)
  /-- BULK_REQUEST (R313). -/
  | bulkRequest (u : Ubtik) (obj : BitVec 8) (round : BitVec 64) (first count : BitVec 32)
  /-- BULK_SEGMENT_RESEND (R315). -/
  | bulkSegmentResend (xfer : BitVec 64) (segment : BitVec 32)
  /-- BULK_ABANDON (R315). -/
  | bulkAbandon (xfer : BitVec 64) (peer : BitVec 32 := 0xFFFFFFFF)
  /-- NOTIFY_RESEND (R317). -/
  | notifyResend (slot : Fin 8)
  /-- NEIGHBOR_SOLICITATION (R302). -/
  | neighborSolicitation (target : BitVec 128) (from_ : BitVec 128)
  /-- ECHO_REQUEST (R302). -/
  | echoRequest (from_ : BitVec 128) (data : Bytes)
  /-- INIT (R326). -/
  | init (b : Tagged InitBody)
  /-- RESP (R326). -/
  | resp (b : Tagged RespBody)
  /-- FIN (R326). -/
  | fin (b : Tagged FinBody)
  /-- FIN_ACK (R325). -/
  | finAck (u : Ubtik)
  /-- INIT_RESEND (R328). -/
  | initResend (peer : BitVec 32) (kind page : BitVec 8)
  /-- HANDSHAKE_TIMEOUT (R328). -/
  | handshakeTimeout (peer : BitVec 32)
  /-- KEY_EPOCH_AGE (R333). -/
  | keyEpochAge (page : BitVec 8) (assoc : BitVec 11)
  /-- EPOCH_RELEASE (R334). -/
  | epochRelease (page : BitVec 8) (assoc : BitVec 11)
  /-- CIPHER_KAT (R381). -/
  | cipherKat (pair : Fin 3) (pass : Bool)
  /-- CIPHER_FENCE (R340). -/
  | cipherFence (pair : Fin 3)
  /-- WEDGE_TIMEOUT (R353). -/
  | wedgeTimeout (blk : BlockNo) (queued : BitVec 64)
  /-- TILE_STORAGE_UE (R351). -/
  | tileStorageUe (p : Fin 1056) (word : BitVec 64)
  /-- TILE_CONTROL_PARITY (R351). -/
  | tileControlParity (p : Fin 1056) (index : BitVec 12) (time : BitVec 64)
  /-- FAULT_INJECT (R355). -/
  | faultInject (v : BitVec 64)
  /-- TILE_REMAP (R377). -/
  | tileRemap (t : Fin 1024)
  /-- TILE_MAP_SWITCH (R377). -/
  | tileMapSwitch (t : Fin 1024)
  /-- REMAP_TIMEOUT (R377). -/
  | remapTimeout (t : Fin 1024)
  /-- REMAP (R377). -/
  | remap (t : Fin 1024)
  /-- TEST_CHANNEL (R379). -/
  | testChannel (q : Fin 4) (chan : Fin 64)
  /-- TILE_BIST_DONE (R378). -/
  | tileBistDone (p : Fin 1056) (pass : Bool)
  /-- SPARE_TILE_TEST (R378). -/
  | spareTileTest (p : Fin 1056) (pass : Bool)
  /-- SPARE_CHANNEL_TEST (R379). -/
  | spareChannelTest (q : Fin 4) (chan : Fin 66)
  /-- BOND_RECENTRE (R379). -/
  | bondRecentre (q : Fin 4) (chan : Fin 66)
  /-- FW_LOAD_DONE (R372). -/
  | fwLoadDone (back : Bool)
  /-- UCODE_LOAD_DONE (R376). -/
  | ucodeLoadDone (back : Bool)
  /-- CONFIG_LOAD_DONE (R397). -/
  | configLoadDone (back : Bool)
  /-- FREEZE_N_FALL (R382). -/
  | freezeNFall (cycles : BitVec 16)
  /-- DBG_FREEZE (R382). -/
  | dbgFreeze (cycles : BitVec 16)
  /-- LIGHT_LOST (R220). -/
  | lightLost (p : Fin 10)
  /-- PLL_LOST (R349). -/
  | pllLost (domain : BitVec 5)
  /-- POWER_SAMPLE (R21). -/
  | powerSample (watts : BitVec 16)
  /-- CHANNEL_MARCH_TEST_DONE (R379). -/
  | channelMarchTestDone (q : Fin 4) (chan : Fin 66) (pass : Bool)
  /-- SCAN_SHIFT (R384). -/
  | scanShift (bits : BitVec 32)
  /-- DISCARDED_FRAME (R301). -/
  | discardedFrame (w : Wire)
  /-- POWER_LOSS (R426). -/
  | powerLoss
  /-- RESET_N_ASSERT (R363). -/
  | resetNAssert
  /-- OPTICAL_CAL_DONE (R387). -/
  | opticalCalDone
  /-- HOST_LINK_UP (R387). -/
  | hostLinkUp
  /-- PTP_WAIT_EXPIRY (R390). -/
  | ptpWaitExpiry
  /-- HOST_LINK_WAIT_EXPIRY (R388). -/
  | hostLinkWaitExpiry
  /-- LINK_WAIT_EXPIRY (R388). -/
  | linkWaitExpiry
  /-- TRAIN_COMPLETE (R388). -/
  | trainComplete
  /-- PPS_ABSENT (R429). -/
  | ppsAbsent
  /-- REFCLK_LOSS (R428). -/
  | refclkLoss
  /-- FRAME_TICK (R17). -/
  | frameTick
  /-- STAGED_WRITE_LAND (R370). -/
  | stagedWriteLand
  /-- VDD_CORE_SETTLED (R423). -/
  | vddCoreSettled
  /-- REGULATOR_TIMEOUT (R423). -/
  | regulatorTimeout
  /-- BOND_RATE_RETRAIN_DONE (R20). -/
  | bondRateRetrainDone
  /-- ECC_CLEAR (R412). -/
  | eccClear
  /-- STATS_CLEAR (R417). -/
  | statsClear
  /-- LOAD_FW (R372). -/
  | loadFw
  /-- HANDOVER (R373). -/
  | handover
  /-- HANDOVER_QUIET_POINT (R373). -/
  | handoverQuietPoint
  /-- HANDOVER_BUSY (R373). -/
  | handoverBusy
  /-- FW_CONFIRM (R373). -/
  | fwConfirm
  /-- HANDOVER_CONFIRM_TIMEOUT (R374). -/
  | handoverConfirmTimeout
  /-- LOAD_UCODE (R376). -/
  | loadUcode
  /-- SWAP_UCODE (R376). -/
  | swapUcode
  /-- LOAD_CONFIG (R397). -/
  | loadConfig
  /-- SET_MIN_VERSION (R375). -/
  | setMinVersion
  /-- PROGRAM_OWNER (R375). -/
  | programOwner
  /-- THAW (R385). -/
  | thaw
  /-- PM_ENTER (R386). -/
  | pmEnter
  /-- HOST_LINK_DOWN (R433). -/
  | hostLinkDown
  deriving DecidableEq, Repr

end Sys2Proof
end

