-- ==== Sys2Proof/WellFormed.lean ====
section
/-! DEFINITION. What a command's operands are as the spec lays them out, beyond what their types say: the lengths of
payloads, of datagrams and of lists of sensors and units. A command outside these arrives from nowhere. -/
namespace Sys2Proof

/-- A packet carries 0 to 4,096 payload bytes (R202, R205). -/
def Packet.wellFormed (k : Packet) : Bool := decide (k.payload.length ≤ 4096)

/-- A collective packet is one packet (R205, R234). -/
def ColPacket.wellFormed (k : ColPacket) : Bool := decide (k.payload.length ≤ 4096)

/-- The sensors of one sample: 64 in the logic, 48 in each stack (R173, R434). -/
def TempSample.wellFormed (x : TempSample) : Bool :=
  decide (x.logic.length = 64) && [x.stack0, x.stack1, x.stack2, x.stack3].all (fun l => decide (l.length = 48))

/-- A TABLE body names 256 gap symbols and 256 or 16 value symbols; a retire names none (R292). -/
def TableBody.wellFormed (b : TableBody) : Bool :=
  if b.retire then b.gapLens.isEmpty && b.valLens.isEmpty
  else decide (b.gapLens.length = 256) && decide (b.valLens.length = if b.fp4 then 16 else 256)

/-- The fragments of a manifest hold at most 1 MiB (R308); an entry of its lists is at least three bytes long. -/
def ManifestBody.wellFormed (m : ManifestBody) : Bool :=
  decide (m.members.length ≤ 1024) && decide (m.contribs.length ≤ 65536) && decide (m.absents.length ≤ 1024)

/-- A fragment carries at most 9,094 bytes of its message (R308). -/
def Frag.wellFormed (f : Frag) : Bool := decide (f.data.length ≤ 9094)

/-- The operands are such as the spec lets arrive. -/
def Instr.wellFormed : Instr → Bool
  | .tempSample x => x.wellFormed
  | .dataFrame _ _ k => k.wellFormed
  | .putPacket k => k.wellFormed
  | .getReq k => k.wellFormed
  | .getData k => k.wellFormed
  | .completion k => k.wellFormed
  | .logEntry k => k.wellFormed
  | .ready k _ => k.wellFormed
  | .chunk k => k.wellFormed
  | .table _ b => b.wellFormed
  | .tableRetire _ b => b.retire && b.wellFormed
  | .manifest _ m => m.frag.wellFormed && m.body.wellFormed
  | .countersign _ c => c.frag.wellFormed
  | .receipt _ r => r.frag.wellFormed
  | .join _ b => b.frag.wellFormed
  | .write _ _ bs => decide (bs.length < 2 ^ 32)
  | .bulkData _ _ _ _ bs _ => decide (1 ≤ bs.length) && decide (bs.length ≤ 8192)
  | .tileSelfTestDone l => decide l.Nodup
  | .stackTrained _ l => decide l.Nodup
  | .laserFault l _ => decide l.Nodup
  | _ => true

end Sys2Proof
end

