-- ==== Sys2Proof/Decode.lean ====
section
/-! DEFINITION. The reading of opcode-table words, and the 128-bit words of tile instructions (R118, R120, Tables PRG-3 to
PRG-6). No row of the opcode table gives bits, so no word spells a command by it; a tile instruction's word is how a
tile's instruction memory holds it. -/
namespace Sys2Proof

/-- The command that a word spells by the table's bits: the table gives none. -/
def decodeTableWord (_nbits _w : Nat) : Option Instr := none

/-! ## Layout R (Table PRG-3) -/

/-- An opcode and the fields, as a word. -/
def wordR (op : BitVec 8) (f : LayR) : IWord :=
  op ++ f.fa ++ f.fb ++ f.fc ++ f.fd ++ f.fe ++ f.ff ++ f.aux ++ f.imm

/-- The fields of a word. -/
def fieldsR (w : IWord) : LayR :=
  { fa := w.extractLsb' 115 5, fb := w.extractLsb' 110 5, fc := w.extractLsb' 105 5, fd := w.extractLsb' 100 5,
    fe := w.extractLsb' 95 5, ff := w.extractLsb' 90 5, aux := w.extractLsb' 64 26, imm := w.extractLsb' 0 64 }

/-! ## The MM layout (Table PRG-5) -/

/-- An opcode and the fields, as a word. -/
def wordMM (op : BitVec 8) (f : LayMM) : IWord :=
  op ++ f.arrays ++ f.sfmt ++ f.xfmt ++ f.sbase ++ f.xbase ++ f.dbase ++ f.dcount ++ f.rows ++ f.rowmask ++
  f.colmask ++ f.acc ++ f.xsrc ++ f.xaddr ++ f.smx ++ f.xmx ++ f.sscale ++ f.xscale ++ f.rsv

/-- The fields of a word. -/
def fieldsMM (w : IWord) : LayMM :=
  { arrays := w.extractLsb' 112 8, sfmt := w.extractLsb' 108 4, xfmt := w.extractLsb' 104 4,
    sbase := w.extractLsb' 98 6, xbase := w.extractLsb' 92 6, dbase := w.extractLsb' 86 6, dcount := w.extractLsb' 80 6,
    rows := w.extractLsb' 68 12, rowmask := w.extractLsb' 52 16, colmask := w.extractLsb' 36 16,
    acc := w.extractLsb' 35 1, xsrc := w.extractLsb' 34 1, xaddr := w.extractLsb' 29 5, smx := w.extractLsb' 28 1,
    xmx := w.extractLsb' 27 1, sscale := w.extractLsb' 21 6, xscale := w.extractLsb' 15 6, rsv := w.extractLsb' 0 15 }

/-! ## The VCR layout (Table PRG-6) -/

/-- An opcode and the fields, as a word. -/
def wordVC (op : BitVec 8) (f : LayVC) : IWord :=
  op ++ f.slot ++ f.abase ++ f.bbase ++ f.cbase ++ f.dbase ++ f.n ++ f.pred ++ f.k0 ++ f.k1 ++ f.tid ++ f.e0 ++ f.g ++
  f.rsv

/-- The fields of a word. -/
def fieldsVC (w : IWord) : LayVC :=
  { slot := w.extractLsb' 115 5, abase := w.extractLsb' 109 6, bbase := w.extractLsb' 103 6,
    cbase := w.extractLsb' 97 6, dbase := w.extractLsb' 91 6, n := w.extractLsb' 77 14, pred := w.extractLsb' 74 3,
    k0 := w.extractLsb' 69 5, k1 := w.extractLsb' 64 5, tid := w.extractLsb' 59 5, e0 := w.extractLsb' 54 5,
    g := w.extractLsb' 49 5, rsv := w.extractLsb' 0 49 }

/-! ## Instructions and words (Table PRG-4) -/

/-- The instruction that a context of a tile issues from a word; an opcode value that Table PRG-4 does not list is
undefined. -/
def tileInstr (i : At) (w : IWord) : Option Instr :=
  match (w.extractLsb' 120 8).toNat with
  | 0x00 => some (.nop i (fieldsR w))
  | 0x01 => some (.add i (fieldsR w))
  | 0x02 => some (.sub i (fieldsR w))
  | 0x03 => some (.mul i (fieldsR w))
  | 0x04 => some (.and i (fieldsR w))
  | 0x05 => some (.or i (fieldsR w))
  | 0x06 => some (.xor i (fieldsR w))
  | 0x07 => some (.shl i (fieldsR w))
  | 0x08 => some (.shr i (fieldsR w))
  | 0x09 => some (.sra i (fieldsR w))
  | 0x0A => some (.slt i (fieldsR w))
  | 0x0B => some (.sltu i (fieldsR w))
  | 0x0C => some (.rdinfo i (fieldsR w))
  | 0x0D => some (.pset i (fieldsR w))
  | 0x0E => some (.pget i (fieldsR w))
  | 0x10 => some (.br i (fieldsR w))
  | 0x11 => some (.fend i (fieldsR w))
  | 0x20 => some (.mmw i (fieldsMM w))
  | 0x21 => some (.mmf i (fieldsMM w))
  | 0x22 => some (.mmd i (fieldsMM w))
  | 0x30 => some (.vcr i (fieldsVC w))
  | 0x31 => some (.vdl i (fieldsR w))
  | 0x40 => some (.ld i (fieldsR w))
  | 0x41 => some (.st i (fieldsR w))
  | 0x42 => some (.ldt i (fieldsR w))
  | 0x43 => some (.stc i (fieldsR w))
  | 0x44 => some (.lds i (fieldsR w))
  | 0x45 => some (.sts i (fieldsR w))
  | 0x50 => some (.din i (fieldsR w))
  | 0x51 => some (.dout i (fieldsR w))
  | 0x60 => some (.put i (fieldsR w))
  | 0x61 => some (.get i (fieldsR w))
  | 0x70 => some (.wait i (fieldsR w))
  | 0x71 => some (.evset i (fieldsR w))
  | 0x72 => some (.evadd i (fieldsR w))
  | 0x73 => some (.fence i (fieldsR w))
  | 0x74 => some (.sync i (fieldsR w))
  | 0x80 => some (.claunch i (fieldsR w))
  | 0x81 => some (.cefence i (fieldsR w))
  | 0x90 => some (.scommit i (fieldsR w))
  | 0x91 => some (.sabort i (fieldsR w))
  | 0xA0 => some (.dclose i (fieldsR w))
  | 0xA1 => some (.dstat i (fieldsR w))
  | _ => none

/-- The word of a tile instruction. -/
def tileWord : Instr → Option IWord
  | .nop _ f => some (wordR 0x00 f)
  | .add _ f => some (wordR 0x01 f)
  | .sub _ f => some (wordR 0x02 f)
  | .mul _ f => some (wordR 0x03 f)
  | .and _ f => some (wordR 0x04 f)
  | .or _ f => some (wordR 0x05 f)
  | .xor _ f => some (wordR 0x06 f)
  | .shl _ f => some (wordR 0x07 f)
  | .shr _ f => some (wordR 0x08 f)
  | .sra _ f => some (wordR 0x09 f)
  | .slt _ f => some (wordR 0x0A f)
  | .sltu _ f => some (wordR 0x0B f)
  | .rdinfo _ f => some (wordR 0x0C f)
  | .pset _ f => some (wordR 0x0D f)
  | .pget _ f => some (wordR 0x0E f)
  | .br _ f => some (wordR 0x10 f)
  | .fend _ f => some (wordR 0x11 f)
  | .mmw _ f => some (wordMM 0x20 f)
  | .mmf _ f => some (wordMM 0x21 f)
  | .mmd _ f => some (wordMM 0x22 f)
  | .vcr _ f => some (wordVC 0x30 f)
  | .vdl _ f => some (wordR 0x31 f)
  | .ld _ f => some (wordR 0x40 f)
  | .st _ f => some (wordR 0x41 f)
  | .ldt _ f => some (wordR 0x42 f)
  | .stc _ f => some (wordR 0x43 f)
  | .lds _ f => some (wordR 0x44 f)
  | .sts _ f => some (wordR 0x45 f)
  | .din _ f => some (wordR 0x50 f)
  | .dout _ f => some (wordR 0x51 f)
  | .put _ f => some (wordR 0x60 f)
  | .get _ f => some (wordR 0x61 f)
  | .wait _ f => some (wordR 0x70 f)
  | .evset _ f => some (wordR 0x71 f)
  | .evadd _ f => some (wordR 0x72 f)
  | .fence _ f => some (wordR 0x73 f)
  | .sync _ f => some (wordR 0x74 f)
  | .claunch _ f => some (wordR 0x80 f)
  | .cefence _ f => some (wordR 0x81 f)
  | .scommit _ f => some (wordR 0x90 f)
  | .sabort _ f => some (wordR 0x91 f)
  | .dclose _ f => some (wordR 0xA0 f)
  | .dstat _ f => some (wordR 0xA1 f)
  | _ => none

end Sys2Proof
end

