-- ==== Sys2Proof/Config.lean ====
section
/-! DEFINITION. What the spec leaves open, and functions that it names and does not define. All are
opaque: nothing can be proved of a value of theirs, so what holds of the model holds whatever they
are. -/
namespace Sys2Proof.Config

/-- The value of a result that the spec leaves undefined or unstated, by the counter `State.free`
(DESIGN CHOICE, log entry 2). -/
opaque freeValue : Nat → BitVec 64

/-- The FN functions of Table VEC-5 other than the reciprocal, on the FP32 encodings of finite operands: the device's
own fixed value (R87), which the model takes where it meets the bound of R97. -/
opaque fnValue : Nat → BitVec 32 → BitVec 32

/-- What a stage reads of an operand whose value its lane format cannot hold, by stage-0 lane format,
lane format and value: a fixed function of them (R87) that no rule states (DESIGN CHOICE, log entry 2). -/
opaque laneValue : Nat → Nat → BitVec 64 → BitVec 64

/-- What the codec decodes of an element past a compressed block's nibbles, by block and element: no
rule states it (DESIGN CHOICE, log entry 2). -/
opaque codecExtra : Bytes → Nat → BitVec 16

/-- The bodies of LANE and STATE frames, which no rule lays out (R197, R217, DESIGN CHOICE, log entry 118). -/
opaque laneBody : Fin 4 → Fin 5 → Bool → BitVec 64 → Bytes
opaque stateBody : Bool → Bytes

/-- SHAKE256, the first `n` bits of its output (R319). -/
opaque shake256 : Bytes → (n : Nat) → BitVec n

/-- The context, numbered by the rows of Table SEC-1, under which an Ed448 signature of a message was made with the private
half of a key, if it was: a signature made under one context verifies under no other (R319). -/
opaque signedUnder : BitVec 456 → Bytes → BitVec 912 → Option Nat

/-- Whether an Ed448 signature verifies, by context, public key, message and signature (R319). -/
def ed448Verify (ctx : Nat) (key : BitVec 456) (msg : Bytes) (sig : BitVec 912) : Bool := decide (signedUnder key msg sig = some ctx)

/-- An Ed448 signature by context, private key and message, and the public half of a private key (R318, R319). -/
opaque ed448Sign : Nat → BitVec 456 → Bytes → BitVec 912
opaque ed448Public : BitVec 456 → BitVec 456

/-- The 256-bit identity seed in the fuses (R318). -/
opaque seed : BitVec 256

/-- The GCM tag over an empty plaintext, by key and authenticated data (R325). -/
opaque gcmTag : BitVec 256 → Bytes → BitVec 128

/-- The vendor certificate signature in one-time memory (R318). -/
opaque certSig : BitVec 912

/-- The vendor root key in the boot ROM (R318). -/
opaque vendorKey : BitVec 456

/-- The vendor image key (R319). -/
opaque imageKey : BitVec 456

/-- The fused 16-byte device serial (R318, GEN_SERIAL). -/
opaque serial : BitVec 128

/-- The nonces and private halves of X448 ephemerals that the device draws, by the counter `State.free` (R216,
R325). -/
opaque random : Nat → BitVec 448

/-- X448: the public half of an ephemeral, and the value that a private half shares with a peer's public half (R326, R327). -/
opaque x448Public : BitVec 448 → BitVec 448
opaque x448 : BitVec 448 → BitVec 448 → BitVec 448

/-- The shard digest of A_0 of a shard that another device of the site holds, by job and shard: at a fresh start it reaches
the site lead by a way that no rule gives (R283, DESIGN CHOICE, log entry 18). -/
opaque otherShard : Nat → BitVec 32 → BitVec 256

/-- Where the working copy of a master weight stands, by job, region and element: region and element there, element format,
tensor id, and the element's number in its tensor. They stand in the job's program (R77, R158, R272, DESIGN CHOICE, log
entry 18). -/
opaque workingOf : Nat → Nat → Nat → Option (Nat × Nat × Nat × BitVec 32 × Nat)

/-- The length of a scan chain in bits, less one (R384): the device's own. -/
opaque chainLength : Nat → Nat

end Sys2Proof.Config
end

