-- ==== Sys2Proof/Machine/Bits.lean ====
section
/-! DEFINITION. Bit fields, byte strings and sparse tables: the plain data operations that every
other file uses (R7). -/
namespace Sys2Proof.Machine

/-! ## Sparse tables -/

/-- The value at a key, or the default. -/
def look {α : Type} : Sparse α → Nat → α → α
  | [], _, d => d
  | (k', v) :: r, k, d => if k = k' then v else look r k d

/-- Write the value at a key, keeping the canonical form: keys rising, nothing listed that equals
the default at its key. -/
def store {α : Type} [DecidableEq α] : Sparse α → Nat → α → α → Sparse α
  | [], k, v, d => if v = d then [] else [(k, v)]
  | (k', v') :: r, k, v, d =>
    if k < k' then (if v = d then (k', v') :: r else (k, v) :: (k', v') :: r)
    else if k = k' then (if v = d then r else (k, v) :: r)
    else (k', v') :: store r k v d

/-- All keys of a table lie above a bound, and rise. -/
def keysAbove {α : Type} : Nat → Sparse α → Bool
  | _, [] => true
  | b, (k, _) :: r => decide (b ≤ k) && keysAbove (k + 1) r

/-- The canonical form of a table whose unlisted keys read as `d`. -/
def canonical {α : Type} [DecidableEq α] (m : Sparse α) (d : Nat → α) : Bool :=
  keysAbove 0 m && m.all (fun kv => decide (kv.2 ≠ d kv.1))

/-! ## Bytes of a memory -/

/-- One byte: an unlisted address reads as zero (DESIGN CHOICE, log entry 3). -/
def rd (m : Sparse Byte) (a : Nat) : Byte := look m a 0

/-- `n` bytes from an address upward. -/
def rdN (m : Sparse Byte) (a : Nat) : Nat → Bytes
  | 0 => []
  | n + 1 => rd m a :: rdN m (a + 1) n

/-- Write bytes from an address upward. -/
def wrN (m : Sparse Byte) (a : Nat) : Bytes → Sparse Byte
  | [] => m
  | b :: r => wrN (store m a b 0) (a + 1) r

/-- Write scattered bytes. -/
def wrAll (m : Sparse Byte) : List (Nat × Byte) → Sparse Byte
  | [] => m
  | (a, b) :: r => wrAll (store m a b 0) r

/-- The memory of bytes is in canonical form. -/
def Memory.wf (m : Sparse Byte) : Bool := canonical m (fun _ => 0)

/-! ## Numbers and bytes -/

/-- The number that bytes hold, least significant byte first (R7). -/
def leNat : Bytes → Nat
  | [] => 0
  | b :: r => b.toNat + 256 * leNat r

/-- The number that bytes hold, most significant byte first (R7). -/
def beNat (bs : Bytes) : Nat := leNat bs.reverse

/-- `n` bytes of a number, least significant first. -/
def toLE : Nat → Nat → Bytes
  | 0, _ => []
  | n + 1, v => BitVec.ofNat 8 v :: toLE n (v / 256)

/-- `n` bytes of a number, most significant first. -/
def toBE (n v : Nat) : Bytes := (toLE n v).reverse

/-- Bits [hi:lo] of a number. -/
def bits (v lo hi : Nat) : Nat := (v >>> lo) % 2 ^ (hi + 1 - lo)

/-- One bit of a number. -/
def bit (v i : Nat) : Bool := v.testBit i

/-- A number with bits [hi:lo] replaced. -/
def withBits (v lo hi x : Nat) : Nat :=
  v - bits v lo hi * 2 ^ lo + (x % 2 ^ (hi + 1 - lo)) * 2 ^ lo

/-- The value of an `n`-bit two's complement number. -/
def signed (n v : Nat) : Int :=
  if v % 2 ^ n < 2 ^ (n - 1) then ((v % 2 ^ n : Nat) : Int) else ((v % 2 ^ n : Nat) : Int) - 2 ^ n

/-- An integer as `n` bits of two's complement. -/
def unsigned (n : Nat) (v : Int) : Nat := (v % (2 ^ n : Int)).toNat

/-- A counter of `n` bits that saturates at its largest value (R407). -/
def satTo (n v : Nat) : Nat := if v < 2 ^ n then v else 2 ^ n - 1

/-- 1 for true. -/
def ofBool (b : Bool) : Nat := if b then 1 else 0

/-- The bits of a mask that are set, in rising order. -/
def setBitsOf (v n : Nat) : List Nat := (List.range n).filter (fun i => v.testBit i)

/-- The mask of a list of bit numbers. -/
def maskOf (l : List Nat) : Nat := l.foldl (fun a i => a ||| (1 <<< i)) 0

/-! ## Lists -/

/-- The first element that satisfies a test, with a change applied to it. -/
def modFirst {α : Type} (p : α → Bool) (f : α → α) : List α → List α
  | [] => []
  | a :: r => if p a then f a :: r else a :: modFirst p f r

/-- Change every element that satisfies a test. -/
def modAll {α : Type} (p : α → Bool) (f : α → α) (l : List α) : List α :=
  l.map (fun a => if p a then f a else a)

/-- Insert a number into a list kept rising and without repeats. -/
def addTo (n : Nat) : List Nat → List Nat
  | [] => [n]
  | a :: r => if n < a then n :: a :: r else if n = a then a :: r else a :: addTo n r

/-- The value listed for a number. -/
def assoc {α : Type} (l : List (Nat × α)) (k : Nat) : Option α :=
  (l.find? (fun p => p.1 = k)).map (·.2)

/-- A list of pairs with the value at a number set. -/
def assocSet {α : Type} (l : List (Nat × α)) (k : Nat) (v : α) : List (Nat × α) :=
  if l.any (fun p => p.1 = k) then modAll (fun p => p.1 = k) (fun _ => (k, v)) l else l ++ [(k, v)]

/-- A list cut into pieces of a length (the last may be shorter); the second argument bounds the
number of pieces. -/
def pieces {α : Type} (n : Nat) : Nat → List α → List (List α)
  | 0, _ => []
  | fuel + 1, l => if l.isEmpty then [] else l.take n :: pieces n fuel (l.drop n)

/-! ## Signature contexts, by the rows of Table SEC-1 (R319) -/

def ctxVendor : Nat := 0
def ctxOperator : Nat := 1
def ctxImage : Nat := 2
def ctxConfig : Nat := 3
def ctxIdent : Nat := 4
def ctxManifest : Nat := 5
def ctxResp : Nat := 6
def ctxFin : Nat := 7

end Sys2Proof.Machine
end

