-- ==== Sys2Proof/Machine/Numerics.lean ====
section
/-! DEFINITION. Number formats and arithmetic (chapter 3): exact values, the formats, the column sum,
the roundings, the conversions, and Philox. -/
namespace Sys2Proof.Machine

/-- An exact value (R10): NaN, an infinity, or ±m × 2^e, where m = 0 is a zero with a sign. -/
inductive XVal where
  | nan
  | inf (neg : Bool)
  | fin (neg : Bool) (m : Nat) (e : Int)
  deriving DecidableEq, Repr

def XVal.zero : XVal := .fin false 0 0
def XVal.ofNat (n : Nat) : XVal := .fin false n 0
def XVal.ofInt (n : Int) : XVal := .fin (decide (n < 0)) n.natAbs 0
def XVal.isNan : XVal → Bool
  | .nan => true
  | _ => false
def XVal.isInf : XVal → Bool
  | .inf _ => true
  | _ => false
def XVal.isFin : XVal → Bool
  | .fin _ _ _ => true
  | _ => false
def XVal.isZero : XVal → Bool
  | .fin _ m _ => m = 0
  | _ => false
def XVal.neg? : XVal → Bool
  | .nan => false
  | .inf n => n
  | .fin n _ _ => n
def XVal.negate : XVal → XVal
  | .nan => .nan
  | .inf n => .inf (!n)
  | .fin n m e => .fin (!n) m e
def XVal.abs : XVal → XVal
  | .nan => .nan
  | .inf _ => .inf false
  | .fin _ m e => .fin false m e
/-- Multiply by 2^k. -/
def XVal.scale (k : Int) : XVal → XVal
  | .fin n m e => .fin n m (e + k)
  | v => v

/-- floor(log2 (m × 2^e)), for m > 0. -/
def lead (m : Nat) (e : Int) : Int := (Nat.log2 m : Int) + e

/-- floor(m × 2^e ÷ 2^u). -/
def floorAt (m : Nat) (e u : Int) : Nat :=
  if u ≤ e then m <<< (e - u).toNat else m >>> (u - e).toNat

/-- Compare magnitudes: m × 2^e ≤ n × 2^f. -/
def magLe (m : Nat) (e : Int) (n : Nat) (f : Int) : Bool :=
  if f ≤ e then decide (m <<< (e - f).toNat ≤ n) else decide (m ≤ n <<< (f - e).toNat)

/-! ## Formats (R53 to R57) -/

/-- A floating-point format: field widths, bias, largest finite value and NaN. `inf` says that it has
infinities, `nan` gives the canonical NaN code where it has one (Tables NUM-2, NUM-3). -/
structure Fmt where
  ebits : Nat
  mbits : Nat
  bias : Nat
  maxM : Nat
  maxE : Int
  inf : Bool
  nan : Option Nat
  deriving DecidableEq, Repr

def fmtE2M1 : Fmt := ⟨2, 1, 1, 3, 1, false, none⟩
def fmtE2M3 : Fmt := ⟨2, 3, 1, 15, -1, false, none⟩
def fmtE3M2 : Fmt := ⟨3, 2, 3, 7, 2, false, none⟩
def fmtE4M3 : Fmt := ⟨4, 3, 7, 7, 6, false, some 0x7F⟩
def fmtE5M2 : Fmt := ⟨5, 2, 15, 7, 13, true, some 0x7E⟩
def fmtBF16 : Fmt := ⟨8, 7, 127, 255, 120, true, some 0x7FC0⟩
def fmtFP16 : Fmt := ⟨5, 10, 15, 2047, 5, true, some 0x7E00⟩
def fmtFP32 : Fmt := ⟨8, 23, 127, 16777215, 104, true, some 0x7FC00000⟩
def fmtFP64 : Fmt := ⟨11, 52, 1023, 9007199254740991, 971, true, some 0x7FF8000000000000⟩
/-- W48 (R64). -/
def fmtW48 : Fmt := ⟨11, 36, 1023, 137438953471, 987, true, some 0x7FF800000000⟩

/-- The floating-point format of a code of Table NUM-1; INT8 and reserved codes have none. -/
def fmtOf (c : Nat) : Option Fmt :=
  if c = 0 then some fmtE2M1 else if c = 1 then some fmtE2M3 else if c = 2 then some fmtE3M2
  else if c = 3 then some fmtE4M3 else if c = 4 then some fmtE5M2 else if c = 6 then some fmtBF16
  else if c = 7 then some fmtFP16 else if c = 8 then some fmtFP32 else if c = 9 then some fmtFP64
  else none

/-- Bits of an element (Table NUM-1). -/
def fmtBits (c : Nat) : Nat :=
  if c = 0 then 4 else if c = 1 ∨ c = 2 then 6 else if c ≤ 5 then 8 else if c ≤ 7 then 16
  else if c = 8 then 32 else 64

/-- The value of an encoding (R54). -/
def Fmt.decode (f : Fmt) (raw : Nat) : XVal :=
  let neg := raw.testBit (f.ebits + f.mbits)
  let ex := bits raw f.mbits (f.mbits + f.ebits - 1)
  let fr := raw % 2 ^ f.mbits
  let top := 2 ^ f.ebits - 1
  if f.inf ∧ ex = top then (if fr = 0 then .inf neg else .nan)
  else if !f.inf ∧ f.nan.isSome ∧ ex = top ∧ fr = 2 ^ f.mbits - 1 then .nan
  else if ex = 0 then .fin neg fr (1 - (f.bias : Int) - f.mbits)
  else .fin neg (2 ^ f.mbits + fr) ((ex : Int) - f.bias - f.mbits)

/-- The value of an element by format code: INT8 as an integer, or n × 2^-6 when block-scaled
(R55). -/
def decodeFmt (c : Nat) (mx : Bool) (raw : Nat) : XVal :=
  match fmtOf c with
  | some f => f.decode raw
  | none =>
    let n := signed 8 raw
    .fin (decide (n < 0)) n.natAbs (if mx then -6 else 0)

/-- An E8M0 scale code applied (R59). -/
def applyScale (code : Nat) (v : XVal) : XVal :=
  if code = 0xFF then .nan else v.scale ((code : Int) - 127)

/-! ## Roundings -/

/-- How a magnitude is rounded to a grid: to nearest even, to nearest with ties away, toward zero, or
stochastically with a 32-bit random word (R76). -/
inductive Rounding where
  | rne
  | rha
  | trunc
  | stoch (r : Nat)
  deriving DecidableEq, Repr

/-- A magnitude m × 2^e in units of 2^u, rounded. -/
def roundMag (mode : Rounding) (m : Nat) (e u : Int) : Nat :=
  if u ≤ e then m <<< (e - u).toNat
  else
    let sh := (u - e).toNat
    let q := m >>> sh
    let r := m % 2 ^ sh
    match mode with
    | .rne => if 2 * r > 2 ^ sh ∨ (2 * r = 2 ^ sh ∧ q % 2 = 1) then q + 1 else q
    | .rha => if 2 * r ≥ 2 ^ sh then q + 1 else q
    | .trunc => q
    | .stoch w => if r * 2 ^ 32 / 2 ^ sh + w ≥ 2 ^ 32 then q + 1 else q

/-- The exponent of the grid of a format at a magnitude: the binade's spacing or the subnormal
spacing. -/
def Fmt.unit (f : Fmt) (m : Nat) (e : Int) : Int := max (lead m e - f.mbits) (1 - (f.bias : Int) - f.mbits)

/-- The code of a magnitude k × 2^u that lies on the format's grid. -/
def Fmt.pack (f : Fmt) (neg : Bool) (k : Nat) (u : Int) : Nat :=
  let sgn := ofBool neg * 2 ^ (f.ebits + f.mbits)
  if k = 0 then sgn
  else
    let l := lead k u
    if l < 1 - (f.bias : Int) then sgn + floorAt k u (1 - (f.bias : Int) - f.mbits)
    else sgn + (l + f.bias).toNat * 2 ^ f.mbits + (floorAt k u (l - f.mbits) - 2 ^ f.mbits)

def Fmt.maxCode (f : Fmt) (neg : Bool) : Nat := f.pack neg f.maxM f.maxE
def Fmt.infCode (f : Fmt) (neg : Bool) : Nat :=
  ofBool neg * 2 ^ (f.ebits + f.mbits) + (2 ^ f.ebits - 1) * 2 ^ f.mbits
def Fmt.nanCode (f : Fmt) : Nat := f.nan.getD 0

/-- Round to a format with infinities: overflow gives ±Inf. The flag says that it overflowed (R65). -/
def Fmt.round (f : Fmt) (mode : Rounding) : XVal → Nat × Bool
  | .nan => (f.nanCode, false)
  | .inf n => (f.infCode n, false)
  | .fin n m e =>
    if m = 0 then (f.pack n 0 0, false)
    else
      let u := f.unit m e
      let k := roundMag mode m e u
      if magLe k u f.maxM f.maxE then (f.pack n k u, false) else (f.infCode n, true)

/-- Round to nearest even, without the flag. -/
def Fmt.rne (f : Fmt) (v : XVal) : Nat := (f.round .rne v).1

/-! ## Exact arithmetic -/

/-- A product and whether it is the invalid product 0 × Inf (Table NUM-4). -/
def mulX : XVal → XVal → XVal × Bool
  | .nan, _ => (.nan, false)
  | _, .nan => (.nan, false)
  | .inf a, .inf b => (.inf (a != b), false)
  | .inf a, .fin b m _ => if m = 0 then (.nan, true) else (.inf (a != b), false)
  | .fin a m _, .inf b => if m = 0 then (.nan, true) else (.inf (a != b), false)
  | .fin a m e, .fin b n f => (.fin (a != b) (m * n) (e + f), false)

/-- A signed integer in units of 2^u, for u no greater than e. -/
def atUnit (neg : Bool) (m : Nat) (e u : Int) : Int :=
  let k : Int := (m <<< (e - u).toNat : Nat)
  if neg then -k else k

/-- The exact sum and whether it is the invalid sum of opposite infinities (Table NUM-5). -/
def addX : XVal → XVal → XVal × Bool
  | .nan, _ => (.nan, false)
  | _, .nan => (.nan, false)
  | .inf a, .inf b => if a = b then (.inf a, false) else (.nan, true)
  | .inf a, .fin _ _ _ => (.inf a, false)
  | .fin _ _ _, .inf b => (.inf b, false)
  | .fin a m e, .fin b n f =>
    if m = 0 ∧ n = 0 then (.fin (a && b) 0 0, false)
    else if m = 0 then (.fin b n f, false)
    else if n = 0 then (.fin a m e, false)
    else
      let u := min e f
      let s := atUnit a m e u + atUnit b n f u
      if s = 0 then (.zero, false) else (.fin (decide (s < 0)) s.natAbs u, false)

/-- A quotient of naturals as a magnitude that rounds as the exact quotient does, for formats of up to
`p` significant bits: p + 2 bits and a sticky bit. -/
def ratX (neg : Bool) (num den p : Nat) : XVal :=
  if den = 0 then (if num = 0 then .nan else .inf neg)
  else if num = 0 then .fin neg 0 0
  else
    let k := p + 3 + Nat.log2 den
    let q := (num <<< k) / den
    let r := (num <<< k) % den
    .fin neg (2 * q + (if r = 0 then 0 else 1)) (-(k : Int) - 1)

/-- The quotient of two values (Table NUM-5's manner of special values: 0 ÷ 0 and Inf ÷ Inf are
NaN). -/
def divX : XVal → XVal → Nat → XVal
  | .nan, _, _ => .nan
  | _, .nan, _ => .nan
  | .inf _, .inf _, _ => .nan
  | .inf a, .fin b _ _, _ => .inf (a != b)
  | .fin a _ _, .inf b, _ => .fin (a != b) 0 0
  | .fin a m e, .fin b n f, p =>
    if n = 0 then (if m = 0 then .nan else .inf (a != b))
    else (ratX (a != b) m n p).scale (e - f)

/-- The order of two values: less, equal, greater, or none with a NaN. -/
def cmpX : XVal → XVal → Option Ordering
  | .nan, _ => none
  | _, .nan => none
  | .inf a, .inf b => some (if a = b then .eq else if a then .lt else .gt)
  | .inf a, .fin _ _ _ => some (if a then .lt else .gt)
  | .fin _ _ _, .inf b => some (if b then .gt else .lt)
  | .fin a m e, .fin b n f =>
    let u := min e f
    some (compare (atUnit a m e u) (atUnit b n f u))

/-! ## The column sum (R61, R62, R66, R81) -/

/-- `col_add` with significand n and guard bits g, and whether it is an invalid sum. The exponent of a column value is
not bounded: no rule says what a value past the column format's exponent becomes (DEDUCED, log entry 108). -/
def colAdd (n g : Nat) (ps p : XVal) : XVal × Bool :=
  match ps, p with
  | .fin a m e, .fin b k f =>
    if m = 0 ∧ k = 0 then addX ps p
    else
      let l := if m = 0 then lead k f else if k = 0 then lead m e else max (lead m e) (lead k f)
      let q := l - (n - 1 : Nat) - g
      let x : Int := floorAt m e q
      let y : Int := floorAt k f q
      let s := (if a then -x else x) + (if b then -y else y)
      if s = 0 then (.zero, false)
      else
        let t := s.natAbs
        if t < 2 ^ (n + g) then (.fin (decide (s < 0)) t q, false)
        else (.fin (decide (s < 0)) (t / 2) (q + 1), false)
  | _, _ => addX ps p

/-- What a column sum met: its value, invalid products and whether an invalid sum arose. -/
structure ColSum where
  val : XVal
  prods : Nat
  sums : Nat
  deriving DecidableEq, Repr

/-- `column_sum` over the unmasked terms, in the order given. -/
def columnSum (n g : Nat) (terms : List (XVal × XVal)) : ColSum :=
  terms.foldl (fun c t =>
    let p := mulX t.1 t.2
    let r := colAdd n g c.val p.1
    { val := r.1, prods := c.prods + ofBool p.2, sums := c.sums + ofBool r.2 })
    { val := .zero, prods := 0, sums := 0 }

/-! ## FP32 and W48 helpers -/

def fp32 (raw : Nat) : XVal := fmtFP32.decode raw
def fp64 (raw : Nat) : XVal := fmtFP64.decode raw
def w48 (raw : Nat) : XVal := fmtW48.decode (raw % 2 ^ 48)
def add32 (a b : Nat) : Nat := fmtFP32.rne (addX (fp32 a) (fp32 b)).1
def sub32 (a b : Nat) : Nat := fmtFP32.rne (addX (fp32 a) (fp32 b).negate).1
def fma32 (a b c : Nat) : Nat := fmtFP32.rne (addX (mulX (fp32 a) (fp32 b)).1 (fp32 c)).1
/-- A product as the FMA stage gives it, with a +0 input (R158). -/
def mul32 (a b : Nat) : Nat := fma32 a b 0
def div32 (a b : Nat) : Nat := fmtFP32.rne (divX (fp32 a) (fp32 b) 24)
def add64 (a b : Nat) : Nat := fmtFP64.rne (addX (fp64 a) (fp64 b)).1
def addW48 (a b : Nat) : Nat := fmtW48.rne (addX (w48 a) (w48 b)).1
/-- A quotient of naturals rounded to nearest even in FP32. -/
def ratio32 (num den : Nat) : Nat := fmtFP32.rne (ratX false num den 24)

/-! ## Philox (R77) -/

/-- `philox4x32_10`, for the rounds still to run; the keys are those of the present round. -/
def philoxRounds : Nat → Nat × Nat × Nat × Nat → Nat → Nat → Nat × Nat × Nat × Nat
  | 0, c, _, _ => c
  | n + 1, (c0, c1, c2, c3), k0, k1 =>
    let p0 := 0xD2511F53 * c0
    let p1 := 0xCD9E8D57 * c2
    philoxRounds n
      ((p1 >>> 32) ^^^ c1 ^^^ k0, p1 % 2 ^ 32, (p0 >>> 32) ^^^ c3 ^^^ k1, p0 % 2 ^ 32)
      ((k0 + 0x9E3779B9) % 2 ^ 32) ((k1 + 0xBB67AE85) % 2 ^ 32)

/-- The random word of element e of a tensor at a step, for a purpose code (R77). -/
def randomWord (seed step tensor purpose e : Nat) : Nat :=
  let q := e / 4
  let r := philoxRounds 10
    (q % 2 ^ 32, bits q 32 47 + purpose * 2 ^ 16, tensor % 2 ^ 32, step % 2 ^ 32)
    (seed % 2 ^ 32) (bits seed 32 63)
  match e % 4 with
  | 0 => r.1
  | 1 => r.2.1
  | 2 => r.2.2.1
  | _ => r.2.2.2

/-! ## Conversions (R71 to R76, R441) -/

/-- How a conversion is scaled. -/
inductive Scaling where
  | none
  | tensor
  | block
  deriving DecidableEq, Repr

/-- What the conversion of one element gave: the code, and whether it saturated, wrote +0 for a NaN,
and read or wrote a non-finite value. -/
structure Conv where
  code : Nat
  sat : Bool
  nanZero : Bool
  nonFinite : Bool
  deriving DecidableEq, Repr

/-- Convert one value into a format code with scale exponent X (R71, R72, Table NUM-7). -/
def convert (c : Nat) (sc : Scaling) (x : Int) (mode : Rounding) (v : XVal) : Conv :=
  match fmtOf c with
  | some f =>
    match v with
    | .nan =>
      match f.nan with
      | some n => ⟨n, false, false, true⟩
      | Option.none => ⟨0, false, sc ≠ .block, true⟩
    | .inf n => if f.inf then ⟨f.infCode n, false, false, true⟩ else ⟨f.maxCode n, true, false, true⟩
    | .fin n m e =>
      if m = 0 then ⟨f.pack n 0 0, false, false, false⟩
      else
        let e := e - x
        let u := f.unit m e
        let k := roundMag mode m e u
        if magLe k u f.maxM f.maxE then ⟨f.pack n k u, false, false, false⟩
        else if c = 9 then ⟨f.infCode n, false, false, true⟩
        else ⟨f.maxCode n, true, false, false⟩
  | Option.none =>
    let u : Int := if sc = .block then -6 else 0
    let put (n : Bool) (k : Nat) : Nat := unsigned 8 (if n then -(k : Int) else k)
    match v with
    | .nan => ⟨0, false, sc ≠ .block, true⟩
    | .inf n => ⟨put n 127, true, false, true⟩
    | .fin n m e =>
      let k := roundMag mode m (e - x) u
      if k ≤ 127 then ⟨put n k, false, false, false⟩ else ⟨put n 127, true, false, false⟩

/-- The largest finite magnitude F of R73 for a format code and scaling. -/
def scaleMax (c : Nat) (sc : Scaling) : Nat × Int :=
  match fmtOf c with
  | some f => (f.maxM, f.maxE)
  | Option.none => (127, if sc = .block then -6 else 0)

/-- The largest of two magnitudes. -/
def magMax (a b : Nat × Int) : Nat × Int := if magLe a.1 a.2 b.1 b.2 then b else a

/-- The largest finite magnitude among values (R73). -/
def maxFinite (vs : List XVal) : Nat × Int :=
  vs.foldl (fun a v => match v with
    | .fin _ m e => magMax a (m, e)
    | _ => a) (0, 0)

/-- The scale code chosen for a largest magnitude (R73, R74): 0 when it is zero. -/
def scaleCode (c : Nat) (sc : Scaling) (a : Nat × Int) : Nat :=
  if a.1 = 0 then 0
  else
    let f := scaleMax c sc
    let x0 := lead a.1 a.2 - lead f.1 f.2
    let x := if magLe a.1 a.2 f.1 (f.2 + x0) then x0 else x0 + 1
    ((max (-127) (min 127 x)) + 127).toNat

/-- Scaling permitted for a format code (R71). -/
def scalingOk (c : Nat) (sc : Scaling) : Bool :=
  match sc with
  | .none => decide (c ≤ 9)
  | .tensor => decide (c ≤ 7)
  | .block => decide (c ≤ 5)

/-- The rounding of a conversion (R78, Table NUM-9): the tag is 0 untagged, 1 gradient, 2 weight
update; `update` is the rounding mode of NUM_CTRL. -/
def convRounding (update : Bool) (tag seed step tensor e : Nat) : Rounding :=
  if tag = 1 then (if update then .rne else .stoch (randomWord seed step tensor 1 e))
  else if tag = 2 then .stoch (randomWord seed step tensor 2 e)
  else .rne

/-- Compare two FP32 codes as FN and guard tests do: a ≤ b as values. -/
def le32 (a b : Nat) : Bool := match cmpX (fp32 a) (fp32 b) with
  | some .gt => false
  | some _ => true
  | none => false
def lt32 (a b : Nat) : Bool := cmpX (fp32 a) (fp32 b) = some .lt

end Sys2Proof.Machine
end

