-- ==== Sys2Proof/Machine/State.lean ====
section
/-! DEFINITION. The state of the block: everything the spec gives the KL7, as plain data, and the
state right after reset. Tables indexed by tile, job, port, stack domain or address are `Sparse`:
what they do not list has the value of the record's `reset` (or, for the register words, the reset
value of Register reference). Fields named as the model's own hold no state of the spec's. -/
namespace Sys2Proof.Machine

/-- No command of the block stops the machine: every effect the spec gives, errors included, is a
next state. The type has no constructor; nobody raises a fault (safe). -/
inductive Fault
  deriving DecidableEq, Repr

/-- Why a command has no meaning. -/
inductive Refusal where
  /-- Raised by an arm of `exec` whose command has not been given its meaning (safe: nothing can be
  proved of it). -/
  | notModelled (mnemonic : String)
  deriving DecidableEq, Repr

/-! ## Device, start-up, supplies, time -/

/-- The device states of Table BOT-6. -/
inductive DevState where
  | off | reset | boot | train | ready | run | drain | frozen | postMortem | fault
  deriving DecidableEq, Repr

/-- The configuration image under application (R394 to R396): what Lerhus counts and keeps of it. -/
structure Image where
  valid : Bool
  device : Nat
  topology : Nat
  tick : Nat
  power : Nat
  hostNet : Nat
  hostList : Nat
  ports : List Nat
  endpoints : List Endpoint
  hosts : List (BitVec 128)
  deriving DecidableEq, Repr

/-- The conditions of R388 for leaving TRAIN, and why the device is in TRAIN. -/
structure Train where
  stacksUp : BitVec 4
  tilesDone : Bool
  hostWaived : Bool
  opticalDone : Bool
  linkWaitOver : Bool
  kat : BitVec 3
  /-- The power mode a bond-rate retrain of R20 goes to. -/
  retrain : Option (BitVec 2)
  deriving DecidableEq, Repr

/-- A firmware slot of the flash (R392, R393). -/
structure FwSlot where
  valid : Bool
  version : BitVec 32
  secVersion : BitVec 32
  recWrite : BitVec 16
  recMin : BitVec 16
  recMax : BitVec 16
  digest : BitVec 512
  deriving DecidableEq, Repr

/-- A microcode or configuration copy of the flash: validity, version or sequence, security version
and digest. -/
structure FlashCopy where
  valid : Bool
  version : BitVec 64
  secVersion : BitVec 32
  digest : BitVec 512
  deriving DecidableEq, Repr

/-- The configuration flash of R391 as far as it decides anything. -/
structure Flash where
  slotA : FwSlot
  slotB : FwSlot
  bootSeq : Nat
  bootSlot : Bool
  ucode0 : FlashCopy
  ucode1 : FlashCopy
  cfg0 : FlashCopy
  cfg1 : FlashCopy
  cfgInUse : Bool
  deriving DecidableEq, Repr

/-- The fuses of R318, R322 and R375. -/
structure Fuses where
  /-- The identity seed, and its lock against reading (R318). -/
  seed : BitVec 256
  seedLocked : Bool
  owner : Option (BitVec 256)
  minFw : BitVec 32
  minUcode : BitVec 32
  deriving DecidableEq, Repr

/-- A change of power mode under R20 and R423. -/
inductive PwrChange where
  /-- no change under way -/
  | none
  /-- the regulator rises before the write is staged -/
  | rising (mode : BitVec 2)
  /-- the write stands in the CLK staging queue -/
  | staged (mode : BitVec 2)
  /-- the clock has moved and the regulator falls -/
  | falling
  deriving DecidableEq, Repr

/-- The device as a whole: its state, its pins and supplies, start-up, flash and fuses. -/
structure Plat where
  dev : DevState
  cause : BitVec 2
  cfgReject : Bool
  image : Image
  train : Train
  resetLow : Bool
  lsEn : Bool
  thermAlert : Bool
  vddCore : Nat
  vbypOk : Bool
  pwr : PwrChange
  /-- FAULT was entered from BOOT (Table ARC-6). -/
  faultFromBoot : Bool
  /-- After a lockstep mismatch only the ROM monitor runs (R354). -/
  monitorOnly : Bool
  /-- DRAM stands in self-refresh. -/
  selfRefresh : Bool
  flash : Flash
  running : Bool
  handoverFailed : Bool
  fuses : Fuses
  /-- The Ed448 private key that the boot ROM has derived (R318), and the operator key measured at stage 3 with its
  digest (R320). -/
  idKey : BitVec 456
  opKey : BitVec 456
  keyDigest : BitVec 256
  endpoints : List Endpoint
  hosts : List (BitVec 128)
  deriving DecidableEq, Repr

/-- A PTP measurement under way (R304): the Sync in question, the master's time of its departure and the own time of
its arrival, once both are known, and the own time at which the Delay_Req left. -/
structure PtpMeas where
  seq : BitVec 16
  origin : Option Nat
  arrival : Nat
  request : Option Nat
  deriving DecidableEq, Repr

/-- Time and the frame tick (R16, R17, R390). -/
structure Clock where
  siteTime : Nat
  /-- The instant of the last tick, in the site time that the device has now. -/
  tickAt : Int
  /-- The measurement under way, and the number of the next Delay_Req. -/
  meas : Option PtpMeas
  delaySeq : Nat
  uptime : Nat
  /-- Ticks run. -/
  ticking : Bool
  freeRun : Bool
  /-- Phase error still to be slewed away, in ns. -/
  phaseErr : Int
  /-- The next tick is placed by R390, without slewing (R16, R411). -/
  realign : Bool
  /-- How far the actions of Table ARC-2 have gone at the present tick. -/
  order : Nat
  /-- One-millisecond power averages of the last second, newest first. -/
  power : List Nat
  deriving DecidableEq, Repr

/-- An entry of the lantern log (Table FLT-5). `good` says that its check passes. -/
structure LogEntry where
  cls : BitVec 8
  bootCount : Nat
  seq : Nat
  siteTime : Nat
  uptime : Nat
  source : BitVec 8
  cause : BitVec 8
  action : BitVec 8
  state : BitVec 8
  jobMask : BitVec 8
  flags : BitVec 8
  step0 : Word
  step1 : Word
  step2 : Word
  step3 : Word
  loc0 : Word
  loc1 : Word
  fltStatus : Word
  genState : Word
  detail : Bytes
  good : Bool
  deriving DecidableEq, Repr

/-- The lantern log MRAM (R364 to R368), the measurement M and its event log (R321). -/
structure Lantern where
  entries : List (Nat × LogEntry)
  newest : Nat
  seq : Nat
  writeFail : Nat
  present : Bool
  lost : Bool
  bootCount : Nat
  meas : BitVec 512
  events : List (BitVec 8 × Nat × BitVec 512)
  eventCount : Nat
  deriving DecidableEq, Repr

/-- A staged write (R370): the block it waits for, the register word it goes to, its bits and its
value. -/
structure Staged where
  block : Nat
  key : Nat
  lo : Nat
  hi : Nat
  value : Nat
  deriving DecidableEq, Repr

/-! ## Tiles -/

/-- What a context is doing (R110, R130 to R134, R126, R249). -/
inductive CtxRun where
  | idle
  | running
  | ended
  | wait (event : Nat) (value : BitVec 32)
  | fence (mask : BitVec 8)
  | sync (barrier : Nat)
  | cefence (epoch : Word)
  | scommit (sd : Nat)
  deriving DecidableEq, Repr

/-- A sequencer context (Table PRG-2). -/
structure Ctx where
  regs : Sparse Word
  index : Nat
  next : Nat
  run : CtxRun
  deriving DecidableEq, Repr

/-- A numeric exception not yet gathered at a tick (R69, R99): its kind, numbered as the ledger's
seven exception records, and the place of its occurrence. -/
structure Exc where
  kind : Nat
  frame : Nat
  tile : Nat
  index : Nat
  row : Nat
  array : Nat
  column : Nat
  deriving DecidableEq, Repr

/-- Conversion counts of one tensor (Table STP-9). `scaled` says that it met a scaled conversion
(R165). -/
structure Tensor where
  id : BitVec 32
  scaled : Bool
  sat : Nat
  zero : Nat
  flush : Nat
  nonzero : Nat
  nan : Nat
  deriving DecidableEq, Repr

/-- What an operation computed: bytes for the register file, exceptions, conversion counts, the
arrays with an invalid product, the non-finite flags of R145, and predicates to write with the bits
that change (R96). -/
structure Result where
  bytes : List (Nat × Byte)
  excs : List Exc
  tensors : List Tensor
  invProd : BitVec 8
  lossNf : Bool
  gradNf : Bool
  preds : List (Nat × BitVec 64 × BitVec 64)
  deriving DecidableEq, Repr

/-- Which read axis a matrix instruction uses (R33, R43). -/
inductive MmKind where
  | warp | weft | diag
  deriving DecidableEq, Repr

/-- A stationary block as the cells of an array hold it (R29 to R31): the format, whether it is block-scaled, the
elements as one number, element (i, j) in bits [(16i + j)w + w - 1 : (16i + j)w], and the scale bytes as one number. -/
structure Stat where
  fmt : BitVec 4
  mx : Bool
  block : Nat
  scales : Nat
  deriving DecidableEq, Repr

/-- A matrix instruction issued and not complete (R31, R40, R121). -/
structure MmOp where
  op : Nat
  ctx : Nat
  index : Nat
  kind : MmKind
  lay : LayMM
  xaddr : Nat
  /-- Register ranges read, first register and count: those loaded into the cells, and those streamed. -/
  srcs : List (Nat × Nat)
  streams : List (Nat × Nat)
  streaming : Bool
  /-- Bytes of a stream from the scratchpad read so far, one line for each access granted (R48, R52). -/
  fed : Bytes
  /-- Its last row has been read: the next stream has begun. -/
  ended : Bool
  /-- Stream time and completion delay in CLK_CORE cycles (R40). -/
  cycles : Nat
  result : Result
  deriving DecidableEq, Repr

/-- A vector instruction issued and not complete (R100, R101), with the descriptor and the scalar
values taken at issue. -/
structure VcOp where
  op : Nat
  ctx : Nat
  index : Nat
  lay : LayVC
  desc : BitVec 256
  k0 : Word
  k1 : Word
  tid : Word
  e0 : Word
  g : Word
  /-- The predicate taken at issue. -/
  mask : Word
  /-- Register ranges read, bits of the result stream, predicates written. -/
  srcs : List (Nat × Nat)
  dbits : Nat
  preds : List Nat
  streaming : Bool
  /-- Its last beat has been read: the next instruction has started. -/
  ended : Bool
  cycles : Nat
  result : Result
  deriving DecidableEq, Repr

/-- A load, store or descriptor load in flight (R129). -/
inductive LsKind where
  /-- LD: scratchpad address, register-file byte, length -/
  | ld (addr base len : Nat)
  /-- LDT: scratchpad address, pitch, register-file byte, row length in elements -/
  | ldt (addr : Nat) (pitch : Word) (base n : Nat)
  /-- ST, STC and STS: scratchpad address, the bytes captured at issue, and how many bits of them are
  written -/
  | st (addr : Nat) (data : Bytes) (nbits : Nat)
  /-- LDS: scratchpad address, size, sign extension, destination register -/
  | lds (addr size : Nat) (signed : Bool) (sd : Nat)
  /-- VDL: scratchpad address and slot -/
  | vdl (addr slot : Nat)
  deriving DecidableEq, Repr

/-- A load or store in flight, with its place in its context's order and the registers it holds
busy until completion. -/
structure LsOp where
  op : Nat
  ctx : Nat
  kind : LsKind
  /-- Scratchpad accesses granted so far, and the bytes that a load has read by them (R48). -/
  granted : Nat
  buf : Bytes
  /-- Registers an STC reads until completion: first register and count. -/
  holds : Nat × Nat
  tensors : List Tensor
  lossNf : Bool
  gradNf : Bool
  deriving DecidableEq, Repr

/-- The operands of a DIN or DOUT (R124, R193). -/
structure Dma where
  out : Bool
  spad : Word
  mem : Word
  len : Word
  mpitch : Word
  spitch : Word
  rows : Nat
  codec : Bool
  imem : Bool
  /-- Blocks that a codec DOUT queued with a HELD slot. -/
  blocks : Nat
  deriving DecidableEq, Repr

/-- The classes of asynchronous instructions (R110, Table PRG-9). -/
inductive AsyncKind where
  | dma (d : Dma)
  | put (cls : Nat)
  | get
  | launch
  | dclose (round : Word)
  deriving DecidableEq, Repr

/-- An asynchronous instruction in flight. -/
structure Async where
  id : Nat
  ctx : Nat
  index : Nat
  kind : AsyncKind
  event : Nat
  /-- Rows of a transfer that have moved, and the first failure met: rows wait while a device queue is
  full (R170). -/
  done : Nat
  status : Nat
  /-- Scratchpad accesses granted of the row that moves, and its bytes (R48, R442). -/
  part : Nat
  buf : Bytes
  deriving DecidableEq, Repr

/-- A logical tile (R23, R113 to R116). -/
structure Tile where
  vrf : Sparse Byte
  preds : Sparse Word
  descs : Sparse (BitVec 256)
  events : Sparse (BitVec 32)
  imem : Sparse Byte
  spad : Sparse Byte
  ctx0 : Ctx
  ctx1 : Ctx
  ctx2 : Ctx
  /-- The stationary registers of the arrays, live and shadow, by array (R31, R32). -/
  live : Sparse Stat
  shadow : Sparse (Option Stat)
  /-- The context that issued last, and those after it that have been found held since (R116). -/
  last : Nat
  passed : List Nat
  /-- The attempt that the frame serves, by the number of its ledger entry (R111). -/
  serves : Nat
  /-- The tile runs a frame. -/
  busy : Bool
  /-- A rejection has ended the tile's issuing (R128). -/
  rejected : Bool
  /-- Frames started in the present attempt (R112): the frame number is one less. -/
  frame : Nat
  held : Bool
  lastStart : Nat
  opNext : Nat
  mms : List MmOp
  vcs : List VcOp
  ls : List LsOp
  evadds : List (Nat × Nat × Nat × BitVec 32)
  asyncs : List Async
  excs : List Exc
  tensors : List Tensor
  /-- Exception bits not yet gathered at a tick, as TILE_EXC has them. -/
  excBits : BitVec 16
  /-- Completion events of lookups, appends and codec commands: tag and error flag (R104). -/
  done : List (BitVec 32 × Bool)
  /-- Append descriptors submitted in the attempt (Table MEM-9, seq). -/
  appends : Nat
  deriving DecidableEq, Repr

/-! ## Stack domains and memory -/

/-- A descriptor in a device queue (R170), with the tile, context and index of the DOUT that put it
there. -/
structure Desc where
  tile : Nat
  ctx : Nat
  index : Nat
  bytes : Bytes
  deriving DecidableEq, Repr

/-- A lookup gathered (R104): who asked, its completion tag, its status (0 done, 1 refused, 5 an
uncorrectable line), and the output rows. -/
structure Gather where
  who : Desc
  tag : BitVec 32
  status : Nat
  out : Nat
  rows : Bytes
  deriving DecidableEq, Repr

/-- An append descriptor whose entries have not all landed at their owners (R184). -/
structure Append where
  who : Desc
  tag : BitVec 32
  left : Nat
  failed : Bool
  deriving DecidableEq, Repr

/-- A raw block that waits at a channel's encoder (R194): the physical channel, numbered 66q + c, the transfer that brought
it, its job, slot and compression mode, and where its compressed block goes. -/
structure EncBlock where
  chan : Nat
  tile : Nat
  async : Nat
  job : Nat
  slot : Nat
  mode : Nat
  addr : Nat
  raw : Bytes
  deriving DecidableEq, Repr

/-- The live repair of one stack (R178 to R181). The state stands in MEM_REPAIR_STATUS. -/
structure Repair where
  chan : Nat
  spare : Nat
  pending : List Nat
  /-- Repairs that ended FAILED, by logical channel (R352). -/
  failures : List Nat
  /-- A repair that a TEST_CHANNEL op started (R379). -/
  test : Bool
  /-- A change of bond rate cancelled the repair; firmware restarts it after the retrain (R181). -/
  again : Bool
  /-- The instant of the last tick before SWITCH_WAIT (R180). -/
  since : Int
  /-- Logical channels that met a condition of R176 while the stack was under repair. -/
  wanted : List Nat
  deriving DecidableEq, Repr

/-- Thermal bookkeeping of one stack: consecutive cool samples below each threshold (R173, R174). -/
structure Cool where
  c85 : Nat
  c95 : Nat
  c105 : Nat
  deriving DecidableEq, Repr

/-- A stack domain: queues, engines, repair, microcode. -/
structure Domain where
  lookupQ : List Desc
  appendQ : List Desc
  codecQ : List Desc
  /-- The queues in front of the encoders (R194). -/
  encQ : List EncBlock
  /-- Lookups gathered and not yet signalled, and appends whose entries have not all landed. -/
  lookups : List Gather
  appends : List Append
  repair : Repair
  cool : Cool
  ucodeActive : Bool
  ucode0 : FlashCopy
  ucode1 : FlashCopy
  /-- A swap scheduled: with the step value and the step at the request for a domain whose job runs. -/
  ucodeSwap : Option (Option (BitVec 16 × Nat))
  deriving DecidableEq, Repr

/-- Physical units out of use: failed and under test, by physical number (R377 to R379). Channels are
numbered 66q + c. -/
structure Spares where
  badTiles : List Nat
  testTiles : List Nat
  badChans : List Nat
  testChans : List Nat
  lanes : List (Nat × Nat)
  rotStop : List Nat
  deriving DecidableEq, Repr

/-! ## Jobs -/

/-- The phases of Table STP-2. -/
inductive Phase where
  | stopped | opened | voting | committing | aborting | repairing
  deriving DecidableEq, Repr

/-- An exception record under construction (Table STP-8): its count and its first occurrence. -/
structure ExcRec where
  count : Nat
  first : Option Exc
  deriving DecidableEq, Repr

/-- What the ledger entry of the open attempt will hold (Table STP-7). -/
structure Ledger where
  tOpen : Nat
  tVote : Nat
  normSq : BitVec 64
  overruns : Nat
  glogAppended : Nat
  contributors : BitVec 256
  exclusions : List (Nat × Nat)
  buckets : Nat
  memUe : Nat
  memUeAddr : Nat
  excs : Sparse ExcRec
  tensors : List Tensor
  mismatches : Nat
  flags : BitVec 8
  deriving DecidableEq, Repr

/-- The running attempt of a job (R141 to R149). -/
structure Attempt where
  dcloses : List Nat
  /-- The lowest abort reason raised, its program reason and its origin (R148). -/
  reason : Option (BitVec 8 × BitVec 8 × BitVec 22)
  voted : Bool
  votes : List Report
  /-- The combined vote record has been sent on. -/
  sent : Bool
  decisions : List (Nat × Nat × Decision)
  decided : Nat
  /-- Decisions this device has issued as coordinator, a loss it gathers APPLIED reports for, and the
  reports. -/
  issued : Nat
  gathering : Bool
  applied : List Report
  lossNf : Bool
  gradNf : Bool
  normPart : BitVec 64
  /-- Damaged replicated ranges to be repaired from a peer (R149): line addresses. -/
  damage : List Nat
  /-- The rejections of the attempt before, and of this one: tile, index and code (R350). -/
  lastReject : List (Nat × Nat × Nat)
  newReject : List (Nat × Nat × Nat)
  epoch : BitVec 32
  /-- The attempt is armed, and where its new region table stands (R247). -/
  armed : Bool
  table : Nat
  /-- JOB_STOP with mode 0: the job stops when the open attempt ends. -/
  stopNext : Bool
  /-- JOB_STOP with mode 1: the job stops after its next commit, however many attempts that takes. -/
  stopCommit : Bool
  rejoinDue : Bool
  commitHeld : Bool
  started : Bool
  /-- The abort was raised by an injected fault (R355). -/
  injected : Bool
  /-- A job fault ended the attempt: the job stops once it has drained (Table STP-2). -/
  fault : Bool
  /-- The attempt aborts for a replacement under R162, on this device or on another. -/
  replace : Bool
  /-- Groups whose exclusion this device has decided and not yet applied (R242). -/
  excluding : List Nat
  deriving DecidableEq, Repr

/-- Write digests and comparisons (R159 to R162). Lines written are kept as counts by region. -/
structure Digests where
  acc : Sparse (BitVec 256)
  lines : Sparse Nat
  kept : Sparse (BitVec 256)
  peers : List (Nat × Nat × BitVec 256)
  open_ : List Nat
  replacing : List Nat
  /-- Own copies found divergent in the open attempt: region, and whether the memory diverged rather than the
  computation (Table STP-5). -/
  kinds : List (Nat × Bool)
  deriving DecidableEq, Repr

/-- The states of a codebook slot (R191). -/
inductive SlotState where
  | free | building | held | closing
  deriving DecidableEq, Repr

/-- A codebook slot. -/
structure CodeSlot where
  st : SlotState
  gen : Nat
  queued : Nat
  stored : Nat
  persist : Bool
  fp16 : Bool
  entries : List (BitVec 16)
  /-- The BUILD command, its stack domain and its status so far. -/
  cmd : Desc
  dom : Nat
  status : Nat
  deriving DecidableEq, Repr

/-- How far a collective has come (R227, R235, R239, R246): launched, exchanging, reduced, its result
written and its seal due, done. -/
inductive CollPhase where
  | waiting | inFlight | reduced | sealing | done
  deriving DecidableEq, Repr

/-- A collective of a job (R224 to R240). -/
structure Coll where
  cid : BitVec 32
  tile : Nat
  async : Nat
  op : BitVec 2
  fmt : BitVec 4
  dims : BitVec 4
  src : Nat
  dst : Nat
  len : Nat
  root : BitVec 12
  bucket : Bool
  bucketNo : Nat
  epoch : BitVec 32
  step : Word
  attempt : Nat
  phase : CollPhase
  run : Nat
  err : Bool
  /-- Its SEAL report has gone on, or its seal has been decided here. -/
  reported : Bool
  /-- Devices whose READY has come, once for each, and the ring neighbours of each run begun here (R235, R243). -/
  readies : List Nat
  asked : List Nat
  /-- Chunks accepted: dimension, gather, minus, part, chunk. -/
  seen : List (Nat × Bool × Bool × Nat × Nat)
  /-- Chunks due to a neighbour whose READY has not come. -/
  due : List ColPacket
  /-- Chunks accepted whose phase has not begun here, with their parts. -/
  inbox : List (Nat × ColPacket)
  /-- The device's working values, element by element, in the wire format of the phase. -/
  work : List (BitVec 64)
  /-- The rings still to run: dimension and gather flag, the present one first. -/
  rings : List (Nat × Bool)
  norm : BitVec 64
  nonFinite : Bool
  deriving DecidableEq, Repr

/-- The gradient log (R183 to R186). -/
structure GEntry where
  step : Word
  table : Nat
  row : Word
  origin : BitVec 22
  tile : Nat
  seq : Nat
  position : Nat
  grad : Bytes
  committed : Bool
  /-- Applied and written back; it leaves the ring once every entry before it has (R185). -/
  done : Bool
  deriving DecidableEq, Repr

/-- A row whose entries of one step have been applied and not yet written back (R185, R186): the weights
and the accumulator to be written. -/
structure RowApply where
  step : Nat
  table : Nat
  row : Nat
  w : List (BitVec 32)
  acc : BitVec 32
  deriving DecidableEq, Repr

/-- A partner path (R274 to R276): the window of samples, newest first, each with its sequence number and
delay in ns; the estimate reported; and the number of the next HEART to send. -/
structure Path where
  samples : List (Nat × Nat)
  estimate : Nat
  silent : Bool
  seq : Nat
  deriving DecidableEq, Repr

/-- A table of a sending stream (R294). -/
structure TxTable where
  body : TableBody
  acked : Bool
  retiring : Bool
  deriving DecidableEq, Repr

/-- A table of a receiving stream (R295). `asked` says that a retire has come and waits for its acknowledgement. -/
structure RxTable where
  body : TableBody
  retired : Bool
  asked : Bool
  deriving DecidableEq, Repr

/-- A partner of the shards: the stream to and from one device (R256, R274, R279, R294, R295, R299). Blocks wait in
canonical form in `backlog` for room in the send queue `sendQ` and there for an encoder lane, coded in `coded` for the
blocks before them, released in `outQ`, and as sent in `unacked`. -/
structure Peer where
  dev : BitVec 32
  page : Nat
  primary : Path
  secondary : Path
  /-- The secondary path is active. -/
  second : Bool
  backlog : List Block
  sendQ : List Block
  coded : List Block
  outQ : List Block
  unacked : List Block
  txTables : List TxTable
  rxTables : List RxTable
  /-- Blocks received and not yet acknowledged: shard, round, block. -/
  ackDue : List (BitVec 32 × BitVec 64 × BitVec 32)
  /-- Blocks asked for by NACK and not yet received: shard, round, block. -/
  gaps : List (BitVec 32 × BitVec 64 × BitVec 32)
  /-- Blocks refused by a full store: shard, round, block (R279). -/
  refused : List (BitVec 32 × BitVec 64 × BitVec 32)
  deriving DecidableEq, Repr

/-- The stages of Table DXR-2. -/
inductive Stage where
  | none | sending | collecting | receipted | computing | sealed | ready
  deriving DecidableEq, Repr

/-- One open round at this site (R260). -/
structure Round where
  number : Nat
  stage : Stage
  manifest : Option ManifestBody
  acceptedAt : Nat
  /-- The site's anchor digest of the round's next anchor. -/
  ownDigest : Option (BitVec 256)
  /-- The site has countersigned the manifest accepted. -/
  signed : Bool
  signs : List CountersignBody
  receipts : List ReceiptBody
  absents : List ReceiptBody
  joins : List (BitVec 16)
  /-- Shard digests of the next anchor that other devices of the site have verified (R264). -/
  digests : List (BitVec 32 × BitVec 256)
  /-- What every other exchange device of the site reports complete at its cut-off (R260). -/
  reports : List (List (BitVec 16 × BitVec 64))
  sealedDigest : Option (BitVec 256)
  cut : Bool
  receiptSent : Bool
  /-- Issuers that this site has declared absent (R267). -/
  declared : List (BitVec 16)
  /-- A manifest that waits for a re-fetch of its base (R266). -/
  waiting : Option ManifestBody
  /-- Held shards whose next copies stand verified. -/
  copies : List (BitVec 32)
  deriving DecidableEq, Repr

/-- The delta exchange engine's state for one job (R252 to R283). Federated elements are numbered
shard by shard in the order of the shard table. -/
structure Dxe where
  active : Bool
  /-- Shard number, region and element offset. -/
  shards : List (BitVec 32 × Nat × Nat)
  shardElems : Nat
  /-- Members that count toward a majority. -/
  members : List (BitVec 16)
  /-- The partner device of a shard at a site (R256). -/
  partners : List (BitVec 32 × BitVec 16 × BitVec 32)
  anchor : Sparse (BitVec 32)
  anchorNext : Sparse (BitVec 32)
  mom : Sparse (BitVec 32)
  momNext : Sparse (BitVec 32)
  resid : Sparse (BitVec 32)
  /-- The anchor digest of the live anchor (R264). -/
  liveDigest : BitVec 256
  /-- Own outstanding contributions: round and blocks. -/
  own : List (Nat × List Block)
  /-- The receive store: partner device and block. -/
  store : List (BitVec 32 × Block)
  /-- Identities accepted from a site (R278): site, shard, round, block. -/
  accepted : List (BitVec 16 × BitVec 32 × BitVec 64 × BitVec 32)
  peers : List Peer
  /-- Open rounds, ascending. -/
  rounds : List Round
  /-- The last 16 sealed bundles: round and manifest. -/
  bundles : List (Nat × ManifestBody × BitVec 256)
  /-- The countersignatures of the sealed bundles. -/
  bundleSigns : List (Nat × List CountersignBody)
  /-- Contributions settled by sealed manifests: site and round. -/
  settled : List (BitVec 16 × Nat)
  sealedNext : Nat
  /-- Rounds installed. -/
  installed : Nat
  /-- A re-fetch under way: the site asked, and whether the base of a waiting manifest is fetched (R266,
  R271). -/
  refetch : Option (BitVec 16 × Bool)
  /-- What has come of a fetch: A and M by shard, the round of the anchor, and a sealed bundle (R271, R281, R313). -/
  gotShards : List (BitVec 32 × List (BitVec 32) × List (BitVec 32))
  gotRound : Nat
  gotBundle : Option (ManifestBody × List CountersignBody)
  /-- The next copies came by a re-fetch that skips rounds (R273). -/
  skipTo : Option Nat
  /-- The last round closed here. -/
  closed : Option Nat
  /-- The groups contributing at the latest close, ascending (R255). -/
  closeGroups : List Nat
  liveReading : Bool
  /-- Members' runs of absence in sealed manifests. -/
  absentRuns : List (BitVec 16 × Nat)
  /-- The site joins a running job: the site asked for the latest bundle (R281). -/
  joining : Option (BitVec 16)
  deriving DecidableEq, Repr

/-- A job (R13, R312). -/
structure Job where
  mask : BitVec 4
  tag : BitVec 16
  origin : Quad
  extent : Quad
  fedJob : BitVec 32
  running : Bool
  phase : Phase
  attemptNo : Nat
  ledgerSeq : Nat
  att : Attempt
  led : Ledger
  dig : Digests
  barriers : Sparse (Nat × Nat)
  slots : Sparse CodeSlot
  counters : Sparse Word
  colls : List Coll
  bucketNext : Nat
  sealedNext : Nat
  /-- SEAL reports received: bucket and sender. -/
  sealReports : List (Nat × Nat)
  /-- READYs that came before the collective started here. -/
  readyEarly : List (ColPacket × ReadyBody)
  excludedGroups : List Nat
  lostDevs : List Nat
  /-- Divisors decided with exclusions: first bucket and divisor. -/
  divisors : List (Nat × Nat)
  dxe : Dxe
  glog : List GEntry
  applying : List RowApply
  /-- The step whose entries are being applied, with the table descriptors read when it began (R185). -/
  gTables : Option (Nat × List (Nat × Bytes))
  /-- Bytes that have left the log's ring at its head. -/
  gHead : Nat
  /-- Class-1 reasons entered in the lantern log at the present step (R367). -/
  logged : List Nat
  /-- The job is held for an installation act (R258). -/
  holdAct : Bool
  /-- Devices that have asked for their group's rejoin, and groups whose rejoin the last commit decided (R359). -/
  rejoinAsked : List Nat
  rejoining : List Nat
  /-- Replacements under R162 are not all complete. -/
  waitAll : Bool
  /-- Reports and decisions of a later attempt than the present one (R239). -/
  early : List Instr
  deriving DecidableEq, Repr

/-! ## Fabric -/

/-- The link states of Table FAB-9. -/
inductive LinkSt where
  | disabled | down | train | ident | up | quarantine
  deriving DecidableEq, Repr

/-- A fabric port (R196 to R223). -/
structure Port where
  st : LinkSt
  /-- The hold of 100 ms after failed training (Table FAB-9). -/
  lightHold : Bool
  /-- Physical lanes with light and lock. -/
  light : BitVec 5
  ownNonce : BitVec 128
  peerNonce : Option (BitVec 128)
  accepted : Bool
  peerAccepts : Bool
  /-- Devices that a bypassed link skips (R218). -/
  skips : List Nat
  /-- The next sequence numbers to send and to expect (R199). -/
  txSeq : BitVec 32
  rxSeq : BitVec 32
  retry : List (BitVec 32 × BitVec 8 × Packet)
  /-- Frames that wait for credit or for room in the retry buffer, with the port and virtual channel whose
  receive buffer a transit packet still holds. -/
  waitQ : List (BitVec 8 × Packet × Option (Nat × BitVec 8))
  replays : Nat
  /-- Credit units taken by virtual channel, and the units of the shared part of the far buffer (R200). -/
  credits : Sparse Nat
  shared : Nat
  /-- Physical lanes under PRBS31 test, by direction (R380). -/
  testTx : Option Nat
  testRx : Option Nat
  /-- The flows that wait, by job and collective, the one served last first (R14, R227). -/
  served : List (BitVec 16 × BitVec 32)
  deriving DecidableEq, Repr

/-- A transfer that this device sources (R206 to R211). -/
structure Xfer where
  id : Nat
  job : Nat
  tile : Nat
  async : Nat
  event : Nat
  log : Bool
  get : Bool
  cls : Nat
  seq : Nat
  dst : BitVec 12
  dstAddr : Word
  srcAddr : Word
  len : Nat
  notify : Option (BitVec 10 × BitVec 5)
  data : Bytes
  got : List Nat
  resend : Bool
  fullWait : Bool
  /-- The first failure met here: an uncorrectable line of its source or destination, or a refused write. -/
  status : Nat
  /-- For a log entry: the stack domain and tag of its append. -/
  dom : Nat
  tag : BitVec 32
  deriving DecidableEq, Repr

/-- A stream this device is the target of (R210, R211): source, job, class, next expected number, packets of
the present transfer received, transfers answered RESEND, and the packets of the present transfer. -/
structure Stream where
  src : BitVec 12
  job : Nat
  cls : Nat
  expect : BitVec 32
  got : List Nat
  resent : List (BitVec 32)
  parts : List Packet
  deriving DecidableEq, Repr

/-- The router and the transfer tracking. -/
structure Router where
  /-- The latest announcement applied, by device and port: time and down. -/
  news : List (Nat × Nat × Nat × Bool)
  xfers : List Xfer
  xferNext : Nat
  /-- Next stream_seq by job and class. -/
  seqs : List (Nat × Nat × Nat)
  streams : List Stream
  deriving DecidableEq, Repr

/-! ## Host port and security -/

/-- A response to a CTRL request: status of Table HST-5 and result bytes. -/
structure Resp where
  status : BitVec 8
  data : Bytes
  deriving DecidableEq, Repr

/-- A notice (R317). -/
structure Notice where
  number : Nat
  code : Nat
  job : BitVec 8
  time : Nat
  arg : Word
  deriving DecidableEq, Repr

/-- A CTRL session (R306, R309, R310, R317). `path` is where its last request came from. -/
structure Session where
  id : BitVec 32
  host : BitVec 128
  path : NetPath
  last : Nat
  /-- The responses kept: request number, op and response. -/
  kept : List (Nat × Nat × Resp)
  held : List (Nat × Instr)
  busy : Option Nat
  mask : BitVec 32
  noticeNext : Nat
  notices : List Notice
  dropped : Nat
  deriving DecidableEq, Repr

/-- A DATA datagram of a segment that is not complete: segment, offset in the transfer, data, and for the segment's
last datagram whether its tag verifies (R314). -/
structure Piece where
  seg : Nat
  offset : Nat
  data : Bytes
  tag : Option Bool
  deriving DecidableEq, Repr

/-- A REQUEST that waits for its object (R313): the device asked, object kind, round, first shard and shard count. -/
structure Request where
  peer : BitVec 32
  obj : Nat
  round : Nat
  first : Nat
  count : Nat
  deriving DecidableEq, Repr

/-- A BULK transfer (R313 to R315). -/
structure Bulk where
  id : Nat
  inbound : Bool
  session : BitVec 32
  page : Nat
  addr : Nat
  len : Nat
  udp : BitVec 16
  doneSegs : List Nat
  pieces : List Piece
  host : Bool
  unacked : List Nat
  /-- The bytes of a named object, sent to a device or as far as it has come from one (R313). -/
  body : Bytes
  peer : BitVec 32
  /-- The REQUEST that an object from a device answers. -/
  req : Option Request
  deriving DecidableEq, Repr

/-- A MANIFEST-class message in fragments (R308): sent, with the fragments not acknowledged, or received, with the number of
its fragments and those that have come. A message is complete when none is missing. -/
structure Fragments where
  peer : BitVec 32
  msg : BitVec 64
  outbound : Bool
  waiting : List Nat
  count : Nat
  parts : List (Nat × Bytes)
  deriving DecidableEq, Repr

/-- The host port. -/
structure HostPort where
  /-- Neighbours whose link addresses are known (R302). -/
  neighbours : List (BitVec 128)
  /-- REQUESTs sent whose objects have not come. -/
  requests : List Request
  sessions : List (Nat × Session)
  sessionNext : Nat
  bulks : List Bulk
  bulkNext : Nat
  frags : List Fragments
  msgNext : Nat
  /-- JOB_STOP requests that wait for their job: session, request number and job. -/
  pendingStop : List (BitVec 32 × Nat × Nat)
  deriving DecidableEq, Repr

/-- A direction's key epochs (R327, R333 to R335): the current one, the previous one while held, the next sequence number
(2 ^ 32 when they are spent), the uptime since which the current one has been current, whether an advance waits for the
release of the previous one, the chain value of the newest epoch, and key and salt of each epoch held. -/
structure Epochs where
  current : Nat
  previous : Option Nat
  seq : Nat
  since : Nat
  wantNext : Bool
  chain : BitVec 512
  key : BitVec 256 × BitVec 32
  keyBefore : Option (BitVec 256 × BitVec 32)
  deriving DecidableEq, Repr

/-- An association (R324): kind, page, peer, its identity and its key epochs. -/
structure Assoc where
  kind : BitVec 8
  page : Nat
  slot : Nat
  peer : BitVec 32
  serial : BitVec 128
  pubkey : BitVec 456
  tx : Epochs
  rx : Epochs
  /-- One more than the body's seq of the last HEART accepted on the primary and on the secondary path (R337). -/
  heart1 : Nat
  heart2 : Nat
  deriving DecidableEq, Repr

/-- A half-open handshake (R325 to R328): as initiator or responder, with the private half of its ephemeral, its INIT, and the
RESP received or sent with its quote. -/
structure Shake where
  initiator : Bool
  peer : BitVec 32
  attempts : Nat
  secret : BitVec 448
  init : InitBody
  resp : Option (RespBody × Bytes)
  deriving DecidableEq, Repr

/-- A message in a cipher engine pair (R330, R342): urgent or not, the job it belongs to (4 for the host), its bytes, and the
counter of 16-byte blocks that it stands at, on which its GHASH state depends too. -/
structure EngineMsg where
  urgent : Bool
  job : Nat
  len : Nat
  counter : Nat
  deriving DecidableEq, Repr

/-- A cipher engine pair (R341, R342): the message in progress, the one suspended, those that wait, and the jobs in the order
in which they were served last. -/
structure Pair where
  current : Option EngineMsg
  suspended : Option EngineMsg
  waiting : List EngineMsg
  served : List Nat
  deriving DecidableEq, Repr

/-- Associations, half-open handshakes, the mismatches of the cipher engine pairs within the last second, as pair and uptime,
and the pairs (R324 to R342). -/
structure Sec where
  assocs : List Assoc
  shakes : List Shake
  recent : List (Nat × Nat)
  pairs : Sparse Pair
  deriving DecidableEq, Repr

/-! ## Service -/

/-- A tile remap under way (R377). -/
structure Remap where
  tile : Nat
  spare : Nat
  /-- The tick at which its state was copied. -/
  copied : Option Nat
  byOp : Bool
  deriving DecidableEq, Repr

/-- A fault of class 2 or 3 raised in the pause of a handover, contained once the new firmware resumes
(R374): the jobs concerned and the fields of its lantern entry. -/
structure Latched where
  cls : Nat
  jobs : List Nat
  source : Nat
  cause : Nat
  loc0 : Nat
  loc1 : Nat
  inj : Bool
  deriving DecidableEq, Repr

/-- Service: the running update op, handover, remaps, freeze and scan (chapter 15). -/
structure Svc where
  op : Nat
  remaps : List Remap
  /-- An op of SVC_BIST_CTRL runs. -/
  bistBusy : Bool
  /-- Spare channels under march test, as 66q + c (R379). -/
  march : List Nat
  /-- A handover under way: it waits for a quiet point, or its new firmware has started in a slot (0 A, 1 B) and
  has not confirmed. -/
  handover : Option (Option Nat)
  /-- Messages whose decisions wait for the new firmware (R374). -/
  waiting : List Instr
  parity : List (Nat × Nat)
  wedged : List Nat
  stalled : List (Nat × Bool)
  shifts : Sparse Nat
  stopCycles : BitVec 16
  freezeBit : Bool
  latched : List Latched
  paused : Bool
  deriving DecidableEq, Repr

/-! ## Outputs -/

/-- The head of a datagram that leaves the host port: where it goes (R306), its DSCP, and the Ubtik header (Table HST-2),
whose version is 1; `nonce` is the nonce that a tagged message is sealed under (R329, R330), `trailer` the tag of a handshake
datagram (R325). -/
structure Head where
  path : NetPath
  dscp : Nat
  cls : Nat
  flags : Nat
  page : Nat
  context : BitVec 32
  src : BitVec 32
  dst : BitVec 32
  keyEpoch : Nat
  length : Nat
  seq : Nat
  msg : BitVec 64
  nonce : Option (BitVec 96)
  trailer : Option (BitVec 128)
  deriving DecidableEq, Repr

/-- What leaves the block, in the order it leaves. A Ubtik datagram leaves as `udp`, with its head. -/
inductive Output where
  | udp (h : Head) (o : Output)
  | solicit (target : BitVec 128)
  | pin (name : Nat) (high : Bool)
  | response (session : BitVec 32) (msg : BitVec 64) (op : Nat) (r : Resp)
  | notice (session : BitVec 32) (n : Notice)
  | packet (k : Packet)
  | frame (port : Nat) (h : LinkHead) (b : FrameBody)
  | blocks (peer : BitVec 32) (bs : List Block)
  | table (peer : BitVec 32) (t : TableBody)
  | heart (peer : BitVec 32) (h : HeartBody)
  | ack (peer : BitVec 32) (nack : Bool) (b : AckBody)
  | rowWrite (addr : Word) (data : Bytes)
  | bulkRequest (peer : BitVec 32) (obj round first count : Nat)
  | bulk (xfer segment offset : Nat) (data : Bytes) (last : Bool)
  | resp (dst : BitVec 32) (b : RespBody) (quote : Bytes)
  | init (peer : BitVec 32) (b : InitBody)
  | fin (dst : BitVec 32) (b : FinBody)
  | finAck (peer : BitVec 32)
  | log (events : List (BitVec 8 × Nat × BitVec 512))
  | digest (job group region : Nat) (d : BitVec 256)
  | nextCopy (job : Nat) (group : Nat) (shard : BitVec 32) (a m : List (BitVec 32)) (d : BitVec 256)
  | refetchCopy (job : Nat) (shard : BitVec 32)
  | complete (job : Nat) (round : Nat) (entries : List (BitVec 16 × BitVec 64))
  | fragment (peer : BitVec 32) (msg : BitVec 64) (index count : Nat) (data : Bytes)
  | delayReq (seq : BitVec 16)
  | neighbour (dst : BitVec 128)
  | echo (dst : BitVec 128) (data : Bytes)
  | vddCore (mv : Nat)
  | scan (bits : Nat)
  deriving DecidableEq, Repr

/-! ## The state -/

/-- The state of the block. -/
structure State where
  pending : List Instr
  regs : Sparse Word
  staged : List Staged
  plat : Plat
  clock : Clock
  lantern : Lantern
  dram : Sparse Byte
  ue : List Nat
  tiles : Sparse Tile
  domains : Sparse Domain
  spares : Spares
  jobs : Sparse Job
  ports : Sparse Port
  router : Router
  host : HostPort
  sec : Sec
  svc : Svc
  coolLogic : Nat
  /-- The encoder lanes of the DXE (R299): job, partner and block. -/
  lanes : List (Nat × BitVec 32 × Block)
  /-- By shared block, the jobs in the order in which they were served last (R14). -/
  turns : Sparse (List Nat)
  /-- Tagged datagrams of DELTA, TABLE and BULK as they were sent, message by message, while their epoch is held: page and number
  of the association, then the datagrams (R336). -/
  kept : List (Nat × Nat × List (Head × Output))
  out : List Output
  free : Nat
  deriving DecidableEq, Repr

/-! ## After reset

Register words are at their reset values when `regs` lists nothing (R407, R409). Contents that the
spec leaves undefined until TRAIN (R363) are zero here, which is what R389 makes them: log entries 3
and 5. Flash, fuses, lantern log and serial are those of a device as shipped: log entry 6. -/

def Image.reset : Image :=
  { valid := true, device := 0, topology := 0, tick := 0, power := 0, hostNet := 0, hostList := 0,
    ports := [], endpoints := [], hosts := [] }

def Train.reset : Train :=
  { stacksUp := 0, tilesDone := false, hostWaived := false, opticalDone := false,
    linkWaitOver := false, kat := 0, retrain := none }

def FwSlot.shipped (valid : Bool) : FwSlot :=
  { valid := valid, version := 0, secVersion := 0, recWrite := 0, recMin := 0, recMax := 0,
    digest := 0 }

def FlashCopy.shipped (valid : Bool) : FlashCopy :=
  { valid := valid, version := 0, secVersion := 0, digest := 0 }

def Flash.shipped : Flash :=
  { slotA := FwSlot.shipped true, slotB := FwSlot.shipped false, bootSeq := 0, bootSlot := false,
    ucode0 := FlashCopy.shipped true, ucode1 := FlashCopy.shipped false,
    cfg0 := FlashCopy.shipped true, cfg1 := FlashCopy.shipped false, cfgInUse := false }

def Plat.reset : Plat :=
  { dev := .reset, cause := 0, cfgReject := false, image := Image.reset, train := Train.reset,
    resetLow := true, lsEn := false, thermAlert := false, vddCore := 780, vbypOk := true,
    pwr := .none, faultFromBoot := false, monitorOnly := false, selfRefresh := false,
    flash := Flash.shipped, running := false, handoverFailed := false,
    fuses := { seed := Config.seed, seedLocked := false, owner := none, minFw := 0, minUcode := 0 }, idKey := 0, opKey := 0, keyDigest := 0, endpoints := [],
    hosts := [] }

def Clock.reset : Clock :=
  { siteTime := 0, tickAt := 0, meas := none, delaySeq := 0, uptime := 0, ticking := false, freeRun := false, phaseErr := 0, realign := false, order := 0,
    power := [] }

def Lantern.reset : Lantern :=
  { entries := [], newest := 0, seq := 0, writeFail := 0, present := true, lost := false,
    bootCount := 0, meas := 0, events := [], eventCount := 0 }

def Ctx.reset : Ctx := { regs := [], index := 0, next := 0, run := .idle }

def Stat.reset : Stat := { fmt := 0, mx := false, block := 0, scales := 0 }

def Tile.reset : Tile :=
  { vrf := [], preds := [], descs := [], events := [], imem := [], spad := [],
    ctx0 := Ctx.reset, ctx1 := Ctx.reset, ctx2 := Ctx.reset, live := [], shadow := [], last := 2, passed := [],
    serves := 0, busy := false,
    rejected := false, frame := 0, held := false, lastStart := 0, opNext := 0, mms := [],
    vcs := [], ls := [], evadds := [], asyncs := [], excs := [], tensors := [], excBits := 0,
    done := [], appends := 0 }

def Repair.reset : Repair := { chan := 0, spare := 0, pending := [], failures := [], test := false, again := false, since := 0, wanted := [] }

def Cool.reset : Cool := { c85 := 0, c95 := 0, c105 := 0 }

def Domain.reset : Domain :=
  { lookupQ := [], appendQ := [], codecQ := [], encQ := [], lookups := [], appends := [], repair := Repair.reset,
    cool := Cool.reset, ucodeActive := false, ucode0 := FlashCopy.shipped false,
    ucode1 := FlashCopy.shipped false, ucodeSwap := none }

def Spares.reset : Spares :=
  { badTiles := [], testTiles := [], badChans := [], testChans := [], lanes := [], rotStop := [] }

def Ledger.reset : Ledger :=
  { tOpen := 0, tVote := 0, normSq := 0, overruns := 0, glogAppended := 0, contributors := 0,
    exclusions := [], buckets := 0, memUe := 0, memUeAddr := 0, excs := [], tensors := [],
    mismatches := 0, flags := 0 }

def Attempt.reset : Attempt :=
  { dcloses := [], reason := none, voted := false, votes := [], sent := false,
    decisions := [], decided := 0, issued := 0, gathering := false, applied := [], lossNf := false, gradNf := false, normPart := 0, damage := [],
    lastReject := [], newReject := [], epoch := 0, armed := false, table := 0, stopNext := false, stopCommit := false,
    rejoinDue := false, commitHeld := false, started := false,
    injected := false, fault := false, replace := false, excluding := [] }

def Digests.reset : Digests :=
  { acc := [], lines := [], kept := [], peers := [], open_ := [], replacing := [], kinds := [] }

def CodeSlot.reset : CodeSlot :=
  { st := .free, gen := 0, queued := 0, stored := 0, persist := false, fp16 := false, entries := [],
    cmd := ⟨0, 0, 0, []⟩, dom := 0, status := 0 }

def Dxe.reset : Dxe :=
  { active := false, shards := [], shardElems := 0, members := [], partners := [], anchor := [],
    anchorNext := [], mom := [], momNext := [], resid := [], liveDigest := 0, own := [], store := [], accepted := [], peers := [],
    rounds := [], bundles := [], bundleSigns := [], settled := [], sealedNext := 0, installed := 0, refetch := none,
    gotShards := [], gotRound := 0, gotBundle := none,
    skipTo := none, closed := none, closeGroups := [], liveReading := false, absentRuns := [], joining := none }

def Quad.zero : Quad := { x := 0, y := 0, z := 0, w := 0 }

def Job.reset : Job :=
  { mask := 0, tag := 0, origin := Quad.zero, extent := Quad.zero, fedJob := 0, running := false,
    phase := .stopped, attemptNo := 0, ledgerSeq := 0, att := Attempt.reset, led := Ledger.reset,
    dig := Digests.reset, barriers := [], slots := [], counters := [], colls := [],
    bucketNext := 0, sealedNext := 0, sealReports := [], readyEarly := [], excludedGroups := [], lostDevs := [],
    divisors := [], dxe := Dxe.reset, glog := [], applying := [], gTables := none,
    gHead := 0, logged := [], holdAct := false, rejoinAsked := [], rejoining := [], waitAll := false, early := [] }

def Port.reset : Port :=
  { st := .down, lightHold := false, light := 0, ownNonce := 0, peerNonce := none, accepted := false, peerAccepts := false,
    skips := [], txSeq := 0, rxSeq := 0, retry := [], waitQ := [], replays := 0, credits := [], shared := 0,
    testTx := none, testRx := none, served := [] }

def Router.reset : Router :=
  { news := [], xfers := [], xferNext := 0, seqs := [], streams := [] }

def HostPort.reset : HostPort :=
  { neighbours := [], requests := [], sessions := [], sessionNext := 0, bulks := [], bulkNext := 1, frags := [], msgNext := 1,
    pendingStop := [] }

def Pair.reset : Pair := { current := none, suspended := none, waiting := [], served := [] }

def Sec.reset : Sec := { assocs := [], shakes := [], recent := [], pairs := [] }

def Svc.reset : Svc :=
  { op := 0, remaps := [], bistBusy := false, march := [], handover := none, waiting := [], parity := [], wedged := [],
    stalled := [], shifts := [], stopCycles := 0, freezeBit := false, latched := [],
    paused := false }

/-- The block right after reset: GEN_STATE reads RESET (Table REG-2), nothing is listed anywhere. -/
def State.reset : State :=
  { pending := [], regs := [], staged := [], plat := Plat.reset, clock := Clock.reset,
    lantern := Lantern.reset, dram := [], ue := [], tiles := [], domains := [],
    spares := Spares.reset, jobs := [], ports := [], router := Router.reset,
    host := HostPort.reset, sec := Sec.reset, svc := Svc.reset, coolLogic := 0, lanes := [], turns := [], kept := [], out := [],
    free := 0 }

end Sys2Proof.Machine
end

