-- ==== Sys2Proof/Machine/Delta.lean ====
section
/-! DEFINITION. Delta coding: selection and quantisation, coded blocks in raw and Huffman form, tables, and
the decoder's checks (R284 to R298). -/
namespace Sys2Proof.Machine

/-! ## Selection and quantisation (R284, R285) -/

/-- What a group of 256 elements keeps: its scale code, and positions with value codes in ascending
position. -/
structure Kept where
  scale : Nat
  elems : List (Nat × Nat)
  deriving DecidableEq, Repr

/-- The format code of Table NUM-1 of a value format. -/
def deltaFmt (fp4 : Bool) : Nat := if fp4 then 0 else 3

/-- The positions of the k largest magnitudes, the lower position first among equals; ±0 is never kept. -/
def topPositions (k : Nat) (v : List Nat) : List Nat :=
  let live := (v.zipIdx.map (fun p => (p.1 % 2 ^ 31, p.2))).filter (fun p => decide (p.1 ≠ 0))
  (live.filter (fun p => decide ((live.filter (fun q => decide (p.1 < q.1) || (decide (p.1 = q.1) && decide (q.2 < p.2)))).length < k))).map (·.2)

/-- Select and quantise a group: what it keeps, and how many kept values rounded to zero. -/
def quantise (fp4 : Bool) (k : Nat) (v : List Nat) : Kept × Nat :=
  let c := deltaFmt fp4
  let pos := topPositions k v
  let sc := scaleCode c .block (maxFinite (pos.map (fun i => fp32 (v.getD i 0))))
  let all := pos.map (fun i => (i, (convert c .block ((sc : Int) - 127) .rne (fp32 (v.getD i 0))).code))
  let live := all.filter (fun p => !(decodeFmt c false p.2).isZero)
  ({ scale := sc, elems := live }, all.length - live.length)

/-- The FP32 code of a kept value: value × 2^(code − 127). -/
def keptValue (fp4 : Bool) (scale code : Nat) : Nat :=
  fmtFP32.rne ((decodeFmt (deltaFmt fp4) false code).scale ((scale : Int) - 127))

/-! ## Raw bodies (R287 to R289) -/

/-- Gaps of ascending positions. -/
def gapsOf : Option Nat → List Nat → List Nat
  | _, [] => []
  | none, p :: r => p :: gapsOf (some p) r
  | some q, p :: r => (p - q - 1) :: gapsOf (some p) r

/-- Positions from gaps. -/
def positionsOf : Option Nat → List Nat → List Nat
  | _, [] => []
  | none, g :: r => g :: positionsOf (some g) r
  | some q, g :: r => (q + g + 1) :: positionsOf (some (q + g + 1)) r

/-- Value codes as bytes: one each in E4M3, two to a byte in E2M1, the even-numbered in bits [7:4]. -/
def packValues (fp4 : Bool) : List Nat → Bytes
  | [] => []
  | [a] => [BitVec.ofNat 8 (if fp4 then a * 16 else a)]
  | a :: b :: r =>
    if fp4 then BitVec.ofNat 8 (a * 16 + b) :: packValues fp4 r
    else BitVec.ofNat 8 a :: packValues fp4 (b :: r)

/-- The raw record of a group. -/
def rawRecord (fp4 : Bool) (g : Kept) : Bytes :=
  toBE 2 g.elems.length ++
    (if g.elems.isEmpty then []
     else BitVec.ofNat 8 g.scale :: ((gapsOf none (g.elems.map (·.1))).map (BitVec.ofNat 8) ++ packValues fp4 (g.elems.map (·.2))))

/-- A raw block of consecutive groups. -/
def rawBlock (fp4 : Bool) (shard : BitVec 32) (round n first : Nat) (final : Bool) (gs : List Kept) : Block :=
  let body := gs.flatMap (rawRecord fp4)
  { raw := true, final := final, fp4 := fp4, tableId := 0, rsvZero := true, shard := shard, round := BitVec.ofNat 64 round,
    block := BitVec.ofNat 32 n, elemCount := BitVec.ofNat 16 ((gs.map (fun g => g.elems.length)).sum),
    groups := BitVec.ofNat 16 gs.length, firstGroup := BitVec.ofNat 32 first, codedLen := BitVec.ofNat 16 body.length, body := body }

/-- Pack the groups of a shard into blocks, greedily, each raw body at most 4,064 bytes (R287). `acc` holds
the groups of the block under construction. -/
def packBlocks (fp4 : Bool) (shard : BitVec 32) (round : Nat) : Nat → Nat → List Kept → List Kept → List Block
  | n, first, acc, [] => [rawBlock fp4 shard round n first true acc]
  | n, first, acc, g :: r =>
    let size := ((acc.map (fun x => (rawRecord fp4 x).length)).sum) + (rawRecord fp4 g).length
    if acc.isEmpty ∨ size ≤ 4064 then packBlocks fp4 shard round n first (acc ++ [g]) r
    else rawBlock fp4 shard round n first false acc :: packBlocks fp4 shard round (n + 1) (first + acc.length) [g] r

/-! ## Tables (R291 to R293) -/

/-- The number of value symbols. -/
def valueSymbols (fp4 : Bool) : Nat := if fp4 then 16 else 256

/-- A list of code lengths has a non-zero one and the sum of 2^−len is at most 1. -/
def lengthsOk (ls : List (BitVec 4)) : Bool :=
  ls.any (fun l => l ≠ 0) && decide ((ls.map (fun l => if l = 0 then 0 else 2 ^ (15 - l.toNat))).sum ≤ 2 ^ 15)

/-- A table is valid (R291), with its reserved bits zero and its lists whole (Table DXC-2). -/
def tableOk (t : TableBody) : Bool :=
  t.rsvZero && decide (t.gapLens.length = 256) && decide (t.valLens.length = valueSymbols t.fp4) &&
    lengthsOk t.gapLens && lengthsOk t.valLens

/-- Symbols of a code length, ascending. -/
def symbolsOf (ls : List (BitVec 4)) (l : Nat) : List Nat :=
  (List.range ls.length).filter (fun s => decide ((ls.getD s 0).toNat = l))

/-- The first codeword of each length l + 1 onward, as `assign_codes` gives them: the code on entry to the
length. -/
def firstCode (ls : List (BitVec 4)) : Nat → Nat
  | 0 => 0
  | l + 1 => 2 * (firstCode ls l + (if l = 0 then 0 else (symbolsOf ls l).length))

/-- The codeword bits of a symbol, most significant first; none when its length is 0. -/
def codeword (ls : List (BitVec 4)) (s : Nat) : Option (List Bool) :=
  let l := (ls.getD s 0).toNat
  if l = 0 then none
  else
    let c := firstCode ls l + ((symbolsOf ls l).filter (fun x => decide (x < s))).length
    some (((List.range l).reverse).map (fun i => c.testBit i))

/-- Read one codeword: `l` bits have been read and hold the value `code`; the fuel is the lengths left. -/
def readCode (ls : List (BitVec 4)) : Nat → Nat → Nat → List Bool → Option (Nat × List Bool)
  | 0, _, _, _ => none
  | _, _, _, [] => none
  | fuel + 1, l, code, b :: r =>
    let code := 2 * code + ofBool b
    let syms := symbolsOf ls (l + 1)
    let first := firstCode ls (l + 1)
    if first ≤ code ∧ code - first < syms.length then some (syms.getD (code - first) 0, r)
    else readCode ls fuel (l + 1) code r

/-! ## Building a table (R293)

Huffman's algorithm merges the two nodes of least count until one is left; each merge makes the codes of the symbols below it
one bit longer. Among equal counts the node that has stood longest comes first, symbols in ascending order; while a length
exceeds 15 bits every count is halved, upward, and the lengths are built again; a single symbol gets one bit (DESIGN CHOICE, log
entry 128). -/

/-- Insert a node after those of no greater count. -/
def insertNode (x : Nat × List Nat) : List (Nat × List Nat) → List (Nat × List Nat)
  | [] => [x]
  | y :: r => if y.1 ≤ x.1 then y :: insertNode x r else x :: y :: r

/-- Merge until one node is left; the lengths by symbol. -/
def mergeNodes : Nat → List (Nat × List Nat) → List Nat → List Nat
  | fuel + 1, a :: b :: r, lens =>
    let ss := a.2 ++ b.2
    mergeNodes fuel (insertNode (a.1 + b.1, ss) r) ((lens.zipIdx).map (fun p => if ss.contains p.2 then p.1 + 1 else p.1))
  | _, _, lens => lens

/-- The code lengths that Huffman's algorithm gives, by symbol. -/
def huffLengths (counts : List Nat) : List Nat :=
  match (counts.zipIdx).filter (fun p => decide (p.1 ≠ 0)) with
  | [p] => (counts.zipIdx).map (fun q => if q.2 = p.2 then 1 else 0)
  | ps => mergeNodes ps.length (ps.foldl (fun l p => insertNode (p.1, [p.2]) l) []) (counts.map (fun _ => 0))

/-- The same, limited to 15 bits. -/
def limitedLengths : Nat → List Nat → List (BitVec 4)
  | 0, counts => counts.map (fun _ => 0)
  | fuel + 1, counts =>
    let ls := huffLengths counts
    if ls.all (fun l => decide (l ≤ 15)) then ls.map (BitVec.ofNat 4) else limitedLengths fuel (counts.map (fun c => (c + 1) / 2))

/-- How often each of n symbols occurs. -/
def countSymbols (n : Nat) (syms : List Nat) : List Nat := (List.range n).map (fun k => syms.count k)

/-- The table of a round from the groups of a stream's raw blocks. -/
def buildTable (fp4 : Bool) (id : BitVec 3) (round : BitVec 64) (gs : List Kept) : TableBody :=
  { retire := false, fp4 := fp4, id := id, rsvZero := true, round := round,
    gapLens := limitedLengths 64 (countSymbols 256 (gs.flatMap (fun g => gapsOf none (g.elems.map (·.1))))),
    valLens := limitedLengths 64 (countSymbols (valueSymbols fp4) (gs.flatMap (fun g => g.elems.map (·.2)))) }

/-! ## Huffman bodies (R290, R297) -/

/-- Bits of bytes, most significant first, and bytes of bits, padded with zeros. -/
def bitsOfBytes (b : Bytes) : List Bool := b.flatMap (fun x => ((List.range 8).reverse).map (fun i => x.toNat.testBit i))
def numOfBits (l : List Bool) : Nat := l.foldl (fun a b => 2 * a + ofBool b) 0
def bytesOfBits (l : List Bool) : Bytes :=
  (pieces 8 (l.length + 1) l).map (fun p => BitVec.ofNat 8 (numOfBits (p ++ List.replicate (8 - p.length) false)))
def numBits (n v : Nat) : List Bool := ((List.range n).reverse).map (fun i => v.testBit i)

/-- The codewords of symbols, unless one has length 0. -/
def codewords (ls : List (BitVec 4)) (ss : List Nat) : Option (List Bool) := (ss.mapM (codeword ls)).map List.flatten

/-- The Huffman record of a group. -/
def huffRecord (t : TableBody) (g : Kept) : Option (List Bool) :=
  if g.elems.isEmpty then some (numBits 9 0)
  else do
    let gaps ← codewords t.gapLens (gapsOf none (g.elems.map (·.1)))
    let vals ← codewords t.valLens (g.elems.map (·.2))
    pure (numBits 9 g.elems.length ++ numBits 8 g.scale ++ gaps ++ vals)

/-- A block in the form the sender emits (R297): raw without a usable table, when a symbol has length 0, or
when the Huffman body would be no shorter. -/
def wireForm (t : Option TableBody) (gs : List Kept) (b : Block) : Block :=
  match t with
  | none => b
  | some t =>
    match (gs.mapM (huffRecord t)).map List.flatten with
    | none => b
    | some l =>
      let body := bytesOfBits l
      if b.body.length ≤ body.length then b
      else { b with raw := false, tableId := t.id, codedLen := BitVec.ofNat 16 body.length, body := body }

/-! ## Decoding (R298) -/

/-- The unused last nibble of the values of an E2M1 record is zero (R289). -/
def rawPadOk (fp4 : Bool) (n : Nat) (b : Bytes) : Bool := !fp4 || decide (n % 2 = 0) || decide ((b.getD (n / 2) 0).toNat % 16 = 0)

/-- Values of a raw record. -/
def rawValues (fp4 : Bool) (n : Nat) (b : Bytes) : List Nat :=
  if fp4 then (List.range n).map (fun i => if i % 2 = 0 then (b.getD (i / 2) 0).toNat / 16 else (b.getD (i / 2) 0).toNat % 16)
  else (List.range n).map (fun i => (b.getD i 0).toNat)

/-- Check 6 and 7 of a group: count, positions, values and scale. -/
def keptOk (fp4 : Bool) (n : Nat) (g : Kept) : Bool :=
  decide (n ≤ 256) && g.elems.all (fun p => decide (p.1 ≤ 255)) && (decide (n = 0) || decide (g.scale ≤ 0xFE)) &&
    g.elems.all (fun p => match decodeFmt (deltaFmt fp4) false p.2 with
      | .fin _ m _ => decide (m ≠ 0)
      | _ => false)

/-- The groups of a raw body: none when a check fails or the body does not end with the last record. -/
def decodeRaw (fp4 : Bool) : Nat → Bytes → Option (List Kept)
  | 0, b => if b.isEmpty then some [] else none
  | n + 1, b =>
    let c := beNat (b.take 2)
    if b.length < 2 then none
    else if c = 0 then (decodeRaw fp4 n (b.drop 2)).map ({ scale := 0, elems := [] } :: ·)
    else
      let vb := if fp4 then (c + 1) / 2 else c
      if b.length < 3 + c + vb then none
      else
        let gaps := ((b.drop 3).take c).map (·.toNat)
        let body := (b.drop (3 + c)).take vb
        let vals := rawValues fp4 c body
        let g : Kept := { scale := (b.getD 2 0).toNat, elems := (positionsOf none gaps).zip vals }
        if keptOk fp4 c g && rawPadOk fp4 c body then (decodeRaw fp4 n (b.drop (3 + c + vb))).map (g :: ·) else none

/-- Read n codewords. -/
def readCodes (ls : List (BitVec 4)) : Nat → List Bool → Option (List Nat × List Bool)
  | 0, l => some ([], l)
  | n + 1, l => do
    let x ← readCode ls 15 0 0 l
    let r ← readCodes ls n x.2
    pure (x.1 :: r.1, r.2)

/-- The groups of a Huffman body. -/
def decodeHuff (t : TableBody) (fp4 : Bool) : Nat → List Bool → Option (List Kept)
  | 0, l => if l.length < 8 ∧ l.all (fun b => !b) then some [] else none
  | n + 1, l =>
    let c := numOfBits (l.take 9)
    if l.length < 9 then none
    else if c = 0 then (decodeHuff t fp4 n (l.drop 9)).map ({ scale := 0, elems := [] } :: ·)
    else if l.length < 17 then none
    else do
      let gaps ← readCodes t.gapLens c (l.drop 17)
      let vals ← readCodes t.valLens c gaps.2
      let g : Kept := { scale := numOfBits ((l.drop 9).take 8), elems := (positionsOf none gaps.1).zip vals.1 }
      if keptOk fp4 c g then (decodeHuff t fp4 n vals.2).map (g :: ·) else none

/-- The groups of a block, with checks 6 to 10 of Table DXC-3; a table serves its own value format. -/
def decodeBody (t : Option TableBody) (b : Block) : Option (List Kept) :=
  let gs := if b.raw then decodeRaw b.fp4 b.groups.toNat b.body
    else match t with
      | some t => if t.fp4 = b.fp4 then decodeHuff t b.fp4 b.groups.toNat (bitsOfBytes b.body) else none
      | none => none
  match gs with
  | some gs =>
    if b.body.length = b.codedLen.toNat ∧ (gs.map (fun g => g.elems.length)).sum = b.elemCount.toNat then some gs else none
  | none => none

/-- The kept elements of a block by element of the shard: FP32 codes. -/
def blockValues (b : Block) (gs : List Kept) : List (Nat × Nat) :=
  (gs.zipIdx).flatMap (fun p =>
    p.1.elems.map (fun e => (256 * (b.firstGroup.toNat + p.2) + e.1, keptValue b.fp4 p.1.scale e.2)))

/-- Check 1 of Table DXC-3. -/
def blockFormOk (b : Block) : Bool :=
  decide (b.codedLen.toNat ≤ 4064) && decide (1 ≤ b.groups.toNat) && decide (b.groups.toNat ≤ 2032) && b.rsvZero &&
    (!b.raw || decide (b.tableId = 0))

/-- The groups of two blocks overlap. -/
def blocksOverlap (a b : Block) : Bool :=
  decide (a.firstGroup.toNat < b.firstGroup.toNat + b.groups.toNat) && decide (b.firstGroup.toNat < a.firstGroup.toNat + a.groups.toNat)

/-- The identity of a block (R278). -/
def blockIdent (b : Block) : BitVec 32 × BitVec 64 × BitVec 32 := (b.shard, b.round, b.block)

/-- Bytes of a block on the wire. -/
def blockSize (b : Block) : Nat := 32 + b.body.length

/-- The bytes of a block whose reserved bits are zero (Table DXC-1). -/
def codedBytes (b : Block) : Bytes :=
  toBE 1 (128 * ofBool b.raw + 64 * ofBool b.final + 16 * ofBool b.fp4 + b.tableId.toNat) ++ [0] ++ toBE 2 b.codedLen.toNat ++ toBE 4 b.shard.toNat ++
    toBE 8 b.round.toNat ++ toBE 4 b.block.toNat ++ toBE 2 b.elemCount.toNat ++ toBE 2 b.groups.toNat ++ toBE 4 b.firstGroup.toNat ++ toBE 4 0 ++ b.body

/-- A field of a message, big-endian. -/
def beAt (b : Bytes) (o n : Nat) : Nat := beNat ((b.drop o).take n)

/-- Blocks back to back, up to one that covers no group. -/
def parseBlocks : Nat → Bytes → List Block
  | 0, _ => []
  | fuel + 1, b =>
    let n := beAt b 2 2
    if b.length < 32 + n ∨ beAt b 22 2 = 0 then []
    else
      let f := beAt b 0 1
      { raw := f.testBit 7, final := f.testBit 6, fp4 := f.testBit 4, tableId := BitVec.ofNat 3 f, rsvZero := true,
        shard := BitVec.ofNat 32 (beAt b 4 4), round := BitVec.ofNat 64 (beAt b 8 8), block := BitVec.ofNat 32 (beAt b 16 4),
        elemCount := BitVec.ofNat 16 (beAt b 20 2), groups := BitVec.ofNat 16 (beAt b 22 2), firstGroup := BitVec.ofNat 32 (beAt b 24 4),
        codedLen := BitVec.ofNat 16 n, body := (b.drop 32).take n } :: parseBlocks fuel (b.drop (32 + n))

/-! ## Acknowledgement entries (R316, Table HST-6) -/

/-- Order of block identities: by shard, then by block. -/
def identBefore (a b : BitVec 32 × BitVec 64 × BitVec 32) : Bool :=
  decide (a.1.toNat < b.1.toNat) || (decide (a.1 = b.1) && decide (a.2.2.toNat < b.2.2.toNat))

def insertIdent (x : BitVec 32 × BitVec 64 × BitVec 32) : List (BitVec 32 × BitVec 64 × BitVec 32) → List (BitVec 32 × BitVec 64 × BitVec 32)
  | [] => [x]
  | y :: r => if identBefore x y then x :: y :: r else if x = y then y :: r else y :: insertIdent x r

/-- The entries that name blocks of one round: ranges of consecutive blocks of a shard are one entry. -/
def rangeEntries (table : Nat) (ids : List (BitVec 32 × BitVec 64 × BitVec 32)) : List AckEntry :=
  (ids.foldl (fun l x => insertIdent x l) []).foldr (fun i es => match es with
    | e :: r =>
      if e.a = i.1 ∧ e.b = i.2.2 + 1 ∧ bits e.c.toNat 16 31 < 65535 then { e with b := i.2.2, c := e.c + 0x10000 } :: r
      else ⟨i.1, i.2.2, BitVec.ofNat 32 (2 ^ 16 + table * 2 ^ 8)⟩ :: es
    | [] => [⟨i.1, i.2.2, BitVec.ofNat 32 (2 ^ 16 + table * 2 ^ 8)⟩]) []

end Sys2Proof.Machine
end

