-- ==== Sys2Proof/Machine/Messages.lean ====
section
/-! DEFINITION. MANIFEST-class messages, sealed bundles and shard objects as bytes, both ways (Tables DXR-3 to DXR-5, R263 to
R265, R271, R281, R313). -/
namespace Sys2Proof.Machine

/-! ## Bodies before their signatures -/

def receiptBytes (r : ReceiptBody) : Bytes :=
  [0x03, 0] ++ toBE 2 r.site.toNat ++ toBE 4 r.fedJob.toNat ++ toBE 8 r.round.toNat ++ toBE 2 r.absentIssuer.toNat ++
    toBE 2 r.entries.length ++ toBE 4 0 ++ r.entries.flatMap (fun e => toBE 2 e.1.toNat ++ toBE 8 e.2.toNat)

def joinBytes (b : JoinBody) : Bytes := [0x04, 0] ++ toBE 2 b.site.toNat ++ toBE 4 b.fedJob.toNat ++ toBE 8 b.round.toNat

def countersignBytes (c : CountersignBody) : Bytes :=
  [0x02, 0] ++ toBE 2 c.site.toNat ++ toBE 4 c.fedJob.toNat ++ toBE 8 c.round.toNat ++ toLE 32 c.manifestDigest.toNat ++
    toLE 32 c.anchorDigest.toNat

def manifestBytes (m : ManifestBody) : Bytes :=
  [0x01, BitVec.ofNat 8 (ofBool m.takeover)] ++ toBE 2 m.issuer.toNat ++ toBE 4 m.fedJob.toNat ++ toBE 8 m.round.toNat ++
    toBE 8 m.nextDeadline.toNat ++ toBE 2 m.nextBeacon.toNat ++ toBE 2 m.members.length ++ toBE 2 m.contribs.length ++
    toBE 2 m.absents.length ++ toBE 4 m.eta.toNat ++ toBE 4 m.mu.toNat ++ toLE 32 m.baseDigest.toNat ++ toLE 32 m.prevSeal.toNat ++
    m.members.flatMap (fun e => toBE 2 e.1.toNat ++ toBE 1 e.2.toNat ++ [0]) ++
    m.contribs.flatMap (fun c => toBE 2 c.site.toNat ++ toBE 1 c.age.toNat ++ [0] ++ toBE 8 c.round.toNat ++ toBE 4 c.weight.toNat) ++
    m.absents.flatMap (fun r => receiptBytes r ++ toBE 114 r.sig.toNat)

/-- A whole message: its body and its signature. -/
def signedMessage (body : Bytes) (sig : BitVec 912) : Bytes := body ++ toBE 114 sig.toNat

/-- The digest of a whole manifest, its signature included. -/
def manifestDigest (m : ManifestBody) : BitVec 256 := Config.shake256 (signedMessage (manifestBytes m) m.sig) 256

/-! ## Messages read back -/

/-- A digest in a message: its bytes as the hash gives them. -/
def digestAt (b : Bytes) (o : Nat) : BitVec 256 := BitVec.ofNat 256 (leNat ((b.drop o).take 32))

/-- A RECEIPT body, and the bytes after it. -/
def parseReceipt (b : Bytes) : ReceiptBody × Bytes :=
  let n := beAt b 18 2
  ({ site := BitVec.ofNat 16 (beAt b 2 2), fedJob := BitVec.ofNat 32 (beAt b 4 4), round := BitVec.ofNat 64 (beAt b 8 8),
     absentIssuer := BitVec.ofNat 16 (beAt b 16 2),
     entries := (List.range n).map (fun k => (BitVec.ofNat 16 (beAt b (24 + 10 * k) 2), BitVec.ofNat 64 (beAt b (26 + 10 * k) 8))),
     sig := BitVec.ofNat 912 (beAt b (24 + 10 * n) 114) }, b.drop (138 + 10 * n))

/-- Declarations back to back. -/
def parseReceipts : Nat → Bytes → List ReceiptBody × Bytes
  | 0, b => ([], b)
  | n + 1, b =>
    let r := parseReceipt b
    let t := parseReceipts n r.2
    (r.1 :: t.1, t.2)

/-- A manifest, and the bytes after it. -/
def parseManifest (b : Bytes) : ManifestBody × Bytes :=
  let m := beAt b 26 2
  let n := beAt b 28 2
  let abs := parseReceipts (beAt b 30 2) (b.drop (104 + 4 * m + 16 * n))
  ({ takeover := (beAt b 1 1).testBit 0, issuer := BitVec.ofNat 16 (beAt b 2 2), fedJob := BitVec.ofNat 32 (beAt b 4 4),
     round := BitVec.ofNat 64 (beAt b 8 8), nextDeadline := BitVec.ofNat 64 (beAt b 16 8), nextBeacon := BitVec.ofNat 16 (beAt b 24 2),
     eta := BitVec.ofNat 32 (beAt b 32 4), mu := BitVec.ofNat 32 (beAt b 36 4), baseDigest := digestAt b 40,
     prevSeal := digestAt b 72,
     members := (List.range m).map (fun k => (BitVec.ofNat 16 (beAt b (104 + 4 * k) 2), BitVec.ofNat 8 (beAt b (106 + 4 * k) 1))),
     contribs := (List.range n).map (fun k =>
       let o := 104 + 4 * m + 16 * k
       { site := BitVec.ofNat 16 (beAt b o 2), age := BitVec.ofNat 8 (beAt b (o + 2) 1), round := BitVec.ofNat 64 (beAt b (o + 4) 8),
         weight := BitVec.ofNat 32 (beAt b (o + 12) 4) }),
     absents := abs.1, sig := BitVec.ofNat 912 (beAt abs.2 0 114) }, abs.2.drop 114)

/-- A COUNTERSIGN body. -/
def parseCountersign (b : Bytes) : CountersignBody :=
  { site := BitVec.ofNat 16 (beAt b 2 2), fedJob := BitVec.ofNat 32 (beAt b 4 4), round := BitVec.ofNat 64 (beAt b 8 8),
    manifestDigest := digestAt b 16, anchorDigest := digestAt b 48, sig := BitVec.ofNat 912 (beAt b 80 114) }

/-! ## Objects (R264, R313) -/

/-- A sealed bundle: the manifest and its countersignatures, back to back (DESIGN CHOICE, log entry 27). -/
def bundleBytes (m : ManifestBody) (cs : List CountersignBody) : Bytes :=
  signedMessage (manifestBytes m) m.sig ++ cs.flatMap (fun c => signedMessage (countersignBytes c) c.sig)

/-- A sealed bundle read back. -/
def parseBundle (b : Bytes) : ManifestBody × List CountersignBody :=
  let m := parseManifest b
  (m.1, ((pieces 194 (m.2.length + 1) m.2).filter (fun p => decide (p.length = 194))).map parseCountersign)

/-- FP32 values as bytes, and back (R264). -/
def wordBytes (vs : List (BitVec 32)) : Bytes := vs.flatMap (fun v => toLE 4 v.toNat)
def parseWords (n : Nat) (b : Bytes) : List (BitVec 32) := (List.range n).map (fun i => BitVec.ofNat 32 (leNat ((b.drop (4 * i)).take 4)))

/-- A and M of shards, shard by shard, A first (DESIGN CHOICE, log entry 27). -/
def shardsBytes (l : List (List (BitVec 32) × List (BitVec 32))) : Bytes := l.flatMap (fun p => wordBytes p.1 ++ wordBytes p.2)

/-- The shards of an object read back. -/
def parseShards (elems : Nat) (shards : List (BitVec 32)) (b : Bytes) : List (BitVec 32 × List (BitVec 32) × List (BitVec 32)) :=
  (shards.zipIdx).map (fun p =>
    (p.1, parseWords elems (b.drop (8 * elems * p.2)), parseWords elems (b.drop (8 * elems * p.2 + 4 * elems))))

/-- The object header of R313: total length of the object and round. -/
def objectHeader (n round : Nat) : Bytes := toBE 8 n ++ toBE 8 round

end Sys2Proof.Machine
end

