-- ==== Sys2Proof/Machine/Registers.lean ====
section
/-! DEFINITION. The register fields of Register reference (Tables REG-3 to REG-12): where each lies,
how it is accessed, and the values its description allows. Fields that the device computes when they
are read (RegRead) are not listed. -/
namespace Sys2Proof.Machine

/-- The access types of Table SCP-4; `fixed` is STATIC. -/
inductive Access where
  | ro | rw | rws | w1c | wo | fixed
  deriving DecidableEq, Repr

/-- A register field: its word's offset in the window at instance 0, the distance to the next
instance, its bits, its access type and the values that are not reserved (R9). An instance is a job,
port or stack, or for a selected register (distance 0x10000) the selected unit. -/
structure Fld where
  word : Nat
  stride : Nat
  lo : Nat
  hi : Nat
  acc : Access
  least : Nat
  most : Nat
  deriving DecidableEq, Repr

def CLK_CORE_CFG_dram_mhz : Fld := ⟨0x1000, 0x0, 16, 31, .ro, 0, 65535⟩
def CLK_CORE_CFG_core_mhz : Fld := ⟨0x1000, 0x0, 0, 15, .ro, 0, 65535⟩
def CLK_STATUS_fab_lock : Fld := ⟨0x1008, 0x0, 9, 18, .ro, 0, 1023⟩
def CLK_STATUS_ptp_mgmt_host : Fld := ⟨0x1008, 0x0, 6, 8, .ro, 0, 7⟩
def CLK_STATUS_dram_lock : Fld := ⟨0x1008, 0x0, 2, 5, .ro, 0, 15⟩
def CLK_STATUS_core_lock : Fld := ⟨0x1008, 0x0, 1, 1, .ro, 0, 1⟩
def CLK_STATUS_ref_ok : Fld := ⟨0x1008, 0x0, 0, 0, .ro, 0, 1⟩
def PWR_MODE_mode : Fld := ⟨0x1010, 0x0, 0, 1, .rws, 0, 2⟩
def PWR_LIMIT_watts : Fld := ⟨0x1018, 0x0, 0, 15, .rw, 400, 1600⟩
def PWR_TELEM_throttle : Fld := ⟨0x1020, 0x0, 32, 32, .ro, 0, 1⟩
def PWR_TELEM_peak_w : Fld := ⟨0x1020, 0x0, 16, 31, .ro, 0, 65535⟩
def PWR_TELEM_power_w : Fld := ⟨0x1020, 0x0, 0, 15, .ro, 0, 65535⟩
def THERM_STATUS_throttled : Fld := ⟨0x1028, 0x0, 32, 35, .ro, 0, 15⟩
def THERM_STATUS_dram_temp : Fld := ⟨0x1028, 0x0, 16, 31, .ro, 0, 65535⟩
def THERM_STATUS_logic_temp : Fld := ⟨0x1028, 0x0, 0, 15, .ro, 0, 65535⟩
def TICK_PERIOD_ptp_wait : Fld := ⟨0x2000, 0x0, 32, 51, .fixed, 0, 600000⟩
def TICK_PERIOD_period : Fld := ⟨0x2000, 0x0, 0, 7, .fixed, 4, 128⟩
def TICK_PHASE_phase : Fld := ⟨0x2008, 0x0, 0, 31, .fixed, 0, 4294967295⟩
def TICK_COUNT_count : Fld := ⟨0x2010, 0x0, 0, 63, .ro, 0, 18446744073709551615⟩
def PTP_STATUS_offset : Fld := ⟨0x2020, 0x0, 32, 63, .ro, 0, 4294967295⟩
def PTP_STATUS_holdover : Fld := ⟨0x2020, 0x0, 1, 1, .ro, 0, 1⟩
def PTP_STATUS_lock : Fld := ⟨0x2020, 0x0, 0, 0, .ro, 0, 1⟩
def PPS_STATUS_edge_err : Fld := ⟨0x2028, 0x0, 32, 63, .ro, 0, 4294967295⟩
def PPS_STATUS_lock : Fld := ⟨0x2028, 0x0, 1, 1, .ro, 0, 1⟩
def PPS_STATUS_present : Fld := ⟨0x2028, 0x0, 0, 0, .ro, 0, 1⟩
def MEM_CTRL_ecc_clr : Fld := ⟨0x3000, 0x0, 1, 1, .wo, 0, 1⟩
def MEM_CTRL_patrol_en : Fld := ⟨0x3000, 0x0, 0, 0, .rw, 0, 1⟩
def MEM_ECC_COUNT_cmd_retries : Fld := ⟨0x3008, 0x0, 48, 63, .ro, 0, 65535⟩
def MEM_ECC_COUNT_uncorrectable : Fld := ⟨0x3008, 0x0, 32, 47, .ro, 0, 65535⟩
def MEM_ECC_COUNT_corrected : Fld := ⟨0x3008, 0x0, 0, 31, .ro, 0, 4294967295⟩
def MEM_REPAIR_CTRL_go : Fld := ⟨0x3010, 0x0, 63, 63, .wo, 0, 1⟩
def MEM_REPAIR_CTRL_repair_threshold : Fld := ⟨0x3010, 0x0, 32, 47, .rw, 1, 65535⟩
def MEM_REPAIR_CTRL_spare : Fld := ⟨0x3010, 0x0, 24, 24, .rw, 0, 1⟩
def MEM_REPAIR_CTRL_channel : Fld := ⟨0x3010, 0x0, 16, 21, .rw, 0, 63⟩
def MEM_REPAIR_CTRL_stack : Fld := ⟨0x3010, 0x0, 8, 9, .rw, 0, 3⟩
def MEM_REPAIR_CTRL_auto_repair : Fld := ⟨0x3010, 0x0, 0, 0, .rw, 0, 1⟩
def MEM_GLOG_BASE_base : Fld := ⟨0x3020, 0x0, 16, 41, .fixed, 0, 67108863⟩
def MEM_GLOG_SIZE_log_en : Fld := ⟨0x3028, 0x0, 48, 48, .fixed, 0, 1⟩
def MEM_GLOG_SIZE_log_job : Fld := ⟨0x3028, 0x0, 40, 41, .fixed, 0, 3⟩
def MEM_GLOG_SIZE_lag : Fld := ⟨0x3028, 0x0, 32, 35, .fixed, 1, 15⟩
def MEM_GLOG_SIZE_size : Fld := ⟨0x3028, 0x0, 0, 20, .fixed, 16, 1048576⟩
def MEM_STACK_STATUS_throttle : Fld := ⟨0x3040, 0x8, 18, 18, .ro, 0, 1⟩
def MEM_STACK_STATUS_want_chan : Fld := ⟨0x3040, 0x8, 8, 13, .ro, 0, 63⟩
def MEM_STACK_STATUS_repair_wanted : Fld := ⟨0x3040, 0x8, 2, 2, .w1c, 0, 1⟩
def MEM_STACK_STATUS_withdrawn : Fld := ⟨0x3040, 0x8, 1, 1, .ro, 0, 1⟩
def MEM_STACK_STATUS_trained : Fld := ⟨0x3040, 0x8, 0, 0, .ro, 0, 1⟩
def MEM_REFRESH_STATE_throttle : Fld := ⟨0x3060, 0x8, 2, 2, .ro, 0, 1⟩
def MEM_REFRESH_STATE_rate : Fld := ⟨0x3060, 0x8, 0, 1, .ro, 0, 3⟩
def MEM_TEMP_sensor : Fld := ⟨0x3080, 0x8, 16, 21, .ro, 0, 63⟩
def MEM_TEMP_temp : Fld := ⟨0x3080, 0x8, 0, 15, .ro, 0, 65535⟩
def MEM_CODEC_CFG_mode : Fld := ⟨0x3400, 0x100, 0, 1, .fixed, 0, 2⟩
def TILE_SEL_ctx : Fld := ⟨0x4000, 0x10000, 16, 17, .rw, 0, 2⟩
def TILE_SEL_tile : Fld := ⟨0x4000, 0x10000, 0, 9, .rw, 0, 1023⟩
def TILE_STATUS_async_ctx : Fld := ⟨0x4008, 0x10000, 44, 45, .ro, 0, 3⟩
def TILE_STATUS_async_index : Fld := ⟨0x4008, 0x10000, 32, 43, .ro, 0, 4095⟩
def TILE_STATUS_async_err : Fld := ⟨0x4008, 0x10000, 30, 30, .w1c, 0, 1⟩
def TILE_STATUS_rej_ctx : Fld := ⟨0x4008, 0x10000, 28, 29, .ro, 0, 3⟩
def TILE_STATUS_rej_index : Fld := ⟨0x4008, 0x10000, 16, 27, .ro, 0, 4095⟩
def TILE_STATUS_rej_code : Fld := ⟨0x4008, 0x10000, 8, 15, .ro, 0, 255⟩
def TILE_CTX_CTRL_replay_entry : Fld := ⟨0x4010, 0x10000, 32, 43, .fixed, 0, 4095⟩
def TILE_CTX_CTRL_entry : Fld := ⟨0x4010, 0x10000, 16, 27, .fixed, 0, 4095⟩
def TILE_CTX_CTRL_enable : Fld := ⟨0x4010, 0x10000, 0, 0, .fixed, 0, 1⟩
def TILE_OVERRUN_overrun_count : Fld := ⟨0x4018, 0x10000, 32, 63, .ro, 0, 4294967295⟩
def TILE_OVERRUN_overrun_flag : Fld := ⟨0x4018, 0x10000, 0, 0, .w1c, 0, 1⟩
def TILE_EXC_vec : Fld := ⟨0x4020, 0x10000, 13, 15, .w1c, 0, 7⟩
def TILE_EXC_cvt : Fld := ⟨0x4020, 0x10000, 10, 12, .w1c, 0, 7⟩
def TILE_EXC_acc_ovf : Fld := ⟨0x4020, 0x10000, 9, 9, .w1c, 0, 1⟩
def TILE_EXC_inv_sum : Fld := ⟨0x4020, 0x10000, 8, 8, .w1c, 0, 1⟩
def TILE_EXC_inv_prod : Fld := ⟨0x4020, 0x10000, 0, 7, .w1c, 0, 255⟩
def TILE_MAP_phys : Fld := ⟨0x4028, 0x10000, 0, 10, .ro, 0, 2047⟩
def NUM_CTRL_rounding : Fld := ⟨0x5000, 0x100, 4, 4, .fixed, 0, 1⟩
def NUM_CTRL_determinism : Fld := ⟨0x5000, 0x100, 0, 1, .fixed, 0, 2⟩
def NUM_SEED_seed : Fld := ⟨0x5008, 0x100, 0, 63, .fixed, 0, 18446744073709551615⟩
def NUM_EXC_SUMMARY_exc : Fld := ⟨0x5010, 0x100, 0, 15, .w1c, 0, 65535⟩
def STEP_CTRL_norm_limit : Fld := ⟨0x6000, 0x100, 32, 63, .rws, 0, 4294967295⟩
def STEP_CTRL_max_attempts : Fld := ⟨0x6000, 0x100, 24, 31, .rws, 1, 255⟩
def STEP_CTRL_min_groups : Fld := ⟨0x6000, 0x100, 16, 23, .rws, 1, 255⟩
def STEP_CTRL_vote_timeout : Fld := ⟨0x6000, 0x100, 0, 15, .rws, 1, 60000⟩
def STEP_CTRL_loss_tid : Fld := ⟨0x6008, 0x100, 32, 63, .fixed, 0, 4294967295⟩
def STEP_CTRL_rejoin : Fld := ⟨0x6008, 0x100, 2, 2, .rw, 0, 1⟩
def STEP_CTRL_host_abort : Fld := ⟨0x6008, 0x100, 1, 1, .wo, 0, 1⟩
def STEP_NUMBER_step : Fld := ⟨0x6018, 0x100, 0, 63, .fixed, 0, 18446744073709551615⟩
def STEP_LEDGER_BASE_ledger_entries : Fld := ⟨0x6020, 0x100, 48, 52, .fixed, 4, 16⟩
def STEP_LEDGER_BASE_ledger_base : Fld := ⟨0x6020, 0x100, 12, 41, .fixed, 0, 1073741823⟩
def STEP_DIGEST_CFG_reread_share : Fld := ⟨0x6028, 0x100, 24, 30, .rws, 1, 100⟩
def STEP_DIGEST_CFG_interval : Fld := ⟨0x6028, 0x100, 0, 16, .rws, 0, 65536⟩
def STEP_ABORT_REASON_origin : Fld := ⟨0x6030, 0x100, 32, 53, .ro, 0, 4194303⟩
def STEP_ABORT_REASON_prog_reason : Fld := ⟨0x6030, 0x100, 8, 15, .ro, 0, 255⟩
def STEP_ABORT_REASON_reason : Fld := ⟨0x6030, 0x100, 0, 7, .ro, 0, 255⟩
def FAB_PORT_CTRL_quarantine_release : Fld := ⟨0x7000, 0x8, 1, 1, .wo, 0, 1⟩
def FAB_PORT_CTRL_port_en : Fld := ⟨0x7000, 0x8, 0, 0, .rw, 0, 1⟩
def FAB_PORT_STATUS_rtt : Fld := ⟨0x7050, 0x8, 44, 63, .ro, 0, 1048575⟩
def FAB_PORT_STATUS_bad_op : Fld := ⟨0x7050, 0x8, 28, 43, .ro, 0, 65535⟩
def FAB_PORT_STATUS_skipped : Fld := ⟨0x7050, 0x8, 20, 27, .ro, 0, 255⟩
def FAB_PORT_STATUS_failed_lanes : Fld := ⟨0x7050, 0x8, 15, 19, .ro, 0, 31⟩
def FAB_PORT_STATUS_data_lanes : Fld := ⟨0x7050, 0x8, 12, 14, .ro, 0, 7⟩
def FAB_PORT_STATUS_adopted_dir : Fld := ⟨0x7050, 0x8, 8, 11, .ro, 0, 15⟩
def FAB_PORT_STATUS_adopted : Fld := ⟨0x7050, 0x8, 7, 7, .ro, 0, 1⟩
def FAB_PORT_STATUS_spare_used : Fld := ⟨0x7050, 0x8, 6, 6, .ro, 0, 1⟩
def FAB_PORT_STATUS_q_reason : Fld := ⟨0x7050, 0x8, 3, 5, .ro, 0, 7⟩
def FAB_LANE_MAP_rx_spare : Fld := ⟨0x70A0, 0x8, 28, 30, .fixed, 0, 7⟩
def FAB_LANE_MAP_rx : Fld := ⟨0x70A0, 0x8, 16, 27, .fixed, 0, 4095⟩
def FAB_LANE_MAP_tx_spare : Fld := ⟨0x70A0, 0x8, 12, 14, .fixed, 0, 7⟩
def FAB_LANE_MAP_tx : Fld := ⟨0x70A0, 0x8, 0, 11, .fixed, 0, 4095⟩
def FAB_PEER_ID_serial_lo : Fld := ⟨0x7100, 0x18, 0, 63, .ro, 0, 18446744073709551615⟩
def FAB_PEER_ID_serial_hi : Fld := ⟨0x7108, 0x18, 0, 63, .ro, 0, 18446744073709551615⟩
def FAB_PEER_ID_coord : Fld := ⟨0x7110, 0x18, 32, 63, .ro, 0, 4294967295⟩
def FAB_PEER_ID_flags : Fld := ⟨0x7110, 0x18, 16, 23, .ro, 0, 255⟩
def FAB_PEER_ID_port : Fld := ⟨0x7110, 0x18, 8, 15, .ro, 0, 255⟩
def FAB_PEER_ID_lpv : Fld := ⟨0x7110, 0x18, 0, 7, .ro, 0, 255⟩
def FAB_CREDIT_CFG_e2e_timeout : Fld := ⟨0x7200, 0x0, 32, 47, .rw, 1, 65535⟩
def FAB_CREDIT_CFG_buf (p : Nat) : Fld := ⟨0x7200, 0, 2 * p, 2 * p + 1, .fixed, 0, 3⟩
def FAB_COORD_site : Fld := ⟨0x7208, 0x0, 52, 61, .fixed, 0, 1023⟩
def FAB_COORD_dims : Fld := ⟨0x7208, 0x0, 24, 51, .fixed, 0, 268435455⟩
def FAB_COORD_coord : Fld := ⟨0x7208, 0x0, 0, 23, .fixed, 0, 16777215⟩
def FAB_TOPO_MODE_link_wait : Fld := ⟨0x7210, 0x0, 16, 31, .rw, 100, 60000⟩
def FAB_TOPO_MODE_mode : Fld := ⟨0x7210, 0x0, 0, 0, .fixed, 0, 1⟩
def FAB_BYPASS_STATUS_closed : Fld := ⟨0x7218, 0x0, 8, 11, .ro, 0, 15⟩
def FAB_BYPASS_STATUS_bypass_arm : Fld := ⟨0x7218, 0x0, 0, 0, .rw, 0, 1⟩
def CXE_CTRL_d_dims : Fld := ⟨0x8000, 0x100, 0, 3, .fixed, 0, 15⟩
def CXE_STATUS_err : Fld := ⟨0x8008, 0x100, 40, 55, .ro, 0, 65535⟩
def CXE_STATUS_discarded : Fld := ⟨0x8008, 0x100, 0, 31, .ro, 0, 4294967295⟩
def CXE_EPOCH_arm : Fld := ⟨0x8010, 0x100, 63, 63, .rws, 0, 1⟩
def CXE_EPOCH_epoch_advance : Fld := ⟨0x8010, 0x100, 62, 62, .wo, 0, 1⟩
def CXE_EPOCH_epoch : Fld := ⟨0x8010, 0x100, 0, 31, .ro, 0, 4294967295⟩
def CXE_EPOCH_next_table : Fld := ⟨0x8018, 0x100, 0, 41, .rws, 0, 4398046511103⟩
def CXE_BUCKET_CFG_bucket_bytes : Fld := ⟨0x8020, 0x100, 0, 8, .rws, 1, 256⟩
def DXE_CTRL_topk : Fld := ⟨0x9000, 0x100, 32, 40, .fixed, 1, 256⟩
def DXE_CTRL_fed_shards : Fld := ⟨0x9000, 0x100, 24, 28, .fixed, 0, 16⟩
def DXE_CTRL_h : Fld := ⟨0x9000, 0x100, 8, 20, .fixed, 16, 4096⟩
def DXE_CTRL_vfmt : Fld := ⟨0x9000, 0x100, 1, 1, .fixed, 0, 1⟩
def DXE_CTRL_enable : Fld := ⟨0x9000, 0x100, 0, 0, .fixed, 0, 1⟩
def DXE_CTRL_dxe_base : Fld := ⟨0x9008, 0x100, 0, 41, .fixed, 0, 4398046511103⟩
def DXE_CTRL_mu : Fld := ⟨0x9010, 0x100, 32, 63, .rws, 0, 4294967295⟩
def DXE_CTRL_eta : Fld := ⟨0x9010, 0x100, 0, 31, .rws, 0, 4294967295⟩
def DXE_ROUND_s0 : Fld := ⟨0x9018, 0x100, 0, 63, .fixed, 0, 18446744073709551615⟩
def DXE_ROUND_d0 : Fld := ⟨0x9020, 0x100, 0, 63, .fixed, 0, 18446744073709551615⟩
def DXE_ROUND_t_round : Fld := ⟨0x9028, 0x100, 0, 26, .fixed, 1000, 86400000⟩
def DXE_STATUS_close_waits : Fld := ⟨0x9040, 0x100, 32, 63, .ro, 0, 4294967295⟩
def DXE_STATUS_stall_rounds : Fld := ⟨0x9040, 0x100, 24, 31, .ro, 0, 255⟩
def DXE_STATUS_flushes : Fld := ⟨0x9048, 0x100, 0, 31, .ro, 0, 4294967295⟩
def DXE_STATUS_failovers : Fld := ⟨0x9048, 0x100, 32, 63, .ro, 0, 4294967295⟩
def DXE_STATUS_resets : Fld := ⟨0x9050, 0x100, 0, 31, .ro, 0, 4294967295⟩
def DXE_STATUS_refetches : Fld := ⟨0x9050, 0x100, 32, 63, .ro, 0, 4294967295⟩
def DXE_STATUS_corrupt : Fld := ⟨0x9058, 0x100, 0, 31, .ro, 0, 4294967295⟩
def DXE_STATUS_unknown_table : Fld := ⟨0x9058, 0x100, 32, 63, .ro, 0, 4294967295⟩
def DXE_STATUS_duplicates : Fld := ⟨0x9060, 0x100, 0, 31, .ro, 0, 4294967295⟩
def DXE_STATUS_discarded : Fld := ⟨0x9060, 0x100, 32, 63, .ro, 0, 4294967295⟩
def DXE_STATUS_lost_mass : Fld := ⟨0x9068, 0x100, 0, 31, .ro, 0, 4294967295⟩
def DXE_STATUS_protocol : Fld := ⟨0x9068, 0x100, 32, 63, .ro, 0, 4294967295⟩
def DXE_WINDOW_store_bytes : Fld := ⟨0x9070, 0x100, 16, 26, .fixed, 1, 1024⟩
def DXE_WINDOW_window_bytes : Fld := ⟨0x9070, 0x100, 0, 8, .fixed, 4, 256⟩
def DXE_WINDOW_store_base : Fld := ⟨0x9078, 0x100, 0, 41, .fixed, 0, 4398046511103⟩
def DXE_STALE_CFG_stall_limit : Fld := ⟨0x9080, 0x100, 16, 31, .rws, 1, 65535⟩
def DXE_STALE_CFG_drop_rounds : Fld := ⟨0x9080, 0x100, 8, 15, .rws, 2, 255⟩
def DXE_STALE_CFG_s_max : Fld := ⟨0x9080, 0x100, 0, 1, .rws, 0, 3⟩
def DXE_STALE_CFG_w2 : Fld := ⟨0x9088, 0x100, 32, 63, .rws, 0, 4294967295⟩
def DXE_STALE_CFG_w1 : Fld := ⟨0x9088, 0x100, 0, 31, .rws, 0, 4294967295⟩
def DXE_STALE_CFG_w3 : Fld := ⟨0x9090, 0x100, 0, 31, .rws, 0, 4294967295⟩
def DXE_PATH_STATUS_sel : Fld := ⟨0x9098, 0x100, 0, 11, .rw, 0, 4095⟩
def HST_PORT_CTRL_bulk_window : Fld := ⟨0xA000, 0x0, 16, 28, .rw, 16, 4096⟩
def HST_PORT_CTRL_stats_clr : Fld := ⟨0xA000, 0x0, 1, 1, .wo, 0, 1⟩
def HST_PORT_CTRL_pmd_sel : Fld := ⟨0xA000, 0x0, 0, 0, .fixed, 0, 1⟩
def HST_PORT_STATUS_fec_uncorr : Fld := ⟨0xA008, 0x0, 48, 63, .ro, 0, 65535⟩
def HST_PORT_STATUS_ubtik_discards : Fld := ⟨0xA008, 0x0, 32, 47, .ro, 0, 65535⟩
def HST_PORT_STATUS_frame_discards : Fld := ⟨0xA008, 0x0, 16, 31, .ro, 0, 65535⟩
def HST_PORT_STATUS_fec_lock : Fld := ⟨0xA008, 0x0, 1, 1, .ro, 0, 1⟩
def HST_PORT_STATUS_link_up : Fld := ⟨0xA008, 0x0, 0, 0, .ro, 0, 1⟩
def HST_MAC_ADDR_mac : Fld := ⟨0xA010, 0x0, 0, 47, .fixed, 0, 281474976710655⟩
def HST_SESSION_CTRL_session_kill : Fld := ⟨0xA018, 0x0, 8, 15, .wo, 0, 255⟩
def HST_IP_CFG_address_hi : Fld := ⟨0xA020, 0x0, 0, 63, .fixed, 0, 18446744073709551615⟩
def HST_IP_CFG_address_lo : Fld := ⟨0xA028, 0x0, 0, 63, .fixed, 0, 18446744073709551615⟩
def HST_IP_CFG_router_hi : Fld := ⟨0xA030, 0x0, 0, 63, .fixed, 0, 18446744073709551615⟩
def HST_IP_CFG_router_lo : Fld := ⟨0xA038, 0x0, 0, 63, .fixed, 0, 18446744073709551615⟩
def HST_IP_CFG_ptp_domain : Fld := ⟨0xA040, 0x0, 48, 55, .fixed, 0, 255⟩
def HST_IP_CFG_ubtik_port : Fld := ⟨0xA040, 0x0, 32, 47, .fixed, 0, 65535⟩
def HST_IP_CFG_dscp_bulk : Fld := ⟨0xA040, 0x0, 26, 31, .fixed, 0, 63⟩
def HST_IP_CFG_dscp_ctrl : Fld := ⟨0xA040, 0x0, 20, 25, .fixed, 0, 63⟩
def HST_IP_CFG_vlan : Fld := ⟨0xA040, 0x0, 8, 19, .fixed, 1, 4094⟩
def HST_IP_CFG_prefix : Fld := ⟨0xA040, 0x0, 0, 7, .fixed, 0, 255⟩
def SEC_STATUS_admit_fail : Fld := ⟨0xB000, 0x0, 48, 63, .ro, 0, 65535⟩
def SEC_STATUS_tag_fail : Fld := ⟨0xB000, 0x0, 32, 47, .ro, 0, 65535⟩
def SEC_STATUS_hs_fail : Fld := ⟨0xB000, 0x0, 16, 31, .ro, 0, 65535⟩
def SEC_STATUS_reason : Fld := ⟨0xB000, 0x0, 8, 11, .ro, 0, 15⟩
def SEC_STATUS_slot : Fld := ⟨0xB000, 0x0, 3, 3, .ro, 0, 1⟩
def SEC_STATUS_stage : Fld := ⟨0xB000, 0x0, 0, 2, .ro, 0, 7⟩
def SEC_PAGE_SEL_assoc : Fld := ⟨0xB008, 0x10000, 16, 26, .rw, 0, 2047⟩
def SEC_PAGE_SEL_page : Fld := ⟨0xB008, 0x10000, 0, 3, .rw, 0, 15⟩
def SEC_PAGE_CTRL_enc : Fld := ⟨0xB010, 0x10000, 3, 3, .fixed, 0, 1⟩
def SEC_PAGE_CTRL_job : Fld := ⟨0xB010, 0x10000, 1, 2, .fixed, 0, 3⟩
def SEC_PAGE_CTRL_bound : Fld := ⟨0xB010, 0x10000, 0, 0, .fixed, 0, 1⟩
def SEC_CMP_FAULT_fenced : Fld := ⟨0xB020, 0x0, 48, 50, .ro, 0, 7⟩
def SEC_CMP_FAULT_mismatch : Fld := ⟨0xB020, 0x0, 0, 47, .ro, 0, 281474976710655⟩
def FLT_LOG_PTR_select : Fld := ⟨0xC008, 0x10000, 32, 48, .rw, 0, 131071⟩
def FLT_CLASS_EN_absent_hold : Fld := ⟨0xC010, 0x0, 32, 47, .rw, 10, 10000⟩
def FLT_CLASS_EN_wedge_timeout : Fld := ⟨0xC010, 0x0, 16, 31, .rw, 1, 10000⟩
def FLT_CLASS_EN_notify : Fld := ⟨0xC010, 0x0, 0, 4, .rw, 0, 31⟩
def FLT_INJECT_go : Fld := ⟨0xC018, 0x0, 63, 63, .wo, 0, 1⟩
def FLT_INJECT_unit : Fld := ⟨0xC018, 0x0, 20, 31, .wo, 0, 4095⟩
def FLT_INJECT_class : Fld := ⟨0xC018, 0x0, 16, 18, .wo, 0, 7⟩
def FLT_INJECT_cause : Fld := ⟨0xC018, 0x0, 8, 15, .wo, 0, 255⟩
def FLT_INJECT_source : Fld := ⟨0xC018, 0x0, 0, 7, .wo, 0, 255⟩
def SVC_BIST_CTRL_channel : Fld := ⟨0xD010, 0x0, 40, 45, .rw, 0, 63⟩
def SVC_BIST_CTRL_stack : Fld := ⟨0xD010, 0x0, 32, 33, .rw, 0, 3⟩
def SVC_BIST_CTRL_tile : Fld := ⟨0xD010, 0x0, 16, 25, .rw, 0, 1023⟩
def SVC_BIST_CTRL_op : Fld := ⟨0xD010, 0x0, 0, 3, .wo, 0, 2⟩
def SVC_BIST_RESULT_time : Fld := ⟨0xD018, 0x0, 32, 63, .ro, 0, 4294967295⟩
def SVC_BIST_RESULT_unit : Fld := ⟨0xD018, 0x0, 8, 19, .ro, 0, 4095⟩
def SVC_BIST_RESULT_outcome : Fld := ⟨0xD018, 0x0, 4, 7, .ro, 0, 15⟩
def SVC_BIST_RESULT_kind : Fld := ⟨0xD018, 0x0, 0, 3, .ro, 0, 15⟩
def SVC_UPDATE_CTRL_version : Fld := ⟨0xD020, 0x0, 32, 63, .rw, 0, 4294967295⟩
def SVC_UPDATE_CTRL_v : Fld := ⟨0xD020, 0x0, 16, 31, .rw, 0, 65535⟩
def SVC_UPDATE_CTRL_target : Fld := ⟨0xD020, 0x0, 13, 13, .rw, 0, 1⟩
def SVC_UPDATE_CTRL_store : Fld := ⟨0xD020, 0x0, 12, 12, .rw, 0, 1⟩
def SVC_UPDATE_CTRL_mask : Fld := ⟨0xD020, 0x0, 8, 11, .rw, 0, 15⟩
def SVC_UPDATE_CTRL_status : Fld := ⟨0xD020, 0x0, 4, 7, .ro, 0, 15⟩
def SVC_UPDATE_CTRL_op : Fld := ⟨0xD020, 0x0, 0, 3, .wo, 0, 7⟩
def SVC_UPDATE_CTRL_addr : Fld := ⟨0xD028, 0x0, 0, 41, .rw, 0, 4398046511103⟩
def SVC_UPDATE_CTRL_len : Fld := ⟨0xD030, 0x0, 0, 31, .rw, 0, 4294967295⟩
def DBG_FREEZE_CTRL_pm_enter : Fld := ⟨0xE000, 0x0, 1, 1, .wo, 0, 1⟩
def DBG_FREEZE_CTRL_freeze : Fld := ⟨0xE000, 0x0, 0, 0, .rw, 0, 1⟩
def DBG_SCAN_CTRL_chain : Fld := ⟨0xE010, 0x0, 0, 11, .rw, 0, 4095⟩
def TILE_LEAD_MASK_lead : Fld := ⟨0x4080, 8, 0, 63, .fixed, 0, 0xFFFFFFFFFFFFFFFF⟩

/-- Writable fields by word offset at instance 0, part 0. -/
def fieldTable0 : List (Nat × List Fld) := [
  (0x1010, [PWR_MODE_mode]),
  (0x1018, [PWR_LIMIT_watts]),
  (0x2000, [TICK_PERIOD_ptp_wait, TICK_PERIOD_period]),
  (0x2008, [TICK_PHASE_phase]),
  (0x3000, [MEM_CTRL_ecc_clr, MEM_CTRL_patrol_en]),
  (0x3010, [MEM_REPAIR_CTRL_go, MEM_REPAIR_CTRL_repair_threshold, MEM_REPAIR_CTRL_spare, MEM_REPAIR_CTRL_channel, MEM_REPAIR_CTRL_stack, MEM_REPAIR_CTRL_auto_repair]),
  (0x3020, [MEM_GLOG_BASE_base]),
  (0x3028, [MEM_GLOG_SIZE_log_en, MEM_GLOG_SIZE_log_job, MEM_GLOG_SIZE_lag, MEM_GLOG_SIZE_size]),
  (0x3040, [MEM_STACK_STATUS_repair_wanted]),
  (0x3400, [MEM_CODEC_CFG_mode]),
  (0x4000, [TILE_SEL_ctx, TILE_SEL_tile]),
  (0x4008, [TILE_STATUS_async_err])]

/-- Writable fields by word offset at instance 0, part 1. -/
def fieldTable1 : List (Nat × List Fld) := [
  (0x4010, [TILE_CTX_CTRL_replay_entry, TILE_CTX_CTRL_entry, TILE_CTX_CTRL_enable]),
  (0x4018, [TILE_OVERRUN_overrun_flag]),
  (0x4020, [TILE_EXC_vec, TILE_EXC_cvt, TILE_EXC_acc_ovf, TILE_EXC_inv_sum, TILE_EXC_inv_prod]),
  (0x4080, [TILE_LEAD_MASK_lead]),
  (0x5000, [NUM_CTRL_rounding, NUM_CTRL_determinism]),
  (0x5008, [NUM_SEED_seed]),
  (0x5010, [NUM_EXC_SUMMARY_exc]),
  (0x6000, [STEP_CTRL_norm_limit, STEP_CTRL_max_attempts, STEP_CTRL_min_groups, STEP_CTRL_vote_timeout]),
  (0x6008, [STEP_CTRL_loss_tid, STEP_CTRL_rejoin, STEP_CTRL_host_abort]),
  (0x6018, [STEP_NUMBER_step]),
  (0x6020, [STEP_LEDGER_BASE_ledger_entries, STEP_LEDGER_BASE_ledger_base]),
  (0x6028, [STEP_DIGEST_CFG_reread_share, STEP_DIGEST_CFG_interval])]

/-- Writable fields by word offset at instance 0, part 2. -/
def fieldTable2 : List (Nat × List Fld) := [
  (0x7000, [FAB_PORT_CTRL_quarantine_release, FAB_PORT_CTRL_port_en]),
  (0x70A0, [FAB_LANE_MAP_rx_spare, FAB_LANE_MAP_rx, FAB_LANE_MAP_tx_spare, FAB_LANE_MAP_tx]),
  (0x7200, [FAB_CREDIT_CFG_e2e_timeout, FAB_CREDIT_CFG_buf 0, FAB_CREDIT_CFG_buf 1, FAB_CREDIT_CFG_buf 2, FAB_CREDIT_CFG_buf 3, FAB_CREDIT_CFG_buf 4, FAB_CREDIT_CFG_buf 5, FAB_CREDIT_CFG_buf 6, FAB_CREDIT_CFG_buf 7, FAB_CREDIT_CFG_buf 8, FAB_CREDIT_CFG_buf 9]),
  (0x7208, [FAB_COORD_site, FAB_COORD_dims, FAB_COORD_coord]),
  (0x7210, [FAB_TOPO_MODE_link_wait, FAB_TOPO_MODE_mode]),
  (0x7218, [FAB_BYPASS_STATUS_bypass_arm]),
  (0x8000, [CXE_CTRL_d_dims]),
  (0x8010, [CXE_EPOCH_arm, CXE_EPOCH_epoch_advance]),
  (0x8018, [CXE_EPOCH_next_table]),
  (0x8020, [CXE_BUCKET_CFG_bucket_bytes]),
  (0x9000, [DXE_CTRL_topk, DXE_CTRL_fed_shards, DXE_CTRL_h, DXE_CTRL_vfmt, DXE_CTRL_enable]),
  (0x9008, [DXE_CTRL_dxe_base])]

/-- Writable fields by word offset at instance 0, part 3. -/
def fieldTable3 : List (Nat × List Fld) := [
  (0x9010, [DXE_CTRL_mu, DXE_CTRL_eta]),
  (0x9018, [DXE_ROUND_s0]),
  (0x9020, [DXE_ROUND_d0]),
  (0x9028, [DXE_ROUND_t_round]),
  (0x9070, [DXE_WINDOW_store_bytes, DXE_WINDOW_window_bytes]),
  (0x9078, [DXE_WINDOW_store_base]),
  (0x9080, [DXE_STALE_CFG_stall_limit, DXE_STALE_CFG_drop_rounds, DXE_STALE_CFG_s_max]),
  (0x9088, [DXE_STALE_CFG_w2, DXE_STALE_CFG_w1]),
  (0x9090, [DXE_STALE_CFG_w3]),
  (0x9098, [DXE_PATH_STATUS_sel]),
  (0xA000, [HST_PORT_CTRL_bulk_window, HST_PORT_CTRL_stats_clr, HST_PORT_CTRL_pmd_sel]),
  (0xA010, [HST_MAC_ADDR_mac])]

/-- Writable fields by word offset at instance 0, part 4. -/
def fieldTable4 : List (Nat × List Fld) := [
  (0xA018, [HST_SESSION_CTRL_session_kill]),
  (0xA020, [HST_IP_CFG_address_hi]),
  (0xA028, [HST_IP_CFG_address_lo]),
  (0xA030, [HST_IP_CFG_router_hi]),
  (0xA038, [HST_IP_CFG_router_lo]),
  (0xA040, [HST_IP_CFG_ptp_domain, HST_IP_CFG_ubtik_port, HST_IP_CFG_dscp_bulk, HST_IP_CFG_dscp_ctrl, HST_IP_CFG_vlan, HST_IP_CFG_prefix]),
  (0xB008, [SEC_PAGE_SEL_assoc, SEC_PAGE_SEL_page]),
  (0xB010, [SEC_PAGE_CTRL_enc, SEC_PAGE_CTRL_job, SEC_PAGE_CTRL_bound]),
  (0xC008, [FLT_LOG_PTR_select]),
  (0xC010, [FLT_CLASS_EN_absent_hold, FLT_CLASS_EN_wedge_timeout, FLT_CLASS_EN_notify]),
  (0xC018, [FLT_INJECT_go, FLT_INJECT_unit, FLT_INJECT_class, FLT_INJECT_cause, FLT_INJECT_source]),
  (0xD010, [SVC_BIST_CTRL_channel, SVC_BIST_CTRL_stack, SVC_BIST_CTRL_tile, SVC_BIST_CTRL_op])]

/-- Writable fields by word offset at instance 0, part 5. -/
def fieldTable5 : List (Nat × List Fld) := [
  (0xD020, [SVC_UPDATE_CTRL_version, SVC_UPDATE_CTRL_v, SVC_UPDATE_CTRL_target, SVC_UPDATE_CTRL_store, SVC_UPDATE_CTRL_mask, SVC_UPDATE_CTRL_op]),
  (0xD028, [SVC_UPDATE_CTRL_addr]),
  (0xD030, [SVC_UPDATE_CTRL_len]),
  (0xE000, [DBG_FREEZE_CTRL_pm_enter, DBG_FREEZE_CTRL_freeze]),
  (0xE010, [DBG_SCAN_CTRL_chain])]

/-- The writable fields of each register word (Tables REG-3 to REG-12), by its offset at instance
0. Fields of TILE_LEAD_MASK and DBG_FREEZE_CTRL are among them; words that are not listed take no
write (R8, R9). -/
def fieldTable : List (Nat × List Fld) :=
  fieldTable0 ++
  fieldTable1 ++
  fieldTable2 ++
  fieldTable3 ++
  fieldTable4 ++
  fieldTable5

end Sys2Proof.Machine
end

