-- ==== Sys2Proof/Machine/Ops.lean ====
section
/-! DEFINITION. The named operations over the state that the meanings share: register words and
fields, tiles, jobs, ports, memory, outputs, notices, lantern entries. -/
namespace Sys2Proof.Machine

/-- The outcome of a command. -/
abbrev Res := Host.Outcome State Fault Refusal

/-! ## Register words (R402 to R409)

A word's key is its offset in the register window; words that a select register selects have 0x10000
times the selected unit added (tile, 4 × tile + context, page, session slot; slot 8 stands for the
configuration image, R405). -/

/-- The offset of a word at instance 0: jobs, ports and stacks taken off (Table REG-2). -/
def normal (key : Nat) : Nat :=
  let off := key % 0x10000
  let blk := off / 0x1000
  let o := off % 0x1000
  if blk = 5 ∨ blk = 6 ∨ blk = 8 ∨ blk = 9 then (if o < 0x400 then blk * 0x1000 + o % 0x100 else off)
  else if blk = 3 then
    (if 0x40 ≤ o ∧ o < 0x60 then 0x3040 else if 0x60 ≤ o ∧ o < 0x80 then 0x3060
     else if 0x80 ≤ o ∧ o < 0xA0 then 0x3080
     else if 0x400 ≤ o ∧ o < 0x800 then 0x3400 + o % 0x100 else off)
  else if blk = 4 then (if 0x80 ≤ o ∧ o < 0x100 then 0x4080 else off)
  else if blk = 7 then
    (if o < 0x50 then 0x7000 else if o < 0xA0 then 0x7050 else if o < 0xF0 then 0x70A0 else off)
  else off

/-- Reset values other than zero, by offset at instance 0 (Table REG-2). -/
def resetTable : List (Nat × Nat) := [
  (0x0000, 0x50530007B0060100), (0x0028, 0x012010040A040400), (0x1000, 0x0352073A),
  (0x1018, 0x640), (0x2000, 0x0000138800000010), (0x3000, 1), (0x3010, 0x000003E800000001),
  (0x3028, 0x0000000400010000), (0x4080, 0x0101010101010101),
  (0x6000, 0x080100C8), (0x6020, 0x0004000000000000), (0x6028, 0x0A000040),
  (0x7000, 1), (0x70A0, 0x46884688), (0x7200, 0x0000000A000AAAAA),
  (0x7208, 0x0000204081000000), (0x7210, 0x03E80000), (0x7218, 0xF00), (0x8020, 0x20),
  (0x9000, 0x0000001000020000), (0x9010, 0x3F6666663F333333), (0x9070, 0x00400020),
  (0x9080, 0x000A0802), (0x9088, 0x3E8000003F000000), (0x9090, 0x3E000000),
  (0xA000, 0x04000000), (0xA040, 0x0000B7A02AE00140), (0xB010, 8),
  (0xC010, 0x000000640064001F)]

/-- The reset value of a register word (R407, Table REG-2): for a selected register by its index. -/
def regReset (key : Nat) : Word :=
  let off := key % 0x10000
  let inst := key / 0x10000
  if off = 0x4010 then (if inst % 4 = 0 then 1 else 0)
  else if off = 0x4028 then BitVec.ofNat 64 (264 * (inst / 256) + inst % 256)
  else if 0x3100 ≤ off ∧ off < 0x3200 then
    BitVec.ofNat 64 (0x0706050403020100 + off % 0x40 * 0x0101010101010101)
  else BitVec.ofNat 64 ((assoc resetTable (normal key)).getD 0)

/-- A register word. -/
def State.reg (s : State) (key : Nat) : Nat := (look s.regs key (regReset key)).toNat

/-- A register word written by the device. -/
def State.setReg (s : State) (key v : Nat) : State :=
  { s with regs := store s.regs key (BitVec.ofNat 64 v) (regReset key) }

/-- The key of a field's word at an instance. -/
def Fld.key (f : Fld) (i : Nat) : Nat := f.word + f.stride * i

/-- A register field. -/
def State.fld (s : State) (f : Fld) (i : Nat := 0) : Nat := bits (s.reg (f.key i)) f.lo f.hi

/-- A register field written by the device. -/
def State.setFld (s : State) (f : Fld) (v : Nat) (i : Nat := 0) : State :=
  s.setReg (f.key i) (withBits (s.reg (f.key i)) f.lo f.hi v)

/-- A saturating counter field counts up (R407). -/
def State.count (s : State) (f : Fld) (n : Nat := 1) (i : Nat := 0) : State :=
  s.setFld f (satTo (f.hi + 1 - f.lo) (s.fld f i + n)) i

/-- Bits of a field set. -/
def State.orFld (s : State) (f : Fld) (v : Nat) (i : Nat := 0) : State :=
  s.setFld f (s.fld f i ||| v) i

/-! ## Parts of the state -/

def State.tile (s : State) (t : Nat) : Tile := look s.tiles t Tile.reset
def State.setTile (s : State) (t : Nat) (x : Tile) : State :=
  { s with tiles := store s.tiles t x Tile.reset }
def State.modTile (s : State) (t : Nat) (f : Tile → Tile) : State := s.setTile t (f (s.tile t))

def State.dom (s : State) (q : Nat) : Domain := look s.domains q Domain.reset
def State.modDom (s : State) (q : Nat) (f : Domain → Domain) : State :=
  { s with domains := store s.domains q (f (s.dom q)) Domain.reset }

def State.job (s : State) (j : Nat) : Job := look s.jobs j Job.reset
def State.setJob (s : State) (j : Nat) (x : Job) : State :=
  { s with jobs := store s.jobs j x Job.reset }
def State.modJob (s : State) (j : Nat) (f : Job → Job) : State := s.setJob j (f (s.job j))
def State.modAtt (s : State) (j : Nat) (f : Attempt → Attempt) : State :=
  s.modJob j (fun x => { x with att := f x.att })
def State.modLed (s : State) (j : Nat) (f : Ledger → Ledger) : State :=
  s.modJob j (fun x => { x with led := f x.led })
def State.modDxe (s : State) (j : Nat) (f : Dxe → Dxe) : State :=
  s.modJob j (fun x => { x with dxe := f x.dxe })

def State.port (s : State) (p : Nat) : Port := look s.ports p Port.reset
def State.modPort (s : State) (p : Nat) (f : Port → Port) : State :=
  { s with ports := store s.ports p (f (s.port p)) Port.reset }

def Tile.ctx (t : Tile) (c : Nat) : Ctx := if c = 0 then t.ctx0 else if c = 1 then t.ctx1 else t.ctx2
def Tile.setCtx (t : Tile) (c : Nat) (x : Ctx) : Tile :=
  if c = 0 then { t with ctx0 := x } else if c = 1 then { t with ctx1 := x } else { t with ctx2 := x }
def Tile.modCtx (t : Tile) (c : Nat) (f : Ctx → Ctx) : Tile := t.setCtx c (f (t.ctx c))

def State.setDev (s : State) (d : DevState) : State := { s with plat := { s.plat with dev := d } }
def State.modPlat (s : State) (f : Plat → Plat) : State := { s with plat := f s.plat }
def State.modClock (s : State) (f : Clock → Clock) : State := { s with clock := f s.clock }
def State.modRouter (s : State) (f : Router → Router) : State := { s with router := f s.router }
def State.modHost (s : State) (f : HostPort → HostPort) : State := { s with host := f s.host }
def State.modSec (s : State) (f : Sec → Sec) : State := { s with sec := f s.sec }
def State.modSvc (s : State) (f : Svc → Svc) : State := { s with svc := f s.svc }
def State.modSpares (s : State) (f : Spares → Spares) : State := { s with spares := f s.spares }

/-- What leaves the block is appended to its outputs (DESIGN CHOICE, log entry 4). -/
def State.emit (s : State) (o : Output) : State := { s with out := s.out ++ [o] }

/-- The next free value (DESIGN CHOICE, log entry 2), and the state with the counter advanced. -/
def State.draw (s : State) : BitVec 64 × State :=
  (Config.freeValue s.free, { s with free := s.free + 1 })

/-- A write is ignored and cfg_reject raised (R8, R9). -/
def State.cfgReject (s : State) : State := s.modPlat (fun p => { p with cfgReject := true })

/-! ## Numbers of the device -/

/-- Device state codes of Table BOT-6. -/
def DevState.code : DevState → Nat
  | .off => 0 | .reset => 1 | .boot => 2 | .train => 3 | .ready => 4 | .run => 5 | .drain => 6
  | .frozen => 7 | .postMortem => 8 | .fault => 9

/-- Phase codes of Table STP-2. -/
def Phase.code : Phase → Nat
  | .stopped => 0 | .opened => 1 | .voting => 2 | .committing => 3 | .aborting => 4
  | .repairing => 5

/-- Link state codes of FAB_PORT_STATUS. -/
def LinkSt.code : LinkSt → Nat
  | .disabled => 0 | .down => 1 | .train => 2 | .ident => 3 | .up => 4 | .quarantine => 5

/-- The four components of FAB_COORD coord, 6 bits each. -/
def State.coord (s : State) : List Nat :=
  (List.range 4).map (fun i => bits (s.fld FAB_COORD_coord) (6 * i) (6 * i + 5))

/-- The four torus dimensions, 7 bits each. -/
def State.dims (s : State) : List Nat :=
  (List.range 4).map (fun i => bits (s.fld FAB_COORD_dims) (7 * i) (7 * i + 6))

/-- A device index from a coordinate (R204): x + Dx × (y + Dy × (z + Dz × w)). -/
def indexOf (dims co : List Nat) : Nat :=
  co.getD 0 0 + dims.getD 0 1 * (co.getD 1 0 + dims.getD 1 1 * (co.getD 2 0 + dims.getD 2 1 * co.getD 3 0))

/-- A coordinate from a device index. -/
def coordOf (dims : List Nat) (n : Nat) : List Nat :=
  let dx := dims.getD 0 1
  let dy := dims.getD 1 1
  let dz := dims.getD 2 1
  [n % dx, n / dx % dy, n / dx / dy % dz, n / dx / dy / dz]

/-- The number of devices of the site's torus. -/
def State.devices (s : State) : Nat := s.dims.foldl (· * ·) 1

/-- The own device index. -/
def State.self (s : State) : Nat := indexOf s.dims s.coord

/-- The own global device index as origin fields hold it: site in [21:12], device in [11:0]. -/
def State.origin (s : State) : Nat := s.fld FAB_COORD_site * 4096 + s.self

/-- Quads as lists. -/
def quadList (q : Quad) : List Nat := [q.x.toNat, q.y.toNat, q.z.toNat, q.w.toNat]

/-! ## Jobs, stack domains, tiles (R13) -/

/-- The running job that owns a stack domain. -/
def State.owner (s : State) (q : Nat) : Option Nat :=
  (List.range 4).find? (fun j => (s.job j).running && (s.job j).mask.toNat.testBit q)

/-- The running job of a logical tile: tiles 256q to 256q + 255 lie in stack domain q. -/
def State.jobOfTile (s : State) (t : Nat) : Option Nat := s.owner (t / 256)

/-- The stack domains of a job. -/
def Job.domains (x : Job) : List Nat := setBitsOf x.mask.toNat 4

/-- The logical tiles of a job. -/
def Job.tiles (x : Job) : List Nat :=
  x.domains.flatMap (fun q => (List.range 256).map (256 * q + ·))

/-- The jobs that run. -/
def State.runningJobs (s : State) : List Nat := (List.range 4).filter (fun j => (s.job j).running)

/-- A logical tile is a lead tile (TILE_LEAD_MASK). -/
def State.isLead (s : State) (t : Nat) : Bool := (s.reg (0x4080 + 8 * (t / 64))).testBit (t % 64)

/-- Whether a context of a tile is enabled. -/
def State.ctxEnabled (s : State) (t c : Nat) : Bool := s.fld TILE_CTX_CTRL_enable (4 * t + c) = 1

/-- The step number of a job. -/
def State.step (s : State) (j : Nat) : Nat := s.fld STEP_NUMBER_step j

/-- The physical tile of a logical tile (TILE_MAP). -/
def State.phys (s : State) (t : Nat) : Nat := s.fld TILE_MAP_phys t

/-- A tile is busy: it runs a frame (R110). -/
def State.busy (s : State) (t : Nat) : Bool := (s.tile t).busy

/-- The tick period in ns. -/
def State.period (s : State) : Nat := 1000 * s.fld TICK_PERIOD_period

/-- A stack domain has been withdrawn (R352). -/
def State.withdrawn (s : State) (q : Nat) : Bool := s.fld MEM_STACK_STATUS_withdrawn q = 1

/-- The clock of the power mode in force, in MHz. -/
def State.coreMHz (s : State) : Nat := s.fld CLK_CORE_CFG_core_mhz

/-! ## Memory (R172, R175) -/

/-- The lines of 64 bytes that a range touches (R172). -/
def linesOf (a n : Nat) : List Nat :=
  if n = 0 then [] else (List.range ((a + n - 1) / 64 + 1 - a / 64)).map (fun i => 64 * (a / 64 + i))

/-- Bytes of a DRAM quarter: 72 GiB (Table MEM-2). -/
def quarter : Nat := 0x1200000000

/-- Bytes of DRAM. -/
def State.mem (s : State) (a n : Nat) : Bytes := rdN s.dram a n

/-- Write bytes of DRAM. A write of a whole line ends its being uncorrectable. -/
def State.setMem (s : State) (a : Nat) (bs : Bytes) : State :=
  { s with dram := wrN s.dram a bs,
           ue := s.ue.filter (fun l => !(decide (a ≤ l) && decide (l + 64 ≤ a + bs.length))) }

/-- Uncorrectable lines of a range. -/
def State.ueIn (s : State) (a n : Nat) : List Nat :=
  s.ue.filter (fun l => decide (l + 64 > a) && decide (l < a + n))

/-- A range lies in the DRAM quarters of a mask of stack domains (R13, Table MEM-2). -/
def inQuarters (mask a n : Nat) : Bool :=
  decide (0 < n) && decide (a + n ≤ 4 * quarter) &&
    (List.range 4).all (fun q => mask.testBit q ||
      decide (a + n ≤ q * quarter) || decide ((q + 1) * quarter ≤ a))

/-! ## Blocks that Lerhus watches (R353, R355, R366) -/

def blkPort : Nat := 1320
def blkCxe : Nat := 1330
def blkDxe : Nat := 1331
def blkHost : Nat := 1332
def blkLookup : Nat := 1334
def blkCodec : Nat := 1338
def blkRouter : Nat := 1342
def blkPair : Nat := 1352

/-- A block makes no progress: it is wedged, or its progress has been stopped by an injection. -/
def State.halted (s : State) (b : Nat) : Bool := s.svc.wedged.contains b || s.svc.stalled.any (fun x => decide (x.1 = b))

/-- The device state lets blocks other than Lerhus and the host port act: no clock runs in FROZEN, nothing runs in OFF,
and in POST-MORTEM and FAULT every other block has stopped (Table ARC-6, R22). -/
def State.blocksRun (s : State) : Bool :=
  match s.plat.dev with
  | .off | .frozen | .postMortem | .fault => false
  | _ => true

/-- What a block does while the device state lets it run; else nothing happens (R22). -/
def State.whenRuns (s : State) (r : Res) : Res := if s.blocksRun then r else .next s

/-- The device has clocks: it is not OFF and not FROZEN (Table ARC-6). -/
def State.clocked (s : State) : Bool := decide (s.plat.dev ≠ .off) && decide (s.plat.dev ≠ .frozen)

/-- What a timer or firmware does while the device has clocks; else nothing happens (R22). -/
def State.whenClocked (s : State) (r : Res) : Res := if s.clocked then r else .next s

/-! ## Datagrams and key epochs (R22, R305, R329, R333, R340) -/

/-- The device state lets the host port run (Table ARC-6). -/
def State.hostRuns (s : State) : Bool :=
  match s.plat.dev with
  | .train | .ready | .run | .drain | .postMortem => true
  | .fault => !s.plat.faultFromBoot && !s.plat.monitorOnly
  | _ => false

/-- The host port's link is up and the port runs. -/
def State.hostUp (s : State) : Bool := decide (s.fld HST_PORT_STATUS_link_up = 1) && s.hostRuns && !s.halted blkHost

/-- Encryption of a page is ON. -/
def State.pageEnc (s : State) (p : Nat) : Bool := decide (s.fld SEC_PAGE_CTRL_enc p = 1)

/-- The cipher engine pairs of Table SEC-10. -/
def pairTx : Nat := 0
def pairRx : Nat := 1
def pairBulk : Nat := 2

/-- A pair is fenced (SEC_CMP_FAULT). -/
def State.fencedPair (s : State) (p : Nat) : Bool := (s.fld SEC_CMP_FAULT_fenced).testBit p

/-- Tagged traffic of a pair passes; a session's passes the bulk pair when its own is fenced (R340). -/
def State.passes (s : State) (pair : Nat) (session : Bool) : Bool :=
  let p := if session && s.fencedPair pair then pairBulk else pair
  !s.fencedPair p && !s.halted (blkPair + p)

/-- A label of R325 and R327: an ASCII string with no terminator. -/
def label (t : String) : Bytes := t.toList.map (fun c => BitVec.ofNat 8 c.toNat)

/-- The AES-256 key and the salt of an epoch, from its chain value (R327). -/
def chainKeys (chain : BitVec 512) : BitVec 256 × BitVec 32 :=
  (Config.shake256 (label "KL7 key" ++ toLE 64 chain.toNat) 256, Config.shake256 (label "KL7 salt" ++ toLE 64 chain.toNat) 32)

/-- The chain value of the next epoch; the one before is erased (R327). -/
def nextChain (chain : BitVec 512) : BitVec 512 := Config.shake256 (label "KL7 next" ++ toLE 64 chain.toNat) 512

/-- A direction at its first epoch. -/
def Epochs.fresh (now : Nat) (chain : BitVec 512) : Epochs :=
  { current := 1, previous := none, seq := 0, since := now, wantNext := false, chain := chain, key := chainKeys chain, keyBefore := none }

/-- The next epoch is current, and the one before is held. -/
def Epochs.step (e : Epochs) (now : Nat) : Epochs :=
  { current := e.current + 1, previous := some e.current, seq := 0, since := now, wantNext := false, chain := nextChain e.chain,
    key := chainKeys (nextChain e.chain), keyBefore := some e.key }

/-- The nonce of a message under the current epoch, from the sequence number of its first datagram (Table SEC-7). -/
def Epochs.nonce (e : Epochs) (seq : Nat) : BitVec 96 :=
  BitVec.ofNat 96 (beNat (toLE 4 e.key.2.toNat) * 2 ^ 64 + e.current % 2 ^ 16 * 2 ^ 48 + seq % 2 ^ 32)

/-- A direction's epoch advances once no previous epoch is held (R333). -/
def Epochs.advance (e : Epochs) (now : Nat) : Epochs :=
  match e.previous with
  | none => e.step now
  | some _ => { e with wantNext := true }

/-- A message that does not fit in the sequence numbers left waits for the next epoch. -/
def Epochs.room (e : Epochs) (n now : Nat) : Epochs := if 2 ^ 32 < e.seq + n then e.advance now else e

/-- A direction cannot send a message now. -/
def Epochs.spent (e : Epochs) (n : Nat) : Bool := decide (2 ^ 32 < e.seq + n) || decide (65535 < e.current)

/-- A message takes its sequence numbers; the last one makes the epoch advance. -/
def Epochs.sent (e : Epochs) (n now : Nat) : Epochs :=
  if e.spent n then e
  else
    let e := { e with seq := e.seq + n }
    if e.seq = 2 ^ 32 then e.advance now else e

/-! ## Turns of shared blocks (R14) -/

/-- Of the jobs that wait, the one that a shared block serves next: one never served, or the one served longest ago. -/
def nextTurn (served waiting : List Nat) : Option Nat :=
  match waiting.find? (fun j => !served.contains j) with
  | some j => some j
  | none => served.reverse.find? waiting.contains

/-- A job has been served. -/
def toFront (j : Nat) (served : List Nat) : List Nat := j :: served.filter (fun k => decide (k ≠ j))

/-- It is a job's turn at a shared block among those that wait. -/
def State.hasTurn (s : State) (blk j : Nat) (waiting : List Nat) : Bool := decide (nextTurn (look s.turns blk []) waiting = some j)

/-- A shared block has served a job. -/
def State.tookTurn (s : State) (blk j : Nat) : State := { s with turns := store s.turns blk (toFront j (look s.turns blk [])) [] }

/-! ## The cipher engine pairs (R338, R341, R342) -/

/-- The 16-byte blocks of a message. -/
def EngineMsg.blocks (m : EngineMsg) : Nat := (m.len + 15) / 16

/-- The message that is next among those of one kind: of the job whose turn it is, the first. -/
def Pair.pick (p : Pair) (urgent : Bool) : Option EngineMsg :=
  let ms := p.waiting.filter (fun m => decide (m.urgent = urgent))
  match nextTurn p.served (ms.map (·.job)) with
  | none => none
  | some j => ms.find? (fun m => decide (m.job = j))

/-- A message is started. -/
def Pair.start (p : Pair) (m : EngineMsg) : Pair :=
  { p with current := some m, waiting := p.waiting.erase m, served := toFront m.job p.served }

/-- The bytes that the message in progress and the suspended one hold of the 64 KiB buffer. -/
def Pair.held (p : Pair) : Nat := ((p.current.map (·.len)).getD 0) + ((p.suspended.map (·.len)).getD 0)

/-- What a pair does next: it suspends a message after its block when an urgent one waits that fits, goes on by one 16-byte
block, resumes the suspended message, or starts another, urgent ones first (R342). -/
def Pair.step (p : Pair) : Pair :=
  match p.current with
  | some m =>
    if !m.urgent && p.suspended.isNone && (p.pick true).any (fun u => decide (p.held + u.len ≤ 65536)) then
      { p with current := none, suspended := some m }
    else if m.blocks ≤ m.counter + 1 then { p with current := none }
    else { p with current := some { m with counter := m.counter + 1 } }
  | none =>
    match p.pick true with
    | some u => p.start u
    | none => match p.suspended with
      | some m => { p with current := some m, suspended := none }
      | none => match p.pick false with
        | some m => p.start m
        | none => p

/-- A pair at work for a number of steps. -/
def Pair.run : Nat → Pair → Pair
  | 0, p => p
  | n + 1, p => p.step.run n

/-- A message passes a pair. No command divides one: the pair works until it stands idle (DESIGN CHOICE, log entry 129). -/
def State.through (s : State) (n : Nat) (urgent : Bool) (job len : Nat) : State :=
  let m : EngineMsg := { urgent := urgent, job := job, len := len, counter := 0 }
  s.modSec (fun x =>
    let p := look x.pairs n Pair.reset
    { x with pairs := store x.pairs n (Pair.run (m.blocks + 3) { p with waiting := p.waiting ++ [m] }) Pair.reset })

/-! ## Heads of datagrams (R302, R303, R305, R306, R325) -/

/-- The UDP port of Ubtik. A peer device's is taken to be the same (DESIGN CHOICE, log entry 4). -/
def State.ubPort (s : State) : BitVec 16 := BitVec.ofNat 16 (s.fld HST_IP_CFG_ubtik_port)

/-- A field of a job's exchange configuration block (R282). -/
def State.dxeWord (s : State) (j o n : Nat) : Nat := leNat (s.mem (s.fld DXE_CTRL_dxe_base j + o) n)

/-- The primary or secondary path of the entry at an offset of the configuration block (Tables DXR-12, DXR-13). -/
def State.entryPath (s : State) (j o : Nat) (second : Bool) : NetPath :=
  let k := if second then 8 else 0
  { addr := BitVec.ofNat 128 (beNat (s.mem (s.fld DXE_CTRL_dxe_base j + o + 32) 16)), port := s.ubPort,
    vlan := BitVec.ofNat 12 (s.dxeWord j (o + 52 + k) 2), flow := BitVec.ofNat 20 (s.dxeWord j (o + 48 + k) 4) }

/-- The offset of the entry that names a device: a shard-partner entry, or a site-lead entry. -/
def State.entryOf (s : State) (j : Nat) (dev : BitVec 32) : Option Nat :=
  let ps := (List.range (min 16777216 (s.dxeWord j 12 4))).map (fun k => s.dxeWord j 32 8 + 64 * k)
  let ls := (List.range (min 1024 (s.dxeWord j 16 2))).map (fun k => s.dxeWord j 40 8 + 64 * k)
  match ps.find? (fun o => decide (s.dxeWord j (o + 8) 4 = dev.toNat)) with
  | some o => some o
  | none => ls.find? (fun o => decide (s.dxeWord j (o + 4) 4 = dev.toNat))

/-- The path to a partner device or site lead: the active one of a partner, the primary of any other (R275, R306). A device
that no entry names has none. -/
def State.peerPath (s : State) (j : Nat) (dev : BitVec 32) (second : Option Bool) : NetPath :=
  let active := ((s.job j).dxe.peers.find? (fun p => decide (p.dev = dev))).any (·.second)
  match s.entryOf j dev with
  | some o => s.entryPath j o (second.getD active)
  | none => { addr := 0, port := s.ubPort, vlan := BitVec.ofNat 12 (s.fld HST_IP_CFG_vlan), flow := 0 }

/-- The class of a datagram (Table HST-3). -/
def Output.cls : Output → Nat
  | .bulk _ _ _ _ _ => 2
  | .bulkRequest _ _ _ _ _ => 2
  | .blocks _ _ => 3
  | .table _ _ => 4
  | .fragment _ _ _ _ _ => 5
  | .ack _ nack _ => if nack then 7 else 6
  | .heart _ _ => 8
  | _ => 1

/-- The bytes of its payload: Tables HST-2 to HST-7, DXC-1, DXC-2, DXR-6 and SEC-5, and R313 and R317. -/
def Output.payload : Output → Nat
  | .response _ _ _ r => 4 + r.data.length
  | .notice _ _ => 24
  | .bulk _ _ _ d _ => 16 + d.length
  | .bulkRequest _ _ _ _ _ => 36
  | .blocks _ bs => (bs.map (fun b => 32 + b.body.length)).sum
  | .table _ t => if t.retire then 16 else if t.fp4 then 152 else 272
  | .fragment _ _ _ _ d => 4 + d.length
  | .ack _ _ b => 16 + 12 * b.entries.length
  | .heart _ _ => 20
  | .init _ _ => 80
  | .resp _ _ q => 384 + q.length
  | .fin _ _ => 309
  | .log es => 4 + 72 * es.length
  | _ => 0

/-- The flags: last (64) and response (32); the tagged flag is added where a trailer follows. -/
def Output.flags : Output → Nat
  | .response _ _ _ _ => 32
  | .bulk _ _ _ _ last => if last then 64 else 0
  | .fragment _ _ i n _ => if i + 1 = n then 64 else 0
  | _ => 0

/-- The msg field. -/
def Output.msgField : Output → BitVec 64
  | .response _ m _ _ => m
  | .notice _ n => BitVec.ofNat 64 n.number
  | .bulk x _ _ _ _ => BitVec.ofNat 64 x
  | .fragment _ m _ _ _ => m
  | _ => 0

/-- The DSCP of a class: that of the bulk classes for BULK, DELTA and TABLE (R306). -/
def State.dscpOf (s : State) (cls : Nat) : Nat := if [2, 3, 4].contains cls then s.fld HST_IP_CFG_dscp_bulk else s.fld HST_IP_CFG_dscp_ctrl

/-- The head of a datagram under an association, untagged and unnumbered (R303, R306, R331). -/
def State.headOf (s : State) (a : Assoc) (o : Output) : Head :=
  let job (p : Nat) : Nat := s.fld SEC_PAGE_CTRL_job p
  let base (path : NetPath) (page : Nat) (ctx dst : BitVec 32) : Head :=
    { path := path, dscp := s.dscpOf o.cls, cls := o.cls, flags := o.flags, page := page, context := ctx, src := BitVec.ofNat 32 s.origin, dst := dst,
      keyEpoch := 0, length := o.payload, seq := 0, msg := o.msgField, nonce := none, trailer := none }
  if a.kind = 1 then
    let x := (assoc s.host.sessions a.slot)
    let path := (x.map (·.path)).getD { addr := 0, port := 0, vlan := 0, flow := 0 }
    let id := (x.map (·.id)).getD 0
    let bulk (n : Nat) := s.host.bulks.find? (fun b => decide (b.id = n) && b.host)
    match o with
    | .bulk n _ _ _ _ => match bulk n with
      | some b => base { path with port := b.udp } b.page (s.job (job b.page)).fedJob 0xFFFFFFFF
      | none => base path 0xFF id 0xFFFFFFFF
    | .ack _ _ b => match bulk b.ref.toNat with
      | some b => base path b.page (s.job (job b.page)).fedJob 0xFFFFFFFF
      | none => base path 0xFF id 0xFFFFFFFF
    | _ => base path 0xFF id 0xFFFFFFFF
  else
    let j := job a.page
    let second := match o with
      | .heart _ h => some h.secondary
      | _ => none
    base (s.peerPath j a.peer second) a.page (s.job j).fedJob a.peer

/-- The next hop of an address: itself within the prefix or as a link-local address, else the default router. -/
def State.nextHop (s : State) (a : BitVec 128) : BitVec 128 :=
  let own := BitVec.ofNat 128 (s.fld HST_IP_CFG_address_hi * 2 ^ 64 + s.fld HST_IP_CFG_address_lo)
  let n := min 128 (s.fld HST_IP_CFG_prefix)
  if a.toNat / 2 ^ (128 - n) = own.toNat / 2 ^ (128 - n) ∨ a.toNat / 2 ^ 118 = 0xFE80 / 2 ^ 6 then a
  else BitVec.ofNat 128 (s.fld HST_IP_CFG_router_hi * 2 ^ 64 + s.fld HST_IP_CFG_router_lo)

/-- A neighbour is resolved: a solicitation leaves for one that is not known. No command brings the answer: it is taken as
come (R302, DESIGN CHOICE, log entry 130). -/
def State.resolve (s : State) (a : BitVec 128) : State :=
  let hop := s.nextHop a
  if s.host.neighbours.contains hop then s
  else (s.emit (.solicit hop)).modHost (fun h => { h with neighbours := h.neighbours ++ [hop] })

/-- A frame leaves the host port while the link is up. -/
def State.net (s : State) (o : Output) : State := if s.hostUp then s.emit o else s

/-- A datagram leaves the host port while the link is up. -/
def State.udp (s : State) (h : Head) (o : Output) : State := if s.hostUp then (s.resolve h.path.addr).emit (.udp h o) else s

/-- The bytes of a Ubtik header (Table HST-2). -/
def Head.bytes (h : Head) : Bytes :=
  [1] ++ toBE 1 h.cls ++ toBE 1 h.flags ++ toBE 1 h.page ++ toBE 4 h.context.toNat ++ toBE 4 h.src.toNat ++ toBE 4 h.dst.toNat ++
    toBE 2 h.keyEpoch ++ toBE 2 h.length ++ toBE 4 h.seq ++ toBE 8 h.msg.toNat

/-- The tag of a handshake datagram: over an empty plaintext, under a key made of the initiator's nonce, which is big-endian
as it travels (R325). -/
def shakeTag (nonce : BitVec 128) (header : Bytes) : BitVec 128 :=
  Config.gcmTag (Config.shake256 (label "KL7 hs" ++ toBE 16 nonce.toNat) 256) header

/-- A handshake datagram leaves, tagged under key_epoch 0 and the nonce of its INIT; those of kind 1 also by the bulk pair
(R325, R340). -/
def State.shakeNet (s : State) (kind : BitVec 8) (path : NetPath) (dst : BitVec 32) (nonce : BitVec 128) (o : Output) : State :=
  if s.passes pairTx (decide (kind = 1)) then
    let h : Head :=
      { path := path, dscp := s.dscpOf 1, cls := 1, flags := 128, page := 0xFF, context := 0, src := BitVec.ofNat 32 s.origin, dst := dst,
        keyEpoch := 0, length := o.payload, seq := 0, msg := 0, nonce := none, trailer := none }
    s.udp { h with trailer := some (shakeTag nonce h.bytes) } o
  else s

/-- A handshake that this device initiates begins with INIT (R324, R325). -/
def startShake (s : State) (kind page : Nat) (peer : BitVec 32) : State :=
  let path := s.peerPath (s.fld SEC_PAGE_CTRL_job page) peer none
  let b : InitBody :=
    { kind := BitVec.ofNat 8 kind, flags := BitVec.ofNat 8 (4 * ofBool (s.pageEnc page)), page := BitVec.ofNat 8 page,
      nonce := (Config.random s.free).setWidth 128, eph := Config.x448Public (Config.random (s.free + 1)), src := BitVec.ofNat 32 s.origin, path := path }
  let h : Shake := { initiator := true, peer := peer, attempts := 1, secret := Config.random (s.free + 1), init := b, resp := none }
  let s := (s.modSec (fun x => { x with shakes := x.shakes ++ [h] })).shakeNet b.kind path peer b.nonce (.init peer b)
  { s with free := s.free + 2 }

/-- An association whose direction has passed epoch 65,535 ends: a session closes with its keys, another is opened
anew by its initiator (R327). -/
def endAssocs (s : State) : State :=
  let past (a : Assoc) : Bool := decide (65535 < a.tx.current) || decide (65535 < a.rx.current)
  let gone := s.sec.assocs.filter past
  gone.foldl (fun s a =>
      if a.kind = 1 then s.modHost (fun h => { h with sessions := h.sessions.filter (fun p => decide (p.1 ≠ a.slot)) })
      else if s.origin < a.peer.toNat then startShake s a.kind.toNat a.page a.peer else s)
    (s.modSec (fun x => { x with assocs := x.assocs.filter (fun a => !past a) }))

/-- An association's transmit epochs set. -/
def State.setTx (s : State) (a : Assoc) (e : Epochs) : State :=
  s.modSec (fun x => { x with assocs := modFirst (fun b => decide (b.page = a.page) && decide (b.slot = a.slot)) (fun b => { b with tx := e }) x.assocs })

/-- The pair that a datagram of an association passes on transmit (Table SEC-10, R340). -/
def State.txPair (s : State) (a : Assoc) (o : Output) : Nat :=
  if o.cls = 2 ∨ (a.kind = 1 ∧ s.fencedPair pairTx) then pairBulk else pairTx

/-- A message of a class is urgent in its pair; `host` says that it is a host's (Table SEC-10, R340). -/
def urgentClass (host : Bool) (cls : Nat) : Bool := if cls = 2 then !host else !([3, 4].contains cls)

/-- Datagrams leave, each with its head. -/
def State.udps (s : State) (ds : List (Head × Output)) : State := ds.foldl (fun s d => s.udp d.1 d.2) s

/-- An epoch is held by its direction. -/
def Epochs.holds (e : Epochs) (n : Nat) : Bool := decide (n = e.current) || decide (e.previous = some n)

/-- The datagrams of a message as they were sent before under an epoch that is still held (R336). -/
def State.sentBefore (s : State) (a : Assoc) (os : List Output) : Option (List (Head × Output)) :=
  (s.kept.find? (fun k => decide (k.1 = a.page) && decide (k.2.1 = a.slot) && decide (k.2.2.map (·.2) = os) && k.2.2.all (fun d => a.tx.holds d.1.keyEpoch))).map
    (·.2.2)

/-- Datagrams of DELTA, TABLE and BULK are kept while their epoch is held (R336, DEDUCED, log entry 24). -/
def State.keep (s : State) (a : Assoc) (e : Epochs) (ds : List (Head × Output)) : State :=
  if ds.all (fun d => [2, 3, 4].contains d.2.cls) then
    { s with kept := s.kept.filter (fun k => decide (k.1 ≠ a.page) || decide (k.2.1 ≠ a.slot) || k.2.2.all (fun d => e.holds d.1.keyEpoch)) ++ [(a.page, a.slot, ds)] }
  else s

/-- The tagged datagrams of a new message: consecutive sequence numbers, and each its nonce; those of a BULK segment are one message
with the nonce of the first (R330, R333). -/
def State.tagged (s : State) (a : Assoc) (e : Epochs) (os : List Output) : List (Head × Output) :=
  (os.zipIdx).map (fun p =>
    let h := s.headOf a p.1
    ({ h with flags := h.flags + 128, keyEpoch := e.current, seq := e.seq + p.2, nonce := some (e.nonce (if p.1.cls = 2 then e.seq else e.seq + p.2)) },
      p.1))

/-- A message of one or more datagrams leaves under the association that it goes by: tagged, it passes its pair and takes
sequence numbers; when the direction can send nothing, nothing leaves (R333). One sent before whose datagrams are kept goes as it
went, on the path of now (R336). Without an association nothing leaves (R324). -/
def State.sendBy (s : State) (by' : Assoc → Bool) (passes : Bool) (os : List Output) : State :=
  match s.sec.assocs.find? by' with
  | none => s
  | some a =>
    if a.kind = 1 || s.pageEnc a.page then
      match s.sentBefore a os with
      | some ds => if passes then s.udps (ds.map (fun d => ({ d.1 with path := (s.headOf a d.2).path }, d.2))) else s
      | none =>
        let now := s.clock.uptime
        let e := a.tx.room os.length now
        if !passes || e.spent os.length then endAssocs (s.setTx a e)
        else
          let ds := s.tagged a e os
          let s := (s.setTx a (e.sent os.length now)).through (s.txPair a (os.headD (.log []))) (urgentClass (decide (a.kind = 1)) (os.headD (.log [])).cls)
            (if a.kind = 1 then 4 else s.fld SEC_PAGE_CTRL_job a.page) ((os.map (·.payload)).sum)
          endAssocs ((s.keep a e ds).udps ds)
    else s.udps (os.map (fun o => (s.headOf a o, o)))

/-- The association that a message of a job goes by (R324). -/
def sentUnder (o : Output) (a : Assoc) : Bool :=
  let partner (p : BitVec 32) : Bool := decide (a.kind = 2) && decide (a.peer = p)
  let lead (p : BitVec 32) : Bool := decide (a.kind = 3) && decide (a.peer = p)
  match o with
  | .blocks p _ => partner p
  | .table p _ => partner p
  | .heart p _ => partner p
  | .ack p _ b => if b.cls = 5 then lead p else partner p
  | .bulkRequest p _ _ _ _ => partner p
  | .fragment p _ _ _ _ => lead p
  | _ => false

/-- An association lies in a page of a job (R343). -/
def State.ofJob (s : State) (j : Nat) (a : Assoc) : Bool :=
  decide (a.kind ≠ 1) && decide (s.fld SEC_PAGE_CTRL_bound a.page = 1) && decide (s.fld SEC_PAGE_CTRL_job a.page = j)

/-- A message of a job leaves the host port. -/
def State.sendFor (s : State) (j : Nat) (o : Output) : State :=
  let ok := if o.cls = 2 then s.passes pairBulk false else s.passes pairTx false
  s.sendBy (fun a => sentUnder o a && s.ofJob j a) ok [o]

/-- A response or notice of a session leaves the host port (R331). -/
def State.sendTo (s : State) (slot : Nat) (o : Output) : State :=
  s.sendBy (fun a => decide (a.kind = 1) && decide (a.slot = slot)) (s.passes pairTx true) [o]

/-! ## Sessions and notices (R309, R317) -/

/-- A session slot's record set. -/
def State.setSession (s : State) (slot : Nat) (x : Session) : State :=
  s.modHost (fun h => { h with sessions := assocSet h.sessions slot x })

/-- Send a notice to one session. -/
def sendNotice (s : State) (slot code job : Nat) (arg : Nat) : State :=
  match assoc s.host.sessions slot with
  | none => s
  | some x =>
    if x.notices.length < 256 then
      let n : Notice := ⟨x.noticeNext, code, BitVec.ofNat 8 job, s.clock.siteTime, BitVec.ofNat 64 arg⟩
      (s.setSession slot { x with notices := x.notices ++ [n], noticeNext := x.noticeNext + 1 }).sendTo slot
        (.notice x.id n)
    else
      s.setSession slot { x with dropped := x.dropped + 1 }

/-- The host is told: a notice to every session subscribed to its code (R317). Job 0xFF stands for
the device. -/
def State.notify (s : State) (code job arg : Nat) : State :=
  s.host.sessions.foldl (fun s p => if p.2.mask.toNat.testBit code then sendNotice s p.1 code job arg
    else s) s

/-- The device enters a state and says so (R398, R399: notice 1). -/
def State.enter (s : State) (d : DevState) : State := (s.setDev d).notify 1 0xFF d.code

/-! ## Derived words GEN_STATE and FLT_STATUS -/

/-- GEN_STATE (Table REG-3); stage_pending for CLK is set from the acceptance of a PWR_MODE write to its landing
(R423). -/
def State.genState (s : State) : Nat :=
  s.plat.dev.code + (ofBool s.plat.cfgReject) * 16 +
    (maskOf s.runningJobs) * 256 + s.plat.cause.toNat * 65536 +
    (maskOf (s.staged.map (·.block)) ||| (match s.plat.pwr with
      | .rising _ => 2
      | _ => 0)) * 2 ^ 32

/-- FLT_STATUS records the latest fault of a class (R348). -/
def State.fltStatus (s : State) (cls source cause : Nat) : State :=
  if cls ≤ 4 then
    s.setReg 0xC000 (withBits (s.reg 0xC000) (12 * cls) (12 * cls + 11) (source % 16 * 256 + cause % 256))
  else s

/-! ## The lantern log (R364 to R368) -/

/-- The slot after the newest entry. -/
def Lantern.nextSlot (l : Lantern) : Nat :=
  if l.entries.isEmpty then 0 else (l.newest + 1) % 131072

/-- Detail bytes that the spec does not fix: free values (DESIGN CHOICE, log entry 2). -/
def detailFree (n : Nat) : Bytes := (List.range 17).flatMap (fun i => toLE 8 (Config.freeValue (n + i)).toNat)

/-- Write a lantern entry and tell the host (R364, R367, notice 8); it reads back as written (DESIGN CHOICE, log entry 136).
`detail` is given for a boot entry, where the first 64 bytes hold M. -/
def logEntry (s : State) (cls source cause action jobs loc0 loc1 : Nat) (inj : Bool)
    (detail : Option Bytes := none) : State :=
  let s := s.fltStatus cls source cause
  let l := s.lantern
  if !l.present then s
  else
    let slot := l.nextSlot
    let e : LogEntry :=
      { cls := BitVec.ofNat 8 cls, bootCount := l.bootCount, seq := l.seq + 1,
        siteTime := if s.fld PTP_STATUS_lock = 1 then s.clock.siteTime else 0,
        uptime := s.clock.uptime, source := BitVec.ofNat 8 source, cause := BitVec.ofNat 8 cause,
        action := BitVec.ofNat 8 action, state := BitVec.ofNat 8 s.plat.dev.code,
        jobMask := BitVec.ofNat 8 jobs, flags := BitVec.ofNat 8 (ofBool inj + 4 * ofBool l.lost),
        step0 := BitVec.ofNat 64 (s.step 0), step1 := BitVec.ofNat 64 (s.step 1),
        step2 := BitVec.ofNat 64 (s.step 2), step3 := BitVec.ofNat 64 (s.step 3),
        loc0 := BitVec.ofNat 64 loc0, loc1 := BitVec.ofNat 64 loc1,
        fltStatus := BitVec.ofNat 64 (s.reg 0xC000), genState := BitVec.ofNat 64 s.genState,
        detail := detail.getD (detailFree s.free), good := true }
    let s := { s with
      lantern := { l with entries := assocSet l.entries slot e, newest := slot, seq := l.seq + 1,
                          lost := false }
      free := match detail with | some _ => s.free | none => s.free + 17 }
    if cls ≤ 4 ∧ (s.fld FLT_CLASS_EN_notify).testBit cls then
      s.notify 8 (match setBitsOf jobs 4 with | j :: _ => j | [] => 0xFF) slot
    else s

/-! ## Pins and bypass (R223) -/

/-- Output pins, by number: bypass drive, LS_EN, THERM_ALERT. -/
def pinBypass : Nat := 0
def pinLsEn : Nat := 1
def pinTherm : Nat := 2

/-- The four bypass switches close or open. -/
def setBypass (s : State) (closed : Bool) : State :=
  let v := if closed then 0xF else 0
  if s.fld FAB_BYPASS_STATUS_closed = v then s
  else (s.setFld FAB_BYPASS_STATUS_closed v).emit (.pin pinBypass closed)

end Sys2Proof.Machine
end

