-- ==== Sys2Proof/Machine/Contexts.lean ====
section
/-! DEFINITION. Sequencer contexts: scalar registers, event counters, what is in flight, and the
resumption of waiting contexts (R110, R115, R119, R130 to R132). -/
namespace Sys2Proof.Machine

/-- Scalar register r: s0 reads as zero (R119). -/
def Ctx.sreg (x : Ctx) (r : Nat) : Word := if r = 0 then 0 else look x.regs r 0

/-- Write a scalar register: a write to s0 is ignored (R119). -/
def Ctx.setSreg (x : Ctx) (r : Nat) (v : Word) : Ctx :=
  if r = 0 then x else { x with regs := store x.regs r v 0 }

/-- A tile's predicate: p0 reads as all ones (R95). -/
def Tile.pred (t : Tile) (p : Nat) : Word := if p = 0 then BitVec.allOnes 64 else look t.preds p 0

/-- Write a predicate: a write to p0 is ignored (R95). -/
def Tile.setPred (t : Tile) (p : Nat) (v : Word) : Tile :=
  if p = 0 then t else { t with preds := store t.preds p v 0 }

/-- An event counter (R130). -/
def Tile.event (t : Tile) (e : Nat) : BitVec 32 := look t.events e 0

def Tile.setEvent (t : Tile) (e : Nat) (v : BitVec 32) : Tile :=
  { t with events := store t.events e v 0 }

def Tile.addEvent (t : Tile) (e : Nat) (v : BitVec 32) : Tile := t.setEvent e (t.event e + v)

/-- The order numbers of a context's matrix, vector, load and store instructions in flight. -/
def Tile.syncOps (t : Tile) (c : Nat) : List Nat :=
  (t.mms.filter (fun m => m.ctx = c)).map (·.op) ++ (t.vcs.filter (fun v => v.ctx = c)).map (·.op) ++
    (t.ls.filter (fun l => l.ctx = c)).map (·.op)

/-- No synchronous instruction of a context is in flight, EVADD included (R110). -/
def Tile.syncDone (t : Tile) (c : Nat) : Bool :=
  (t.syncOps c).isEmpty && !(t.evadds.any (fun e => e.2.1 = c))

/-- Apply each EVADD whose earlier synchronous instructions have completed (R131). -/
def Tile.applyEvadds (t : Tile) : Tile :=
  let ready (e : Nat × Nat × Nat × BitVec 32) : Bool := (t.syncOps e.2.1).all (fun o => decide (e.1 < o))
  (t.evadds.filter ready).foldl (fun t e => t.addEvent e.2.2.1 e.2.2.2)
    { t with evadds := t.evadds.filter (fun e => !ready e) }

/-- The ordering class bit of an asynchronous instruction in a fence mask (Table PRG-9). -/
def AsyncKind.fenceBit : AsyncKind → Option Nat
  | .dma _ => some 1
  | .put c => some (2 + c % 4)
  | .get => some 6
  | .launch => some 7
  | .dclose _ => none

/-- A fence of a context holds no longer (R132). -/
def Tile.fenceMet (t : Tile) (c : Nat) (mask : BitVec 8) : Bool :=
  (!mask.toNat.testBit 0 || !(t.ls.any (fun l => l.ctx = c))) &&
    t.asyncs.all (fun a => a.ctx ≠ c || (match a.kind.fenceBit with
      | some b => !mask.toNat.testBit b
      | none => true))

/-- A wait on an event counter is met (R130). -/
def Tile.waitMet (t : Tile) (e : Nat) (v : BitVec 32) : Bool := decide (0 ≤ (t.event e - v).toInt)

/-- A context that waits on an event or a fence goes on once the condition holds. -/
def Tile.resume (t : Tile) (c : Nat) : Tile :=
  match (t.ctx c).run with
  | .wait e v => if t.waitMet e v then t.modCtx c (fun x => { x with run := .running }) else t
  | .fence m => if t.fenceMet c m then t.modCtx c (fun x => { x with run := .running }) else t
  | _ => t

/-- The context takes no further part in the frame (R110, R114). -/
def CtxRun.atEnd : CtxRun → Bool
  | .idle => true
  | .ended => true
  | _ => false

/-- What follows of itself from a change in a tile: EVADDs apply, waiting contexts resume, and the
tile is idle once its contexts have ended, or once its synchronous instructions are done after a
rejection (R110, R128). A context found held is looked at again (R116). -/
def State.settle (s : State) (t : Nat) : State :=
  let x := ((s.tile t).applyEvadds.resume 0).resume 1 |>.resume 2
  let done := x.ctx0.run.atEnd && x.ctx1.run.atEnd && x.ctx2.run.atEnd
  let quiet := x.mms.isEmpty && x.vcs.isEmpty && x.ls.isEmpty && x.evadds.isEmpty
  s.setTile t { x with passed := [], busy := x.busy && !(if x.rejected then quiet else done) }

/-- Change every listed tile that a test names. Tiles that are not listed are as after reset. -/
def State.forTiles (s : State) (p : Nat → Bool) (f : State → Nat → State) : State :=
  (s.tiles.map (·.1)).foldl (fun s t => if p t then f s t else s) s

/-- A logical tile lies in the stack domains of a job. -/
def Job.hasTile (x : Job) (t : Nat) : Bool := x.mask.toNat.testBit (t / 256)

/-! ## Release at an abort (R142) -/

/-- A context blocked in WAIT, FENCE, SYNC or CEFENCE ends its frame with its next entry at
replay_entry; one blocked in SCOMMIT gets 1 and goes on. -/
def Ctx.release (x : Ctx) (replay : Nat) : Ctx :=
  match x.run with
  | .wait _ _ => { x with run := .ended, next := replay }
  | .fence _ => { x with run := .ended, next := replay }
  | .sync _ => { x with run := .ended, next := replay }
  | .cefence _ => { x with run := .ended, next := replay }
  | .scommit sd => { x.setSreg sd 1 with run := .running }
  | _ => x

/-- Release the blocked contexts of a tile. -/
def releaseTile (s : State) (t : Nat) : State :=
  let f (c : Nat) (x : Tile) : Tile :=
    x.modCtx c (fun y => y.release (s.fld TILE_CTX_CTRL_replay_entry (4 * t + c)))
  (s.setTile t (f 2 (f 1 (f 0 (s.tile t))))).settle t

/-- Release the blocked contexts of a job. -/
def releaseJob (s : State) (j : Nat) : State := s.forTiles (s.job j).hasTile releaseTile

/-- The tiles of a job stop: nothing runs or is in flight; registers and scratchpads keep their
contents. -/
def stopTile (s : State) (t : Nat) : State :=
  s.modTile t (fun x => { x with
    ctx0 := { x.ctx0 with run := .idle }, ctx1 := { x.ctx1 with run := .idle },
    ctx2 := { x.ctx2 with run := .idle }, busy := false, rejected := false, held := false,
    mms := [], vcs := [], ls := [], evadds := [], asyncs := [], excs := [], tensors := [] })

end Sys2Proof.Machine
end

