-- ==== Sys2Proof/Machine/Regions.lean ====
section
/-! DEFINITION. The region table, live and pending copies, and the protected ranges of a job (R137 to
R140, R163). -/
namespace Sys2Proof.Machine

/-- An entry of the region table (Table STP-1). -/
structure Region where
  live : Nat
  pend : Nat
  size : Nat
  kind : Nat
  flags : Nat
  rsv : Nat
  last : Nat
  deriving DecidableEq, Repr

/-- The start of the step ledger of a job. -/
def State.ledgerBase (s : State) (j : Nat) : Nat := s.fld STEP_LEDGER_BASE_ledger_base j * 4096

/-- The number of ledger entries. -/
def State.ledgerEntries (s : State) (j : Nat) : Nat := 2 ^ s.fld STEP_LEDGER_BASE_ledger_entries j

/-- The start of the region table (R137). -/
def State.tableBase (s : State) (j : Nat) : Nat := s.ledgerBase j + 4096 * s.ledgerEntries j

/-- An entry from its 32 bytes. -/
def regionOf (b : Bytes) : Region :=
  { live := leNat (b.take 8), pend := leNat ((b.drop 8).take 8), size := leNat ((b.drop 16).take 8),
    kind := leNat ((b.drop 24).take 1), flags := leNat ((b.drop 25).take 1),
    rsv := leNat ((b.drop 26).take 2), last := leNat ((b.drop 28).take 4) }

/-- The 32 bytes of an entry. -/
def Region.bytes (r : Region) : Bytes :=
  toLE 8 r.live ++ toLE 8 r.pend ++ toLE 8 r.size ++ toLE 1 r.kind ++ toLE 1 r.flags ++
    toLE 2 r.rsv ++ toLE 4 r.last

/-- The regions of a table at an address: up to the first entry of size 0, at most `fuel`. -/
def regionsAt (s : State) (a : Nat) : Nat → List Region
  | 0 => []
  | fuel + 1 =>
    let r := regionOf (s.mem a 32)
    if r.size = 0 then [] else r :: regionsAt s (a + 32) fuel

/-- The regions of a job. -/
def State.regions (s : State) (j : Nat) : List Region := regionsAt s (s.tableBase j) 1024

/-- The bytes of a table with n regions: its terminating entry counts. -/
def tableBytes (n : Nat) : Nat := 32 * min (n + 1) 1024

/-- Two ranges overlap. -/
def overlaps (a n b m : Nat) : Bool := decide (0 < n) && decide (0 < m) && decide (a < b + m) && decide (b < a + n)

/-- Every range of a list is disjoint from every later one. -/
def disjoint : List (Nat × Nat) → Bool
  | [] => true
  | x :: r => r.all (fun y => !overlaps x.1 x.2 y.1 y.2) && disjoint r

/-- The ledger ring and the extent of the region table. -/
def State.fixedRanges (s : State) (j : Nat) : List (Nat × Nat) :=
  [(s.ledgerBase j, 4096 * s.ledgerEntries j), (s.tableBase j, tableBytes (s.regions j).length)]

/-- The rules of R137 for the table and its copies; an entry with a reserved kind, flag or field is
refused with it (DEDUCED, log entry 14). -/
def regionsOk (mask : Nat) (fixed : List (Nat × Nat)) (rs : List Region) : Bool :=
  fixed.all (fun f => inQuarters mask f.1 f.2) &&
    rs.all (fun r => decide (r.kind ≤ 4) && decide (r.flags < 8) && decide (r.rsv = 0) && decide (r.live % 2048 = 0) && decide (r.pend % 2048 = 0) &&
      decide (r.size % 2048 = 0) && inQuarters mask r.live r.size && inQuarters mask r.pend r.size) &&
    disjoint (fixed ++ rs.flatMap (fun r => [(r.live, r.size), (r.pend, r.size)]))

/-- A range touches a live copy, or the region table's extent, of a running job (R138, R139). -/
def State.touchesLive (s : State) (j : Nat) (a n : Nat) : Bool :=
  (s.regions j).any (fun r => overlaps a n r.live r.size) ||
    overlaps a n (s.tableBase j) (tableBytes (s.regions j).length)

/-- Write a region entry. -/
def State.putRegion (s : State) (j k : Nat) (r : Region) : State :=
  s.setMem (s.tableBase j + 32 * k) r.bytes

/-- Where the table stands whose pending copies the open attempt writes: the new one in an armed attempt
(R140, R247). -/
def State.trackBase (s : State) (j : Nat) : Nat :=
  if (s.job j).att.armed then (s.job j).att.table else s.tableBase j

/-- The regions whose pending copies the open attempt writes. -/
def State.tracked (s : State) (j : Nat) : List Region := regionsAt s (s.trackBase j) 1024

/-- Write a tracked entry. -/
def State.putTracked (s : State) (j k : Nat) (r : Region) : State := s.setMem (s.trackBase j + 32 * k) r.bytes

/-- Any write into a pending copy sets the region's written flag (R140). -/
def markWritten (s : State) (j a n : Nat) : State :=
  ((s.tracked j).zipIdx).foldl (fun s p =>
    if overlaps a n p.1.pend p.1.size ∧ !p.1.flags.testBit 1 then
      s.putTracked j p.2 { p.1 with flags := p.1.flags ||| 2 }
    else s) s

/-- What the device keeps of an abandoned attempt's writes is cleared: the flags written and digest invalid, the
write digests and counts of lines. -/
def clearFlags (s : State) (j : Nat) : State :=
  let s := ((s.tracked j).zipIdx).foldl (fun s p =>
    if p.1.flags &&& 6 ≠ 0 then s.putTracked j p.2 { p.1 with flags := p.1.flags % 2 } else s) s
  s.modJob j (fun x => { x with dig := { x.dig with acc := [], lines := [] } })

/-! ## Write digests (R159, R160) -/

/-- The digest of one 128-byte line of a region. -/
def lineDigest (region off : Nat) (data : Bytes) : BitVec 256 :=
  Config.shake256 (toLE 2 region ++ toLE 6 off ++ data) 256

/-- The lines of 128 bytes that a write of pending bytes completes are taken into the region's write
digest and its count of lines. -/
def digestWrite (s : State) (j a n : Nat) : State :=
  ((s.tracked j).zipIdx).foldl (fun s p =>
    let r := p.1
    if r.flags.testBit 0 ∧ overlaps a n r.pend r.size then
      let lo := max a r.pend
      let hi := min (a + n) (r.pend + r.size)
      let first := (lo - r.pend) / 128
      let lines := (List.range ((hi - r.pend + 127) / 128 - first)).map (first + ·)
      s.modJob j (fun x => { x with dig := { x.dig with
        acc := store x.dig.acc p.2 (lines.foldl (fun d l =>
          d ^^^ lineDigest p.2 (128 * l) (s.mem (r.pend + 128 * l) 128)) (look x.dig.acc p.2 0)) 0
        lines := store x.dig.lines p.2 (look x.dig.lines p.2 0 + lines.length) 0 } })
    else s) s

/-- A program's or an engine's write of bytes into DRAM for a job: memory changes, the written flags
are set, the digests take the lines (R140, R159). The caller has refused live copies. -/
def State.writeFor (s : State) (j a : Nat) (bs : Bytes) : State :=
  if bs.isEmpty then s
  else digestWrite (markWritten (s.setMem a bs) j a bs.length) j a bs.length

/-- The digest of a copy as memory holds it: every line taken once (R159, R161). -/
def copyDigest (s : State) (region base : Nat) : Nat → BitVec 256
  | 0 => 0
  | n + 1 => copyDigest s region base n ^^^ lineDigest region (128 * n) (s.mem (base + 128 * n) 128)

end Sys2Proof.Machine
end

