-- ==== Sys2Proof/Machine/Frames.lean ====
section
/-! DEFINITION. Packets and link frames as bytes (R7, R198, R205, R216, R234): the header of Table FAB-3, the bodies of
the frames, the header of Table FAB-1 and its CRC-32C. -/
namespace Sys2Proof.Machine

/-- A packet as it stands in a DATA frame's body (Table FAB-3). -/
def packetBytes (k : Packet) : Bytes :=
  [k.op, k.flags] ++ toBE 2 k.jobTag.toNat ++ toBE 2 k.src.toNat ++ toBE 2 k.dst.toNat ++ toBE 4 k.streamSeq.toNat ++
    toBE 2 k.xferId.toNat ++ toBE 2 k.pktIndex.toNat ++ toBE 2 k.pktCount.toNat ++
    toBE 2 (if k.op.toNat < 16 then k.payload.length else k.w18.toNat) ++ toBE 2 k.notify.toNat ++ toBE 2 k.w22.toNat ++
    toBE 8 k.dstAddr.toNat ++ k.payload

/-- Four coordinates as bytes. -/
def quadBytes (q : Quad) : Bytes := [q.x, q.y, q.z, q.w]

/-- Bytes 0 to 239 of an IDENT body (Table FAB-7). -/
def identBytes (b : IdentBody) : Bytes :=
  [b.lpv, b.flags, b.port, 0] ++ toBE 16 b.serial.toNat ++ toBE 2 b.site.toNat ++ [0, 0] ++ quadBytes b.coord ++ quadBytes b.expect ++
    quadBytes b.dims ++ toBE 16 b.peerNonce.toNat ++ toBE 16 b.ownNonce.toNat ++ toBE 57 b.pubkey.toNat ++ toBE 114 b.certSig.toNat ++ [0]

/-- The type codes of R198. -/
def frameType : FrameBody → Nat
  | .none => 0 | .data _ => 1 | .nak _ => 2 | .hello _ => 3 | .ident _ => 4 | .lane _ => 5 | .state _ => 6

/-- The body of a frame. No rule lays out the bodies of LANE and STATE (DESIGN CHOICE, log entry 118). -/
def bodyBytes : FrameBody → Bytes
  | .none => []
  | .data k => packetBytes k
  | .nak n => toBE 4 n.toNat
  | .hello n => toBE 16 n.toNat
  | .ident b => identBytes b ++ toBE 114 b.sig.toNat
  | .lane b => Config.laneBody b.logical b.physical b.rx b.codeword
  | .state a => Config.stateBody a

/-- The header of Table FAB-1, big-endian (R7). -/
def headBytes (h : LinkHead) : Bytes :=
  [h.type, h.vc] ++ toBE 2 h.length.toNat ++ toBE 4 h.seq.toNat ++ toBE 4 h.ack.toNat ++ [h.creditVc, 0] ++ toBE 2 h.creditUnits.toNat

/-- One bit of CRC-32C, least significant bit first: the polynomial 0x1EDC6F41 reflected. -/
def crcBit (c : BitVec 32) : BitVec 32 := if c.getLsbD 0 then (c >>> 1) ^^^ 0x82F63B78#32 else c >>> 1

/-- One byte taken into a CRC. -/
def crcByte (c : BitVec 32) (b : Byte) : BitVec 32 :=
  let x := c ^^^ b.setWidth 32
  crcBit (crcBit (crcBit (crcBit (crcBit (crcBit (crcBit (crcBit x)))))))

/-- CRC-32C of Castagnoli as the iSCSI standard computes it, from all ones and inverted at the end (R198, PRESUMED, log entry
118). -/
def crc32c (bs : Bytes) : BitVec 32 := ~~~(bs.foldl crcByte 0xFFFFFFFF#32)

/-- The CRC of a frame is over its header and its body. -/
def headCheck (h : LinkHead) (b : FrameBody) : BitVec 32 := crc32c (headBytes h ++ bodyBytes b)

/-- A frame has come whole: its codewords were corrected and its CRC is right (R198, R199). -/
def headGood (h : LinkHead) (b : FrameBody) : Bool := h.fec && decide (h.crc = headCheck h b)

/-- The header of a frame that leaves. -/
def frameHead (vc : Nat) (seq ack : BitVec 32) (cvc units : Nat) (b : FrameBody) : LinkHead :=
  let h : LinkHead :=
    { type := BitVec.ofNat 8 (frameType b), vc := BitVec.ofNat 8 vc, length := BitVec.ofNat 16 (bodyBytes b).length, seq := seq, ack := ack,
      creditVc := BitVec.ofNat 8 cvc, creditUnits := BitVec.ofNat 16 units, crc := 0, fec := true }
  { h with crc := headCheck h b }

/-- The ack that a port's frames carry: the highest sequence number received in order. -/
def Port.ack (x : Port) : BitVec 32 := x.rxSeq - 1

/-- A frame other than DATA leaves a port; it may return credits of a virtual channel. -/
def sendCtl (s : State) (p : Nat) (b : FrameBody) (cvc units : Nat) : State :=
  s.emit (.frame p (frameHead 0xFF 0 (s.port p).ack cvc units b) b)

/-! ## Packets of the collective engine (R233, R234, Tables COL-3 to COL-5) -/

def opChunk : Nat := 0x10
def opReady : Nat := 0x11
def opReport : Nat := 0x12
def opDecide : Nat := 0x13

/-- The byte stage of Table COL-4. -/
def colStage (k : ColPacket) : Nat :=
  64 * k.dim.toNat + 32 * ofBool k.gather + 16 * ofBool k.minus + k.part.toNat

/-- A packet of the collective engine: ordering class 3, and in bytes 8 to 31 the fields of Table COL-4, zero but for
the tag where it is no chunk (R233, R234). -/
def colPacket (op : Nat) (jobTag : BitVec 16) (src dst : BitVec 12) (t : ColTag) (chunk length : Nat) (rest : BitVec 32)
    (payload : Bytes) : Packet :=
  { op := BitVec.ofNat 8 op, flags := 0xC0, jobTag := jobTag, src := src, dst := dst, streamSeq := t.cid,
    xferId := BitVec.ofNat 16 (chunk / 65536), pktIndex := BitVec.ofNat 16 chunk, pktCount := BitVec.ofNat 16 (t.step.toNat / 65536),
    w18 := t.step.setWidth 16, notify := BitVec.ofNat 16 (t.epoch.toNat / 65536), w22 := t.epoch.setWidth 16,
    dstAddr := BitVec.ofNat 64 (t.attempt.toNat * 2 ^ 48 + length * 2 ^ 32 + rest.toNat), payload := payload }

/-- The tag of a chunk or READY. -/
def colTag (k : ColPacket) : ColTag := { cid := k.cid, step := k.step, epoch := k.epoch, attempt := k.attempt }

/-- A CHUNK packet. -/
def chunkPkt (k : ColPacket) : Packet :=
  colPacket opChunk k.jobTag k.src k.dst (colTag k) k.chunk.toNat k.payload.length
    (BitVec.ofNat 32 (((k.contributor.toNat * 256 + colStage k) * 256 + k.run.toNat) * 256 + k.fmt.toNat)) k.payload

/-- A READY packet and its 16 bytes (Table COL-3). -/
def readyPkt (k : ColPacket) (b : ReadyBody) : Packet :=
  colPacket opReady k.jobTag k.src k.dst (colTag k) 0 0 0
    ([b.op, b.fmt, b.dims, 0] ++ toBE 2 b.bucketNo.toNat ++ [0, 0] ++ toBE 8 b.len.toNat)

/-- A group that asks for its rejoin, or none, in the reserved bytes 20 to 23 of a vote's payload (DESIGN CHOICE, log entry 116). -/
def rejoinBytes (g : Option (BitVec 8)) : Bytes := toBE 4 (match g with
  | some g => g.toNat + 1
  | none => 0)

/-- The 32 bytes of a REPORT of a kind (Table COL-5). -/
def reportBytes (kind : Nat) (r : Report) : Bytes :=
  [BitVec.ofNat 8 kind, 0, 0, 0] ++ toBE 4 r.applied.toNat ++ toBE 4 r.bucket.toNat ++ [r.veto, r.flags, 0, 0] ++ toBE 4 r.origin.toNat ++
    rejoinBytes r.rejoin ++ toBE 8 r.norm.toNat

/-- The 32 bytes of a DECIDE of a kind (Table COL-5). -/
def decisionBytes (kind : Nat) (d : Decision) : Bytes :=
  [BitVec.ofNat 8 kind, d.group] ++ toBE 2 d.divisor.toNat ++ toBE 4 d.number.toNat ++ toBE 4 d.bucket.toNat ++ [d.veto, d.flags, 0, 0] ++
    toBE 4 d.origin.toNat ++ rejoinBytes d.rejoin ++ toBE 8 d.norm.toNat

/-! ## Announcements (R214, R356) -/

/-- The payload of a LINK_STATE packet. -/
def newsBytes : LinkNews → Bytes
  | .down d p t => [1, p, 0, 0] ++ toBE 4 d.toNat ++ toBE 8 t.toNat
  | .up d p t => [2, p, 0, 0] ++ toBE 4 d.toNat ++ toBE 8 t.toNat
  | .withdrawal c d => [3, c, 0, 0] ++ toBE 4 d.toNat
  | .other k => [k]

/-- A LINK_STATE packet: ordering class 0 and stream_seq 0 (R214). -/
def linkStatePacket (tag : BitVec 16) (src dst : BitVec 12) (n : LinkNews) : Packet :=
  { op := 6, flags := 0, jobTag := tag, src := src, dst := dst, streamSeq := 0, xferId := 0, pktIndex := 0, pktCount := 1, notify := 0,
    dstAddr := 0, payload := newsBytes n }

end Sys2Proof.Machine
end

