-- ==== Sys2Proof/Machine/Groups.lean ====
section
/-! DEFINITION. The devices of a job: its slice, its replica groups, the coordinator and the reporting
order (R212, R229, R239, R244, R250). Devices are named by their index in the site's torus. -/
namespace Sys2Proof.Machine

/-- The offset of a device from the slice origin, dimension by dimension (R250). -/
def Job.offset (x : Job) (dims : List Nat) (dev : Nat) : List Nat :=
  ((coordOf dims dev).zip (dims.zip (quadList x.origin))).map (fun p => (p.1 + p.2.1 - p.2.2) % p.2.1)

/-- A device of the site lies in the slice (R212). -/
def Job.inSlice (x : Job) (dims : List Nat) (dev : Nat) : Bool :=
  decide (dev < dims.foldl (· * ·) 1) &&
    ((x.offset dims dev).zip (quadList x.extent)).all (fun p => decide (p.1 < p.2))

/-- The device at an offset from the slice origin. -/
def Job.devAt (x : Job) (dims off : List Nat) : Nat :=
  indexOf dims (((quadList x.origin).zip (dims.zip off)).map (fun p => (p.1 + p.2.2) % p.2.1))

/-- An offset with one dimension set. -/
def putDim (off : List Nat) (d v : Nat) : List Nat := off.set d v

/-- The job-relative index of an offset (R244). -/
def Job.relIndex (x : Job) (off : List Nat) : Nat := indexOf (quadList x.extent) off

/-- The devices of the slice in ascending job-relative index. -/
def Job.devices (x : Job) (dims : List Nat) : List Nat :=
  (List.range ((quadList x.extent).foldl (· * ·) 1)).map (fun n => x.devAt dims (coordOf (quadList x.extent) n))

/-- The replica group of a device: the index of its offset over the dimensions of d_dims, X least
significant (R250). -/
def groupOf (ddims : Nat) (extent off : List Nat) : Nat :=
  ((List.range 4).reverse).foldl (fun a d => if ddims.testBit d then a * extent.getD d 1 + off.getD d 0 else a) 0

/-- The number of replica groups. -/
def groupCount (ddims : Nat) (extent : List Nat) : Nat :=
  (List.range 4).foldl (fun a d => if ddims.testBit d then a * extent.getD d 1 else a) 1

def State.ddims (s : State) (j : Nat) : Nat := s.fld CXE_CTRL_d_dims j

/-- The group of a device of the site in a job. -/
def State.groupOfDev (s : State) (j dev : Nat) : Nat :=
  groupOf (s.ddims j) (quadList (s.job j).extent) ((s.job j).offset s.dims dev)

/-- The own group. -/
def State.ownGroup (s : State) (j : Nat) : Nat := s.groupOfDev j s.self

/-- A group contributes to the open attempt: it did when the attempt opened and has not been excluded
(R155, R156). -/
def Job.contributes (x : Job) (g : Nat) : Bool :=
  x.led.contributors.toNat.testBit g && !x.led.exclusions.any (fun e => decide (e.1 = g))

/-- A device counts for the job: of a contributing group and not lost (R244). -/
def State.liveDev (s : State) (j dev : Nat) : Bool :=
  (s.job j).contributes (s.groupOfDev j dev) && !(s.job j).lostDevs.contains dev

/-- The coordinator: the live device of lowest job-relative index (R244). -/
def State.coordinator (s : State) (j : Nat) : Option Nat :=
  ((s.job j).devices s.dims).find? (s.liveDev j)

/-- This device is the coordinator of a job. -/
def State.isCoordinator (s : State) (j : Nat) : Bool := decide (s.coordinator j = some s.self)

/-- Where a device's combined report goes along a dimension: the next live position below, or none. -/
def State.below (s : State) (j : Nat) (off : List Nat) (d : Nat) : Option Nat :=
  (((List.range (off.getD d 0)).reverse).map (fun v => (s.job j).devAt s.dims (putDim off d v))).find? (s.liveDev j)

/-- The reporting order from an offset, from a dimension on: the receiver and the chain by which it
receives; chain 4 is the direct report to the coordinator of R244. -/
def reportFrom (s : State) (j coord : Nat) (off : List Nat) : List Nat → Option (Nat × Nat)
  | [] => none
  | d :: r =>
    if off.getD d 0 = 0 then reportFrom s j coord off r
    else match s.below j off d with
      | some v => some (v, d)
      | none => some (coord, 4)

/-- The receiver of a device's reports and the chain (R239, R244); none for the coordinator. -/
def State.reportsTo (s : State) (j dev : Nat) : Option (Nat × Nat) :=
  match s.coordinator j with
  | none => none
  | some c => if dev = c then none else reportFrom s j c ((s.job j).offset s.dims dev) [0, 1, 2, 3]

/-- The devices whose reports this device is due to receive, with their chains. -/
def State.dueReports (s : State) (j : Nat) : List (Nat × Nat) :=
  ((s.job j).devices s.dims).filterMap (fun v =>
    if s.liveDev j v then match s.reportsTo j v with
      | some (w, c) => if w = s.self then some (v, c) else none
      | none => none
    else none)

/-- The members of a ring along a dimension through an offset: the slice devices that differ only there; in
a dimension of d_dims only those of contributing groups (R229). -/
def State.ring (s : State) (j d : Nat) (off : List Nat) : List Nat :=
  let x := s.job j
  let all := (List.range ((quadList x.extent).getD d 1)).map (fun v => x.devAt s.dims (putDim off d v))
  if (s.ddims j).testBit d then all.filter (fun v => x.contributes (s.groupOfDev j v)) else all

/-- The own offset in a job. -/
def State.ownOffset (s : State) (j : Nat) : List Nat := (s.job j).offset s.dims s.self

/-- The job that a packet's tag names. -/
def State.jobOfTag (s : State) (tag : BitVec 16) : Option Nat :=
  (List.range 4).find? (fun j => (s.job j).running && decide ((s.job j).tag = tag))

end Sys2Proof.Machine
end

