-- ==== Sys2Proof/Machine/Routing.lean ====
section
/-! DEFINITION. The router and the sending side of a port: directions and detours (R204, R212 to R215, R218,
R222), virtual channels, credits, the retry buffer and frames that wait (R199 to R202). -/
namespace Sys2Proof.Machine

/-! ## Packets and virtual channels (R200, Table FAB-2) -/

def pktClass (k : Packet) : Nat := k.flags.toNat / 64
def pktDetour (k : Packet) : Bool := k.flags.getLsbD 4

/-- Response packets travel on the channels 12 to 14. -/
def pktResponse (k : Packet) : Bool := decide (k.op = 3) || decide (k.op = 4) || decide (k.op = 6)

/-- Transfer statuses of Table FAB-4. -/
def stOk : Nat := 0
def stResend : Nat := 1
def stJob : Nat := 2
def stAddr : Nat := 3
def stLive : Nat := 4
def stMemUe : Nat := 5
def stUnreachable : Nat := 6
def stTimeout : Nat := 7
def stRoute : Nat := 8
def stFull : Nat := 9

/-- The virtual channel of a packet, before or after a dateline crossing. -/
def pktVc (k : Packet) (crossed : Bool) : BitVec 8 :=
  let base := if pktResponse k then 12 else 3 * pktClass k
  BitVec.ofNat 8 (base + (if pktDetour k then 2 else ofBool crossed))

/-- A packet set on detour. -/
def onDetour (k : Packet) : Packet := { k with flags := k.flags ||| 0x10 }

/-- Credit units of a packet's frame: header, body and CRC in 64-byte units. -/
def pktUnits (k : Packet) : Nat := (16 + 32 + k.payload.length + 4 + 63) / 64

/-- The COMPLETION of a transfer, from the device that ends it (R207). -/
def completionOf (s : State) (k : Packet) (status : Nat) : Packet :=
  { op := 4, flags := BitVec.ofNat 8 (64 * pktClass k), jobTag := k.jobTag, src := BitVec.ofNat 12 s.self, dst := k.src,
    streamSeq := k.streamSeq, xferId := k.xferId, pktIndex := 0, pktCount := 1, notify := 0, dstAddr := 0,
    payload := [BitVec.ofNat 8 status, 0, 0, 0] }

/-! ## The sending side of a port (R199, R200) -/

/-- An IDLE frame with an ack and returned credits. -/
def idle (s : State) (p vc units : Nat) : State := sendCtl s p .none vc units

/-- A transit packet leaves its receive buffer: its credit goes back. -/
def freeCredit (s : State) (k : Packet) (src : Option (Nat × BitVec 8)) : State :=
  match src with
  | some (p, vc) => if (s.port p).st = .up then idle s p vc.toNat (pktUnits k) else s
  | none => s

/-- Units taken from the shared part: what each channel has out beyond its reserve of 8,320 bytes. -/
def sharedUsed (m : Sparse Nat) : Nat := (m.map (fun kv => kv.2 - 130)).sum

/-- The port holds the whole credit of a frame, and its retry buffer of 2 MiB has room. -/
def Port.canSend (x : Port) (vc : BitVec 8) (k : Packet) : Bool :=
  let m := store x.credits vc.toNat (look x.credits vc.toNat 0 + pktUnits k) 0
  decide (sharedUsed m ≤ x.shared) && decide (((x.retry.map (fun r => 64 * pktUnits r.2.2)).sum) + 64 * pktUnits k ≤ 2 ^ 21)

/-- A DATA frame leaves a port; it stays in the retry buffer until an ack covers it. -/
def sendFrame (s : State) (p : Nat) (vc : BitVec 8) (k : Packet) : State :=
  let x := s.port p
  (s.modPort p (fun x => { x with
    txSeq := x.txSeq + 1, retry := x.retry ++ [(x.txSeq, vc, k)],
    credits := store x.credits vc.toNat (look x.credits vc.toNat 0 + pktUnits k) 0 })).emit
      (.frame p (frameHead vc.toNat x.txSeq x.ack 0xFF 0 (.data k)) (.data k))

/-- The flow of a frame that waits: the job that its tag names, and the collective that a chunk belongs to. -/
def flowOf (k : Packet) : BitVec 16 × BitVec 32 := (k.jobTag, if k.op.toNat = opChunk then k.streamSeq else 0)

/-- How long ago a job and a flow were served: the more, the larger. -/
def servedAge (l : List (BitVec 16 × BitVec 32)) (f : BitVec 16 × BitVec 32) : Nat × Nat :=
  (l.findIdx (fun g => decide (g.1 = f.1)), l.findIdx (fun g => decide (g = f)))

/-- A frame is served before another: that of the job served longer ago, in a job that of the flow served longer ago. -/
def servedBefore (l : List (BitVec 16 × BitVec 32)) (f g : BitVec 16 × BitVec 32) : Bool :=
  let a := servedAge l f
  let b := servedAge l g
  decide (b.1 < a.1) || (decide (a.1 = b.1) && decide (b.2 < a.2))

/-- A frame that waits at a port. -/
abbrev Waiting := BitVec 8 × Packet × Option (Nat × BitVec 8)

/-- Of the frames that wait on a virtual channel, the one to be served next: jobs in round robin, and in a job its
collectives, each flow in its own order (R14, R227). -/
def nextOn (l : List (BitVec 16 × BitVec 32)) (vc : BitVec 8) (q : List Waiting) : Option Waiting :=
  (q.filter (fun w => decide (w.1 = vc))).foldl (fun b w => match b with
    | none => some w
    | some v => if servedBefore l (flowOf w.2.1) (flowOf v.2.1) then some w else some v) none

/-- The frame to be sent next: on the channel that has waited longest of those whose next frame has credit. -/
def Port.pick (x : Port) : Option Waiting :=
  ((x.waitQ.map (·.1)).eraseDups).findSome? (fun vc => match nextOn x.served vc x.waitQ with
    | some w => if x.canSend w.1 w.2.1 then some w else none
    | none => none)

/-- The frames that wait leave as credit allows, jobs and collectives in turn; a channel without credit holds back only
its own. The first argument bounds the frames gone through. -/
def flushLoop (p : Nat) : Nat → State → State
  | 0, s => s
  | fuel + 1, s =>
    match (s.port p).pick with
    | none => s
    | some w =>
      let s := s.modPort p (fun x =>
        let q := x.waitQ.erase w
        { x with waitQ := q, served := flowOf w.2.1 :: x.served.filter (fun f => decide (f ≠ flowOf w.2.1) && q.any (fun v => decide (flowOf v.2.1 = f))) })
      flushLoop p fuel (freeCredit (sendFrame s p w.1 w.2.1) w.2.1 w.2.2)

def flushPort (s : State) (p : Nat) : State := flushLoop p (s.port p).waitQ.length s

/-- A packet goes to a port. -/
def portSend (s : State) (p : Nat) (vc : BitVec 8) (k : Packet) (src : Option (Nat × BitVec 8)) : State :=
  flushPort (s.modPort p (fun x => { x with waitQ := x.waitQ ++ [(vc, k, src)] })) p

/-! ## Directions (R212, R215, R218) -/

/-- The direction that a torus port serves: its own, or the one it has adopted (R219). Direction 2d is + in
dimension d, 2d + 1 is −. -/
def State.portDir (s : State) (p : Nat) : Nat :=
  if s.fld FAB_PORT_STATUS_adopted p = 1 then s.fld FAB_PORT_STATUS_adopted_dir p else p

/-- The UP port that serves a direction. -/
def State.portOf (s : State) (dir : Nat) : Option Nat :=
  (List.range 8).find? (fun p => decide ((s.port p).st = .up) && decide (s.portDir p = dir))

/-- The opposite direction. -/
def opposite (dir : Nat) : Nat := if dir % 2 = 0 then dir + 1 else dir - 1

/-- One step from a coordinate. -/
def stepCoord (dims co : List Nat) (dir : Nat) : List Nat :=
  let d := dir / 2
  let n := dims.getD d 1
  co.set d ((co.getD d 0 + (if dir % 2 = 0 then 1 else n - 1)) % n)

/-- The latest announcement applied for a device's port is a down (R214). -/
def Router.down (r : Router) (dev port : Nat) : Bool :=
  match r.news.find? (fun n => decide (n.1 = dev) && decide (n.2.1 = port)) with
  | some n => n.2.2.2
  | none => false

/-- Devices that bypassed links skip (R218). -/
def State.absent (s : State) : List Nat := (List.range 8).flatMap (fun p => (s.port p).skips)

/-- The link of a device in a direction is taken as down: an announcement from either end is a down, or it is an
own link whose port is not UP. -/
def State.linkBroken (s : State) (co : List Nat) (dir : Nat) : Bool :=
  let a := indexOf s.dims co
  let b := indexOf s.dims (stepCoord s.dims co dir)
  let own := (decide (a = s.self) && (s.portOf dir).isNone) || (decide (b = s.self) && (s.portOf (opposite dir)).isNone)
  own || s.router.down a dir || s.router.down b (opposite dir)

/-- The path of n hops in a direction is whole: skipped devices are passed over. -/
def State.pathClear (s : State) (dir : Nat) : Nat → List Nat → Bool
  | 0, _ => true
  | n + 1, co =>
    let next := stepCoord s.dims co dir
    let bypass := s.absent.contains (indexOf s.dims co) || s.absent.contains (indexOf s.dims next)
    (bypass || !s.linkBroken co dir) && s.pathClear dir n next

/-- The job of a packet wraps in a dimension: its slice spans the ring; a packet of no job here takes every ring
as whole. -/
def State.wraps (s : State) (k : Packet) (d : Nat) : Bool :=
  match s.jobOfTag k.jobTag with
  | some j => decide ((quadList (s.job j).extent).getD d 1 = s.dims.getD d 1)
  | none => true

/-- Hops to a target coordinate in a direction. -/
def hops (n c t dir : Nat) : Nat := if dir % 2 = 0 then (t + n - c) % n else (c + n - t) % n

/-- The direction of R212 in a dimension: the shorter way, + when equal; in an unwrapped dimension the only
way. -/
def State.wantDir (s : State) (k : Packet) (d c t : Nat) : Nat :=
  let n := s.dims.getD d 1
  if s.wraps k d then (if hops n c t 0 ≤ hops n c t 1 then 2 * d else 2 * d + 1)
  else
    let o := match s.jobOfTag k.jobTag with
      | some j => (quadList (s.job j).origin).getD d 0
      | none => 0
    if (c + n - o) % n < (t + n - o) % n then 2 * d else 2 * d + 1

/-- A direction is open for a packet: its port is UP and the path to the target coordinate is whole. -/
def State.open' (s : State) (d c t dir : Nat) : Bool :=
  (s.portOf dir).isSome && s.pathClear dir (hops (s.dims.getD d 1) c t dir) s.coord

/-- A side-step: one hop in the lowest-numbered other dimension with a live link, + first (R215). -/
def State.sideStep (s : State) (d : Nat) : Option Nat := (List.range 8).find? (fun e => decide (e / 2 ≠ d) && (s.portOf e).isSome)

/-- How a packet goes on: its direction, and whether it goes on detour (R213, R215). -/
structure Way where
  dir : Nat
  detour : Bool
  deriving DecidableEq, Repr

/-- The next direction of a packet toward a coordinate; `came` is the direction it travelled to get here. A packet on
detour keeps its way round a ring, and after a side-step continues in the blocked dimension. It goes on detour where
this device's own link is broken, and on a side-step; round a break elsewhere in the ring, which announcements show,
it goes the other way on its normal channels, and a packet that comes that way keeps it (R212, R213, R215, DEDUCED, log entry
117). -/
def State.nextDir (s : State) (k : Packet) (target : List Nat) (came : Option Nat) : Option Way :=
  let co := s.coord
  let needs := (List.range 4).filter (fun d => decide (co.getD d 0 ≠ target.getD d 0))
  let back (e : Nat) : Nat := hops (s.dims.getD (e / 2) 1) (co.getD (e / 2) 0) (target.getD (e / 2) 0) (opposite e)
  let stepped := match came with
    | some e => pktDetour k && needs.contains (e / 2) && decide (back e = 1) && decide (1 < needs.length)
    | none => false
  let dim := match came with
    | some e => (needs.filter (fun d => !(stepped && decide (d = e / 2)))).head?
    | none => needs.head?
  match dim with
  | none => none
  | some d =>
    let c := co.getD d 0
    let t := target.getD d 0
    let want := match came with
      | some e => if pktDetour k ∧ e / 2 = d ∧ s.wraps k d then e else s.wantDir k d c t
      | none => s.wantDir k d c t
    if s.open' d c t want then some ⟨want, false⟩
    else if s.wraps k d && s.open' d c t (opposite want) then some ⟨opposite want, (s.portOf want).isNone⟩
    else (s.sideStep d).map (fun e => ⟨e, true⟩)

/-- The link that leaves in a direction, with the devices that it skips, passes over the ring's wrap link between coordinate
D − 1 and 0 (R212, R218). -/
def State.crosses (s : State) (dir : Nat) : Bool :=
  let n := s.dims.getD (dir / 2) 1
  let c := s.coord.getD (dir / 2) 0
  let far := (match s.portOf dir with
    | some p => (s.port p).skips.length
    | none => 0) + 1
  if dir % 2 = 0 then decide (n ≤ c + far) else decide (c < far)

/-- Every link of a device is down, or a bypassed link skips it (R215). -/
def State.cutOff (s : State) (dev : Nat) : Bool :=
  s.absent.contains dev ||
    ((List.range 8).filter (fun e => decide (1 < s.dims.getD (e / 2) 1))).all (fun e => s.linkBroken (coordOf s.dims dev) e)

/-- The torus device that a packet for a device index or service endpoint goes to. -/
def State.routeTo (s : State) (dst : Nat) : Option Nat :=
  if dst < s.devices then some dst
  else (s.plat.endpoints.find? (fun e => decide (e.index.toNat = dst))).map (·.owner.toNat)

/-- A packet is routed: delivered to this device, out of a service port, or on to the next hop; none when it has
no path. `src` is the port and channel it came by. The port that an endpoint's IDENT arrives on is the one that its TOPOLOGY
record names (R222, DEDUCED, log entry 127). -/
def tryRoute (s : State) (k : Packet) (src : Option (Nat × BitVec 8)) : Option State :=
  if k.dst.toNat = s.self then some (freeCredit (s.emit (.packet k)) k src)
  else match s.routeTo k.dst.toNat with
    | none => none
    | some dev =>
      if dev = s.self then
        match s.plat.endpoints.find? (fun e => decide (e.index = k.dst.setWidth 16)) with
        | some e => if (s.port e.port.toNat).st = .up then some (portSend s e.port.toNat (pktVc k false) k src) else none
        | none => none
      else if s.cutOff dev then none
      else
        let came := match src with
          | some (p, _) => if p < 8 then some (opposite (s.portDir p)) else none
          | none => none
        match s.nextDir k (coordOf s.dims dev) came with
        | none => none
        | some w =>
          let k := if w.detour then onDetour k else k
          let crossed := s.crosses w.dir || (match src, came with
            | some (_, vc), some e => decide (e / 2 = w.dir / 2) && decide (vc.toNat % 3 = 1)
            | _, _ => false)
          (s.portOf w.dir).map (fun p => portSend s p (pktVc k crossed) k src)

/-- A packet with no path goes back to its source as UNREACHABLE (R215). -/
def routePacket (s : State) (k : Packet) (src : Option (Nat × BitVec 8)) : State :=
  match tryRoute s k src with
  | some t => t
  | none =>
    let s := freeCredit s k src
    if pktResponse k ∨ 0x10 ≤ k.op.toNat then s
    else
      let c := { completionOf s k stUnreachable with dst := k.src }
      (tryRoute s c none).getD s

/-- A packet of this device enters its router. -/
def sendPacket (s : State) (k : Packet) : State := routePacket s k none

/-! ## Packets of the device's own to a job's devices (R213, R214, R233, R356) -/

/-- The number that a packet names a device by. -/
def devNo (v : Nat) : BitVec 12 := BitVec.ofNat 12 v

/-- A LINK_STATE packet to every other device of a job's slice. -/
def tellSlice (s : State) (j : Nat) (n : LinkNews) : State :=
  (((s.job j).devices s.dims).filter (fun v => decide (v ≠ s.self))).foldl
    (fun s v => sendPacket s (linkStatePacket (s.job j).tag (devNo s.self) (devNo v) n)) s

/-- The tag of the open attempt's reports and decisions, of a collective or of none (R234). -/
def State.attTag (s : State) (j : Nat) (cid : BitVec 32) : ColTag :=
  { cid := cid, step := BitVec.ofNat 32 (s.step j), epoch := (s.job j).att.epoch, attempt := BitVec.ofNat 16 (s.job j).attemptNo }

/-- The tag on the wire: only a SEAL concerns a collective; in any other the collective id is free (DESIGN CHOICE, log
entry 2). -/
def wireTag (s : State) (kind : Nat) (t : ColTag) : ColTag := if kind = 1 then t else { t with cid := s.draw.1.setWidth 32 }

/-- A REPORT of a kind goes to a device (R239). -/
def sendReport (s : State) (j kind dst : Nat) (r : Report) : State :=
  sendPacket s.draw.2 (colPacket opReport (s.job j).tag (devNo s.self) (devNo dst) (wireTag s kind r.tag) 0 0 0 (reportBytes kind r))

/-- A DECIDE of a kind goes to a device (R239). -/
def sendDecide (s : State) (j kind dst : Nat) (d : Decision) : State :=
  sendPacket s.draw.2 (colPacket opDecide (s.job j).tag (devNo s.self) (devNo dst) (wireTag s kind d.tag) 0 0 0 (decisionBytes kind d))

/-- A DECIDE goes to every device of the job that has not been lost, this one included, and to those that rejoin (R239,
R359). -/
def decideAll (s : State) (j kind : Nat) (d : Decision) : State :=
  (((s.job j).devices s.dims).filter (fun v => !(s.job j).lostDevs.contains v || (s.job j).rejoinAsked.contains v)).foldl (fun s v => sendDecide s j kind v d) s

end Sys2Proof.Machine
end

