-- ==== Sys2Proof/Machine/Contain.lean ====
section
/-! DEFINITION. Aborts, the step ledger, and the containment of faults (chapters 6 and 14): the shared
operations that every fault source uses. -/
namespace Sys2Proof.Machine

/-! ## Codebook slots (R191) -/

/-- A job's codec slot. -/
def Job.slot (x : Job) (k : Nat) : CodeSlot := look x.slots k CodeSlot.reset

/-- Free codebook slots of a job. -/
def Job.freeSlots (x : Job) : List Nat := (List.range 16).filter (fun k => (x.slot k).st = .free)

def State.modSlot (s : State) (j k : Nat) (f : CodeSlot → CodeSlot) : State :=
  s.modJob j (fun x => { x with slots := store x.slots k (f (x.slot k)) CodeSlot.reset })

/-- A CLOSING slot whose counts are zero becomes FREE. -/
def CodeSlot.settle (c : CodeSlot) : CodeSlot :=
  if c.st = .closing ∧ c.queued = 0 ∧ c.stored = 0 then { c with st := .free } else c

/-- At the end of an attempt, a slot without the persist flag closes; at a job's stop every slot
does. -/
def endSlots (s : State) (j : Nat) (stop : Bool) : State :=
  (List.range 16).foldl (fun s k => s.modSlot j k (fun c =>
    if c.st = .free ∨ (!stop && c.persist) then c
    else CodeSlot.settle { c with st := .closing, stored := 0, queued := if stop then 0 else c.queued })) s

/-! ## The ring of the gradient log (R183) -/

def State.glogOn (s : State) (j : Nat) : Bool :=
  decide (s.fld MEM_GLOG_SIZE_log_en = 1) && decide (s.fld MEM_GLOG_SIZE_log_job = j)

def State.glogBase (s : State) : Nat := s.fld MEM_GLOG_BASE_base * 65536
def State.glogSize (s : State) : Nat := s.fld MEM_GLOG_SIZE_size * 65536

/-- Bytes that an entry occupies (Table MEM-9). -/
def GEntry.size (e : GEntry) : Nat := (32 + e.grad.length + 63) / 64 * 64

/-- A log entry of Table MEM-9. -/
def GEntry.bytes (e : GEntry) : Bytes :=
  let b := toLE 8 e.step.toNat ++ toLE 8 e.row.toNat ++ toLE 2 e.table ++ toLE 2 e.grad.length ++ toLE 4 e.origin.toNat ++
    toLE 2 e.tile ++ toLE 2 e.seq ++ toLE 4 e.position ++ e.grad
  b ++ List.replicate (e.size - b.length) 0

/-- The control words follow the ring: head, committed tail and provisional tail, as bytes counted since the
job started (DEDUCED, log entry 16). -/
def glogSync (s : State) (j : Nat) : State :=
  if s.glogOn j then
    let x := s.job j
    let size (l : List GEntry) : Nat := (l.map GEntry.size).sum
    s.setMem (s.glogBase + 16384) (toLE 8 x.gHead ++ toLE 8 (x.gHead + size (x.glog.filter (·.committed))) ++
      toLE 8 (x.gHead + size x.glog))
  else s

/-! ## The step ledger (R163 to R165) -/

/-- Exception kinds of the ledger, in the order of its records. -/
def excInvProd : Nat := 0
def excInvSum : Nat := 1
def excAccOvf : Nat := 2
def excVecInv : Nat := 3
def excVecDz : Nat := 4
def excVecOvf : Nat := 5
def excLookup : Nat := 6

/-- The order of first occurrences (R70): frame, tile, index, row, array, column. -/
def Exc.before (a b : Exc) : Bool :=
  let k (x : Exc) : List Nat := [x.frame, x.tile, x.index, x.row, x.array, x.column]
  decide (k a < k b)

/-- Take an exception into the ledger entry under construction; lookups keep the earliest (R70, R106). -/
def Ledger.note (l : Ledger) (e : Exc) : Ledger :=
  let r := look l.excs e.kind ⟨0, none⟩
  let first := match r.first with
    | none => e
    | some f => if e.kind ≠ excLookup ∧ e.before f then e else f
  { l with
    excs := store l.excs e.kind ⟨satTo 32 (r.count + 1), some first⟩ ⟨0, none⟩ }

/-- Add conversion counts of a tensor to a list kept in ascending id. -/
def addTensor (x : Tensor) : List Tensor → List Tensor
  | [] => [x]
  | y :: r =>
    if x.id.toNat < y.id.toNat then x :: y :: r
    else if x.id = y.id then
      { id := y.id, scaled := y.scaled || x.scaled, sat := y.sat + x.sat, zero := y.zero + x.zero, flush := y.flush + x.flush,
        nonzero := y.nonzero + x.nonzero, nan := y.nan + x.nan } :: r
    else y :: addTensor x r

/-- An exception record (Table STP-8). The frame of a lookup is its request tag, its tile and index
the index position; what the table gives no meaning there is free. -/
def excBytes (kind : Nat) (r : ExcRec) (free : Nat) : Bytes :=
  match r.first with
  | none => List.replicate 16 0
  | some e =>
    if kind = excLookup then
      toLE 4 r.count ++ toLE 4 e.frame ++ toLE 4 e.row ++ toLE 4 (Config.freeValue free).toNat
    else
      toLE 4 r.count ++ toLE 4 e.frame ++ toLE 2 e.tile ++ toLE 2 e.index ++ toLE 2 e.row ++
        toLE 1 e.array ++ toLE 1 e.column

/-- A tensor record (Table STP-9). -/
def tensorBytes (x : Tensor) : Bytes :=
  toLE 4 x.id.toNat ++ toLE 4 (satTo 32 x.sat) ++ toLE 4 (satTo 32 x.zero) ++
    toLE 4 (satTo 32 x.flush) ++ toLE 4 (satTo 32 x.nonzero) ++
    toLE 4 (if x.nonzero = 0 then 0 else ratio32 x.flush x.nonzero) ++ toLE 4 (satTo 32 x.nan) ++
    toLE 4 0

/-- A tensor has a record: it met a scaled conversion, a saturation, a flush or a NaN into a format
without NaN (R165). -/
def Tensor.listed (x : Tensor) : Bool :=
  x.scaled || decide (x.sat ≠ 0) || decide (x.flush ≠ 0) || decide (x.nan ≠ 0)

/-- How an attempt ended. -/
structure Ending where
  outcome : Nat
  reason : Nat
  prog : Nat
  origin : Nat
  flags : Nat
  flips : Nat
  deriving DecidableEq, Repr

/-- A ledger entry of 4,096 bytes (Table STP-7). -/
def ledgerBytes (s : State) (j : Nat) (x : Ending) : Bytes :=
  let job := s.job j
  let l := job.led
  let listed := l.tensors.filter Tensor.listed
  let kept := listed.take 120
  let slot (i : Nat) : Bytes := match l.exclusions[i]? with
    | some (g, b) => toLE 1 g ++ [0] ++ toLE 2 b
    | none => [0xFF, 0] ++ toLE 2 (Config.freeValue (s.free + i)).toNat
  let body :=
    toLE 8 (s.step j) ++ toLE 4 job.attemptNo ++ toLE 1 x.outcome ++ toLE 1 x.reason ++ toLE 1 x.prog ++
    toLE 1 (l.flags.toNat ||| x.flags ||| (if listed.length > 120 then 32 else 0)) ++
    toLE 4 x.origin ++ toLE 4 job.att.epoch.toNat ++ toLE 8 l.tOpen ++ toLE 8 l.tVote ++
    toLE 8 s.clock.siteTime ++ toLE 8 l.normSq.toNat ++ toLE 4 l.overruns ++ toLE 4 l.glogAppended ++
    toLE 32 l.contributors.toNat ++ slot 0 ++ slot 1 ++ slot 2 ++ slot 3 ++ toLE 4 l.buckets ++
    toLE 4 l.memUe ++ toLE 8 l.memUeAddr ++
    (List.range 7).flatMap (fun k => excBytes k (look l.excs k ⟨0, none⟩) (s.free + 4)) ++
    toLE 2 kept.length ++ toLE 2 l.mismatches ++ toLE 4 x.flips ++ toLE 8 0 ++
    kept.flatMap tensorBytes
  body ++ List.replicate (4096 - body.length) 0

/-! What a frame counts after its attempt has ended goes into the entry written for it: "the step that the frame served"
(R69, R111). -/

/-- Bytes of an entry replaced from an offset on. -/
def putBytes (b : Bytes) (o : Nat) (v : Bytes) : Bytes := b.take o ++ v ++ b.drop (o + v.length)

/-- One more exception in the record of its kind. -/
def patchExc (free : Nat) (b : Bytes) (e : Exc) : Bytes :=
  let o := 128 + 16 * e.kind
  let r := (b.drop o).take 16
  let n := leNat (r.take 4)
  let new := excBytes e.kind ⟨1, some e⟩ free
  let f (a c : Nat) : Nat := leNat ((r.drop a).take c)
  let first : Exc := { kind := e.kind, frame := f 4 4, tile := f 8 2, index := f 10 2, row := f 12 2, array := f 14 1, column := f 15 1 }
  putBytes b o (if n = 0 then new
    else toLE 4 (satTo 32 (n + 1)) ++ (if e.kind ≠ excLookup ∧ e.before first then new.drop 4 else r.drop 4))

/-- The tensor records of an entry. -/
def tensorsOf (b : Bytes) : List Tensor :=
  (pieces 32 120 ((b.drop 256).take (32 * leNat ((b.drop 240).take 2)))).map (fun r =>
    let f (a : Nat) : Nat := leNat ((r.drop a).take 4)
    { id := BitVec.ofNat 32 (f 0), scaled := true, sat := f 4, zero := f 8, flush := f 12, nonzero := f 16, nan := f 24 })

/-- Conversion counts added to the tensor records of an entry (R165). -/
def patchTensors (b : Bytes) (l : List Tensor) : Bytes :=
  if l.isEmpty then b
  else
    let all := (l.foldl (fun a y => addTensor y a) (tensorsOf b)).filter Tensor.listed
    let kept := all.take 120
    let flags := leNat ((b.drop 15).take 1) ||| (if all.length > 120 then 32 else 0)
    let b := putBytes (putBytes b 15 (toLE 1 flags)) 240 (toLE 2 kept.length)
    let r := kept.flatMap tensorBytes
    putBytes b 256 (r ++ List.replicate (3840 - r.length) 0)

/-- Change the written entry of an attempt, while the ring still holds it. -/
def patchEntry (s : State) (j q : Nat) (f : Bytes → Bytes) : State :=
  if q < (s.job j).ledgerSeq ∧ (s.job j).ledgerSeq ≤ q + s.ledgerEntries j then
    let a := s.ledgerBase j + 4096 * (q % s.ledgerEntries j)
    s.setMem a (f (s.mem a 4096))
  else s

/-- An overrun counts for the attempt that the frame serves (R111). -/
def countOverrun (s : State) (j q : Nat) : State :=
  if q = (s.job j).ledgerSeq then s.modLed j (fun l => { l with overruns := satTo 32 (l.overruns + 1) })
  else patchEntry s j q (fun b => putBytes b 56 (toLE 4 (satTo 32 (leNat ((b.drop 56).take 4) + 1))))

/-- Exceptions and conversion counts that the job's tiles hold are taken into the ledger entry of the attempt that each
frame serves: the one under construction, or the one written (R69, R70, R75, R99). -/
def takeExcs (s : State) (j : Nat) : State :=
  s.forTiles (s.job j).hasTile (fun s t =>
    let x := s.tile t
    if x.excs.isEmpty && x.tensors.isEmpty then s
    else
      let s := if x.serves = (s.job j).ledgerSeq then s.modLed j (fun l => { (x.excs.foldl Ledger.note l) with
          tensors := x.tensors.foldl (fun a y => addTensor y a) l.tensors })
        else { (patchEntry s j x.serves (fun b => patchTensors (x.excs.foldl (patchExc s.free) b) x.tensors)) with free := s.free + 1 }
      s.setTile t { x with excs := [], tensors := [] })

/-- The exception bits of a tile go into TILE_EXC and the summary of its job (R69, R79, R99, R414). -/
def gatherBits (s : State) (t : Nat) : State :=
  let b := (s.tile t).excBits.toNat
  if b = 0 then s
  else
    let s := (s.setReg (TILE_EXC_vec.key t) (s.reg (TILE_EXC_vec.key t) ||| b)).modTile t (fun x => { x with excBits := 0 })
    match s.jobOfTile t with
    | some j => s.orFld NUM_EXC_SUMMARY_exc b j
    | none => s

/-- Write the ledger entry of the open attempt (R163); the sequence number counts on. -/
def writeLedger (s : State) (j : Nat) (x : Ending) : State :=
  let q := (s.job j).ledgerSeq
  let a := s.ledgerBase j + 4096 * (q % s.ledgerEntries j)
  let s := s.setMem a (ledgerBytes s j x)
  { (s.modJob j (fun y => { y with ledgerSeq := q + 1, att := { y.att with started := false } })) with
    free := s.free + 6 }

/-! ## Aborts (R142, R144, R148) -/

def reasonLoss : Nat := 1
def reasonGrad : Nat := 2
def reasonNorm : Nat := 3
def reasonProgram : Nat := 4
def reasonMemUe : Nat := 5
def reasonReject : Nat := 6
def reasonAsync : Nat := 7
def reasonTileFault : Nat := 8
def reasonGlogFull : Nat := 9
def reasonDigest : Nat := 10
def reasonExclude : Nat := 11
def reasonVoteTimeout : Nat := 12
def reasonHost : Nat := 13
def reasonPeerLoss : Nat := 14

/-- A vote record of this device (R144, Table COL-5), with a veto code. -/
def voteRecord (s : State) (j veto : Nat) (ready : Bool) : Report :=
  let a := (s.job j).att
  { sender := BitVec.ofNat 12 s.self, tag := s.attTag j 0, rejoin := none, applied := BitVec.ofNat 32 a.decided, bucket := 0,
    veto := BitVec.ofNat 8 veto,
    flags := BitVec.ofNat 8 (ofBool a.lossNf + 2 * ofBool a.gradNf + 4 * ofBool ready),
    origin := BitVec.ofNat 32 (if veto = 0 then 0 else s.origin), norm := a.normPart }

/-- Record the reason of an abort: the lowest code of the attempt stands (R148). A replacement under R162 is noted
whatever the code. -/
def noteReason (s : State) (j reason prog origin : Nat) : State :=
  let lower := match (s.job j).att.reason with
    | none => true
    | some r => decide (reason < r.1.toNat)
  let s := if reason = reasonDigest then s.modAtt j (fun a => { a with replace := true }) else s
  if lower then
    ((s.modAtt j (fun a => { a with reason := some (BitVec.ofNat 8 reason, BitVec.ofNat 8 prog,
        BitVec.ofNat 22 origin) })).setReg (0x6030 + 0x100 * j)
      (reason + 256 * (if reason = reasonProgram then prog else 0) + origin % 2 ^ 22 * 2 ^ 32))
  else s

/-- The open attempt is abandoned: phase ABORTING, blocked contexts released (Table STP-2, R142). It
has no effect when no attempt is OPEN or VOTING (R147). -/
def beginAbort (s : State) (j reason prog origin : Nat) : State :=
  match (s.job j).phase with
  | .opened | .voting =>
    if (s.job j).att.started then
      releaseJob ((noteReason s j reason prog origin).modJob j (fun x => { x with phase := .aborting })) j
    else s
  | .aborting => noteReason s j reason prog origin
  | _ => s

/-- The coordinator issues a decision: it is numbered and leaves for every device of the job, this one
included (R239). Kinds are those of Table COL-5. -/
def issueDecision (s : State) (j kind : Nat) (d : Decision) : State :=
  let n := (s.job j).att.issued + 1
  decideAll (s.modAtt j (fun a => { a with issued := n })) j kind { d with number := BitVec.ofNat 32 n }

/-- The decision VOTE that carries a record (Table COL-5). -/
def voteDecision (r : Report) : Decision :=
  { tag := r.tag, rejoin := none, number := 0, group := 0, divisor := 0, bucket := 0, veto := r.veto, flags := r.flags, origin := r.origin,
    norm := r.norm }

/-- A report goes on along the reporting order; at the coordinator, or where no device is left, it goes nowhere. -/
def reportOn (s : State) (j kind : Nat) (r : Report) : State :=
  match s.reportsTo j s.self with
  | some (v, _) => sendReport s j kind v r
  | none => s

/-- A vote record with a veto goes on at once: to the coordinator, which decides by refusing (R144, R241). -/
def sendVeto (s : State) (j : Nat) (r : Report) : State :=
  if s.isCoordinator j then issueDecision s j 3 (voteDecision r) else reportOn s j 2 r

/-- A veto of job scope arises on this device: it aborts its attempt and sends the veto at once
(R144). -/
def raiseAbort (s : State) (j reason prog : Nat) : State :=
  match (s.job j).phase with
  | .opened | .voting =>
    if (s.job j).att.started then
      beginAbort (sendVeto s j (voteRecord s j reason false)) j reason prog s.origin
    else s
  | _ => beginAbort s j reason prog s.origin

/-- The ledger entry of an abandoned attempt: the state at its end. The reason of one that a job fault alone has ended is
none of Table STP-3: free (DESIGN CHOICE, log entry 2). -/
def abortEnding (s : State) (j : Nat) : Ending :=
  match (s.job j).att.reason with
  | some (r, p, o) =>
    { outcome := 1, reason := r.toNat, prog := if r.toNat = reasonProgram then p.toNat else 0,
      origin := o.toNat, flags := 0, flips := 0 }
  | none =>
    { outcome := 1, reason := (Config.freeValue (s.free + 5)).toNat % 256, prog := 0, origin := s.origin, flags := 0, flips := 0 }

/-- The source code of a class-1 reason in its lantern entry (DEDUCED, log entry 15). -/
def reasonSource (r : Nat) : Nat :=
  if r = reasonMemUe then 4 else if r = reasonReject ∨ r = reasonTileFault then 3 else 2

/-- The reasons that are class-1 faults of Table FLT-3. -/
def reasonIsFault (r : Nat) : Bool :=
  r = reasonMemUe ∨ r = reasonReject ∨ r = reasonAsync ∨ r = reasonTileFault ∨ r = reasonDigest ∨
    r = reasonPeerLoss

/-- One lantern entry of cause 0x0D per job, step and reason, after containment (R367). -/
def logAbort (s : State) (j r : Nat) (inj : Bool) : State :=
  if reasonIsFault r ∧ !(s.job j).logged.contains r then
    logEntry (s.modJob j (fun x => { x with logged := addTo r x.logged })) 1 (reasonSource r) 0x0D 1
      (2 ^ j) j r inj
  else s

/-- Digest-flagged regions written in the open attempt where the count of lines written differs from the region's: the
device sets their flag digest invalid, and the ledger entry says so (R160). -/
def markInvalid (s : State) (j : Nat) : State :=
  ((s.tracked j).zipIdx).foldl (fun s p =>
    if p.1.flags.testBit 0 ∧ p.1.flags.testBit 1 ∧ look (s.job j).dig.lines p.2 0 ≠ p.1.size / 128 then
      (s.putTracked j p.2 { p.1 with flags := p.1.flags ||| 4 }).modLed j (fun l => { l with flags := l.flags ||| 8 })
    else s) s

/-- The entry of the open attempt is written as aborted, its provisional work discarded: appends under way and
their entries, collectives, codebooks (R150, R153, R191, R246). -/
def closeAttempt (s : State) (j : Nat) : State :=
  let s := markInvalid (takeExcs s j) j
  let s := clearFlags (writeLedger s j (abortEnding s j)) j
  let s := s.modJob j (fun x => { x with
    led := Ledger.reset, glog := x.glog.filter (·.committed), colls := [], bucketNext := 0, sealedNext := 0, sealReports := [] })
  let s := s.modRouter (fun r => { r with xfers := r.xfers.filter (fun x => !(decide (x.job = j) && x.log)) })
  let s := (s.job j).domains.foldl (fun s q => s.modDom q (fun d => { d with appendQ := [], appends := [] })) s
  glogSync (endSlots s j false) j

/-! ## A job stops -/

/-- A request of a session has been executed: its response is kept with those of the fifteen before it, and leaves
(R310). -/
def finishReq (s : State) (slot n op : Nat) (r : Resp) : State :=
  match assoc s.host.sessions slot with
  | none => s
  | some x =>
    let kept := (x.kept ++ [(n, op, r)]).filter (fun k => decide (n ≤ k.1 + 15))
    (s.setSession slot { x with last := n, kept := kept, busy := none }).sendTo slot (.response x.id (BitVec.ofNat 64 n) op r)

/-- The JOB_STOP requests that wait for a job are answered (R311). -/
def answerStops (s : State) (j : Nat) : State :=
  let mine := s.host.pendingStop.filter (fun p => p.2.2 = j)
  mine.foldl (fun s p => match s.host.sessions.find? (fun q => q.2.id = p.1) with
      | none => s
      | some (slot, _) => finishReq s slot p.2.1 0x11 { status := 0, data := [] })
    (s.modHost (fun h => { h with pendingStop := h.pendingStop.filter (fun p => p.2.2 ≠ j) }))

/-- A job becomes STOPPED on the device; when it was the last, RUN and DRAIN end in READY (Table
BOT-6). The exception flags of its tiles are gathered while they still are the job's (R69, DEDUCED, log entry 119). -/
def stopJob (s : State) (j : Nat) : State :=
  let s := (s.forTiles (s.job j).hasTile gatherBits).forTiles (s.job j).hasTile stopTile
  let s := s.modJob j (fun x => { x with
    running := false, phase := .stopped, barriers := [], colls := [], glog := [], applying := [],
    att := { x.att with started := false, voted := false, stopNext := false, stopCommit := false, commitHeld := false, fault := false },
    rejoinAsked := [], rejoining := [], waitAll := false, early := [] })
  let s : State := { s.modRouter (fun r => { r with xfers := r.xfers.filter (fun x => x.job ≠ j) }) with
    lanes := s.lanes.filter (fun l => decide (l.1 ≠ j)) }
  let s := (s.job j).domains.foldl (fun s q => s.modDom q (fun d => { d with
    lookupQ := [], appendQ := [], codecQ := [], encQ := [], lookups := [], appends := [] })) (endSlots s j true)
  let s := answerStops s j
  match s.plat.dev with
  | .run | .drain => if s.runningJobs.isEmpty then s.enter .ready else s
  | _ => s

/-- A job goes to OPEN between attempts; in DRAIN, or when it is to stop, it is STOPPED in place of opening another
(Table STP-2, R147). -/
def reopen (s : State) (j : Nat) : State :=
  if s.plat.dev = .drain ∨ (s.job j).att.stopNext then stopJob s j else s.modJob j (fun x => { x with phase := .opened })

/-! ## Classes 2, 3 and 4 -/

/-- Withdrawal from one job (R356): the open attempt aborts on this device with PEER_LOSS, its
ledger entry is written, the withdrawal is announced to the slice and the job stops. -/
def withdrawJob (s : State) (j : Nat) : State :=
  if (s.job j).running then
    let s := beginAbort s j reasonPeerLoss 0 s.origin
    let s := if (s.job j).att.started then closeAttempt s j else s
    stopJob (tellSlice s j (.withdrawal 2 (devNo s.self))) j
  else s

/-- A fault of class 2 or 3 raised in the pause of a handover waits for the new firmware (R374). -/
def latch (s : State) (x : Latched) : State :=
  if s.svc.latched.contains x then s else s.modSvc (fun v => { v with latched := v.latched ++ [x] })

/-- A message or deadline whose decision waits for the new firmware of a handover (R374). -/
def holdBack (s : State) (i : Instr) : State := s.modSvc (fun v => { v with waiting := v.waiting ++ [i] })

/-- A device-contained fault: logged before the device acts, then withdrawal from each affected job
(R348, R356, R367). -/
def deviceContain (s : State) (jobs : List Nat) (source cause loc0 loc1 : Nat) (inj : Bool) : State :=
  if s.svc.paused then latch s ⟨2, jobs, source, cause, loc0, loc1, inj⟩
  else jobs.foldl withdrawJob (logEntry s 2 source cause 3 (maskOf jobs) loc0 loc1 inj)

/-- A job fault: logged, told by notice 2, the job stopped (R348, R444). An open attempt goes to ABORTING first, and the job
stops once it has drained and its ledger entry stands (Table STP-2, R163). -/
def jobFault (s : State) (j code : Nat) (inj : Bool := false) : State :=
  if s.svc.paused then latch s ⟨3, [j], 2, 0x0C, j, code, inj⟩
  else if (s.job j).running then
    let s := (logEntry s 3 2 0x0C 4 (2 ^ j) j code inj).notify 2 j code
    if (s.job j).att.started then
      match (s.job j).phase with
      | .opened | .voting =>
        releaseJob (s.modJob j (fun x => { x with phase := .aborting, att := { x.att with fault := true } })) j
      | .aborting => s.modAtt j (fun a => { a with fault := true })
      | _ => stopJob s j
    else stopJob s j
  else s

/-- A stack domain is withdrawn (R352): every job that owns it is device-contained. -/
def withdrawDomain (s : State) (q source cause loc0 loc1 : Nat) (inj : Bool) : State :=
  let jobs := match s.owner q with
    | some j => [j]
    | none => []
  deviceContain (s.setFld MEM_STACK_STATUS_withdrawn 1 q) jobs source cause loc0 loc1 inj

/-- The states that a fatal fault leaves for FAULT (Table BOT-6): BOOT once Lerhus runs, TRAIN, READY,
RUN and DRAIN. -/
def State.mayFail (s : State) : Bool :=
  match s.plat.dev with
  | .boot => decide (2 ≤ s.fld SEC_STATUS_stage)
  | .train | .ready | .run | .drain => true
  | _ => false

/-- LS_EN and the light of the links (R432). -/
def setLight (s : State) (on : Bool) : State :=
  if s.plat.lsEn = on then s else (s.modPlat (fun p => { p with lsEn := on })).emit (.pin pinLsEn on)

/-- A port that holds nothing of its link: only its state, its light, its hold and its own nonce remain. -/
def Port.bare (x : Port) (st : LinkSt) : Port :=
  { Port.reset with st := st, lightHold := x.lightHold, light := x.light, ownNonce := x.ownNonce }

/-- The skipped devices and the adoption of a port end with its link (R218, R219). -/
def clearPeer (s : State) (p : Nat) : State :=
  ((s.setFld FAB_PORT_STATUS_skipped 0 p).setFld FAB_PORT_STATUS_adopted 0 p).setFld FAB_PORT_STATUS_adopted_dir 0 p

/-- Every fabric link is down: the transmitters carry no data (R383, R432). -/
def darkPorts (s : State) : State :=
  (List.range 10).foldl (fun s p => if (s.port p).st = .disabled then s else clearPeer (s.modPort p (fun x => x.bare .down)) p) s

/-- The associations of every page are erased; sessions keep their keys (R345). -/
def erasePages (s : State) : State :=
  s.modSec (fun x => { x with assocs := x.assocs.filter (fun a => decide (a.kind = 1)), shakes := x.shakes.filter (fun h => decide (h.init.kind = 1)) })

/-- A fatal fault (R354): the entry is written, every block but Lerhus stops, the DRAM stacks go into
self-refresh, every job is STOPPED without a ledger entry, the device enters FAULT, and the bypass
closes when armed (R223; from BOOT it stays closed). Page keys are erased (R345), staged writes discarded
(R371), and LS_EN falls (R432). -/
def fatal (s : State) (source cause loc0 loc1 : Nat) (inj : Bool := false) : State :=
  if s.mayFail then
    let s := logEntry s 4 source cause 5 (maskOf s.runningJobs) loc0 loc1 inj
    let fromBoot := decide (s.plat.dev = .boot)
    let s := s.modPlat (fun p => { p with selfRefresh := true, faultFromBoot := fromBoot, dev := .fault, pwr := .none })
    let s := s.runningJobs.foldl stopJob s
    let s : State := { (darkPorts (erasePages (setLight s false))) with staged := [] }
    let s := s.notify 1 0xFF DevState.fault.code
    if s.fld FAB_BYPASS_STATUS_bypass_arm = 1 then setBypass s true else s
  else s

/-- async_err is set with the failed instruction's context and index, and the attempt aborts with
ASYNC (R128, R361). -/
def asyncError (s : State) (t ctx index : Nat) : State :=
  let s := ((s.setFld TILE_STATUS_async_err 1 t).setFld TILE_STATUS_async_index index t).setFld
    TILE_STATUS_async_ctx ctx t
  match s.jobOfTile t with
  | some j => raiseAbort s j reasonAsync 0
  | none => s

/-- A read of the attempt met uncorrectable lines (R177, R149, Table MEM-4): a job with step regions
aborts with MEM_UE and keeps the damage to live copies for repair; a job without is told by notice
10. -/
def memUe (s : State) (j : Nat) (lines : List Nat) : State :=
  match lines with
  | [] => s
  | l :: _ =>
    let s := s.count MEM_ECC_COUNT_uncorrectable lines.length
    if (s.regions j).isEmpty then lines.foldl (fun s l => s.notify 10 j l) s
    else
      let bad := lines.filter (fun l => (s.regions j).any (fun r => overlaps l 64 r.live r.size))
      let s := s.modLed j (fun x => { x with
        memUe := x.memUe + lines.length, memUeAddr := if x.memUe = 0 then l else x.memUeAddr })
      let s := s.modAtt j (fun a => { a with damage := bad.foldl (fun d l => addTo l d) a.damage })
      raiseAbort s j reasonMemUe 0

end Sys2Proof.Machine
end

