-- ==== Sys2Proof/Machine/Local.lean ====
section
/-! DEFINITION. The local address space (R168 to R170): what an address names, what a job may reach,
reads and writes by address with uncorrectable lines and refused ranges (R138, R139, R175, R177, R183,
R253), and the completion of an asynchronous instruction. -/
namespace Sys2Proof.Machine

/-- What a range of local addresses names (Table MEM-2). -/
inductive Place where
  | dram
  | spad
  | queue
  | regs
  | none
  deriving DecidableEq, Repr

def spadBase : Nat := 0x10000000000
def queueBase : Nat := 0x18000000000
def regBase : Nat := 0x20000000000

/-- The place that a whole range lies in; `none` when it lies in no one. -/
def placeOf (a n : Nat) : Place :=
  if a + n ≤ 4 * quarter then .dram
  else if spadBase ≤ a ∧ a + n ≤ spadBase + 1024 * 0x40000 then .spad
  else if queueBase ≤ a ∧ a + n ≤ queueBase + 0x40000 ∧ (a - queueBase) / 0x10000 = (a + n - 1 - queueBase) / 0x10000 then
    .queue
  else if regBase ≤ a ∧ a + n ≤ regBase + 0x10000 then .regs
  else .none

/-- The tile of a scratchpad address, and the offset in its scratchpad. -/
def spadTile (a : Nat) : Nat := (a - spadBase) / 0x40000
def spadOff (a : Nat) : Nat := (a - spadBase) % 0x40000

/-- The stack domain of a queue window address, and the offset in its window. -/
def queueDom (a : Nat) : Nat := (a - queueBase) / 0x10000
def queueOff (a : Nat) : Nat := (a - queueBase) % 0x10000

/-- A range lies in the DRAM quarters or scratchpads of the stack domains of a mask (R13). -/
def inJob (mask a n : Nat) : Bool :=
  match placeOf a n with
  | .dram => inQuarters mask a n
  | .spad => decide (0 < n) && mask.testBit (spadTile a / 256) && mask.testBit (spadTile (a + n - 1) / 256)
  | _ => false

/-! ## Interleave (R167, R171) -/

/-- The key of the word of MEM_CHAN_MAP that maps a logical channel. -/
def chanKey (q c : Nat) : Nat := 0x3100 + 0x40 * q + 8 * (c / 8)

/-- The physical channel of a logical channel (R167). -/
def State.chanPhys (s : State) (q c : Nat) : Nat := bits (s.reg (chanKey q c)) (8 * (c % 8)) (8 * (c % 8) + 7)

/-- Where the device places a job offset over m stack domains: the position of the domain, the logical channel and the byte within
the channel. -/
def place (o m : Nat) : Nat × Nat × Nat :=
  let g := o / 2048
  let k := g / 64 / m
  let f := (k ^^^ (k >>> 6) ^^^ (k >>> 12) ^^^ (k >>> 18)) % 64
  ((g / 64 % m + k) % m, (g % 64) ^^^ f, k * 2048 + o % 2048)

/-- The stack domains of a mask, ascending. -/
def maskDoms (mask : Nat) : List Nat := (List.range 4).filter (fun q => mask.testBit q)

/-- The job offset of a DRAM address: its position in the job's quarters. -/
def jobOffset (mask a : Nat) : Nat := quarter * ((maskDoms mask).filter (fun q => decide (q < a / quarter))).length + a % quarter

/-- The stack and the physical channel that hold a DRAM address of a job. -/
def State.channelOf (s : State) (mask a : Nat) : Nat × Nat :=
  let p := place (jobOffset mask a) (maskDoms mask).length
  let q := (maskDoms mask).getD p.1 0
  (q, s.chanPhys q p.2.1)

/-- A channel controller, with its codec encoder and decoder, by its block number (R366). -/
def isChannel (b : Nat) : Bool := decide (1056 ≤ b) && decide (b < 1320)

/-- A controller of a channel that holds part of a DRAM range of a job makes no progress. -/
def State.channelStopped (s : State) (mask a n : Nat) : Bool :=
  (s.svc.wedged.any isChannel || s.svc.stalled.any (fun x => isChannel x.1)) && decide (0 < n) && decide (placeOf a n = .dram) &&
    (List.range ((a + n - 1) / 2048 + 1 - a / 2048)).any (fun g =>
      let c := s.channelOf mask (2048 * (a / 2048 + g))
      s.halted (1056 + 66 * c.1 + c.2))

/-! ## Ranges that only the device writes -/

/-- The control words and the ring of the gradient log (R183). -/
def State.glogRanges (s : State) (j : Nat) : List (Nat × Nat) :=
  if s.glogOn j then [(s.glogBase + 16384, 24), (s.glogBase + 65536, s.glogSize - 65536)] else []

/-- The parts of the DXE configuration block with the round-state area (R253, R282). -/
def State.dxeRanges (s : State) (j : Nat) : List (Nat × Nat) :=
  if s.fld DXE_CTRL_enable j = 1 then
    let b := s.fld DXE_CTRL_dxe_base j
    let w (o n : Nat) : Nat := leNat (s.mem (b + o) n)
    [(b, 64), (b + w 24 8, 16 * w 8 4), (b + w 32 8, 64 * w 12 4), (b + w 40 8, 64 * w 16 2),
     (b + w 48 8, w 56 8)]
  else []

/-- A write of a program or a transfer into the range is refused (R138, R139, R183, R253). -/
def State.refuses (s : State) (j a n : Nat) : Bool :=
  s.touchesLive j a n || (s.glogRanges j ++ s.dxeRanges j).any (fun r => overlaps a n r.1 r.2)

/-! ## Codec counters (R170, R195) -/

/-- BUILD commands at the heads of the job's command queues while no slot is free. -/
def State.buildsWaiting (s : State) (j : Nat) : Nat :=
  if (s.job j).freeSlots.isEmpty then
    ((s.job j).domains.filter (fun q => match (s.dom q).codecQ with
      | d :: _ => decide (d.bytes.headD 0 = 1)
      | [] => false)).length
  else 0

/-- The eight counters of the window of the job's lowest stack domain; other windows read zero. -/
def State.codecCounters (s : State) (q : Nat) : Bytes :=
  match s.owner q with
  | none => List.replicate 64 0
  | some j =>
    if (s.job j).domains.head? = some q then
      ((List.range 6).flatMap (fun k => toLE 8 (look (s.job j).counters k 0).toNat)) ++
        toLE 8 (s.buildsWaiting j) ++ toLE 8 (s.job j).freeSlots.length
    else List.replicate 64 0

/-! ## Reads and writes by address -/

/-- Bytes of DRAM with uncorrectable lines delivered as zeros (Table MEM-4), and those lines. -/
def State.readDram (s : State) (a n : Nat) : Bytes × List Nat :=
  match s.ueIn a n with
  | [] => (s.mem a n, [])
  | bad =>
    ((List.range n).map (fun i => if bad.contains (64 * ((a + i) / 64)) then 0 else rd s.dram (a + i)), bad)

/-- Bytes of scratchpads. -/
def State.readSpad (s : State) (a n : Nat) : Bytes :=
  if spadOff a + n ≤ 0x40000 then rdN (s.tile (spadTile a)).spad (spadOff a) n
  else (List.range n).map (fun i => rd (s.tile (spadTile (a + i))).spad (spadOff (a + i)))

/-- Bytes at a local address, and the uncorrectable lines met. A queue reads as zero; its counters as
R195 says. -/
def State.readAt (s : State) (a n : Nat) : Bytes × List Nat :=
  match placeOf a n with
  | .dram => s.readDram a n
  | .spad => (s.readSpad a n, [])
  | .queue =>
    ((List.range n).map (fun i =>
      let o := queueOff (a + i)
      if 0x3000 ≤ o ∧ o < 0x3040 then (s.codecCounters (queueDom a)).getD (o - 0x3000) 0 else 0), [])
  | _ => (List.replicate n 0, [])

/-- Write bytes of scratchpads. -/
def State.writeSpad (s : State) (a : Nat) (bs : Bytes) : State :=
  if spadOff a + bs.length ≤ 0x40000 then
    s.modTile (spadTile a) (fun x => { x with spad := wrN x.spad (spadOff a) bs })
  else (bs.zipIdx).foldl (fun s p =>
    s.modTile (spadTile (a + p.2)) (fun x => { x with spad := wrN x.spad (spadOff (a + p.2)) [p.1] })) s

/-- Write bytes of DRAM for a job: a line that is uncorrectable and not written whole is refused, the
others are written (R177). -/
def State.writeDram (s : State) (j a : Nat) (bs : Bytes) : State × List Nat :=
  let bad := (s.ueIn a bs.length).filter (fun l => !(decide (a ≤ l) && decide (l + 64 ≤ a + bs.length)))
  if bad.isEmpty then (s.writeFor j a bs, [])
  else
    ((linesOf a bs.length).foldl (fun s l =>
      if bad.contains l then s
      else
        let lo := max a l
        let hi := min (a + bs.length) (l + 64)
        s.writeFor j lo ((bs.drop (lo - a)).take (hi - lo))) s, bad)

/-- A write by a program or a transfer of a job: its status, and the uncorrectable lines it could not
merge into. -/
def State.writeAt (s : State) (j a : Nat) (bs : Bytes) : State × Nat × List Nat :=
  match placeOf a bs.length with
  | .dram =>
    if s.refuses j a bs.length then (s, stLive, [])
    else
      let r := s.writeDram j a bs
      (r.1, if r.2.isEmpty then stOk else stMemUe, r.2)
  | .spad => (s.writeSpad a bs, stOk, [])
  | _ => (s, stAddr, [])

/-! ## Completion of an asynchronous instruction (R128, R130, R208) -/

/-- An asynchronous instruction or a request of a tile failed: async_err names it, and the attempt
aborts with ASYNC. A MEM_UE in a job without step regions aborts nothing (Table MEM-4). -/
def asyncFail (s : State) (t ctx index status : Nat) : State :=
  match s.jobOfTile t with
  | some j =>
    if status = stMemUe ∧ (s.regions j).isEmpty then
      ((s.setFld TILE_STATUS_async_err 1 t).setFld TILE_STATUS_async_index index t).setFld
        TILE_STATUS_async_ctx ctx t
    else asyncError s t ctx index
  | none => asyncError s t ctx index

/-- An asynchronous instruction completes: its event counts, a failure is marked. -/
def asyncDone (s : State) (t id status : Nat) : State :=
  match (s.tile t).asyncs.find? (fun a => a.id = id) with
  | none => s
  | some a =>
    let s := s.modTile t (fun x => { (x.addEvent a.event 1) with asyncs := x.asyncs.filter (fun b => b.id ≠ id) })
    let s := if status = stOk then s else asyncFail s t a.ctx a.index status
    s.settle t

/-- The number that names a new asynchronous instruction of a tile. -/
def Tile.asyncId (t : Tile) : Nat := (t.asyncs.map (·.id)).foldl (fun m i => max m (i + 1)) 0

end Sys2Proof.Machine
end

