-- ==== Sys2Proof/Machine/Operands.lean ====
section
/-! DEFINITION. Operand forms of tile instructions: unused fields, scalar operands, scratchpad
addresses and register-file ranges (R45, R82, R118, R119). -/
namespace Sys2Proof.Machine

/-- Which fields of layout R an instruction form uses; `aux` and `imm` are masks of used bits. -/
structure Uses where
  a : Bool := false
  b : Bool := false
  c : Bool := false
  d : Bool := false
  e : Bool := false
  f : Bool := false
  aux : Nat := 0
  imm : Nat := 0
  deriving DecidableEq, Repr

/-- Unused fields and bits are zero (R118). -/
def unusedZero (l : LayR) (u : Uses) : Bool :=
  (u.a || l.fa = 0) && (u.b || l.fb = 0) && (u.c || l.fc = 0) && (u.d || l.fd = 0) &&
    (u.e || l.fe = 0) && (u.f || l.ff = 0) &&
    decide (l.aux.toNat &&& (2 ^ 26 - 1 - u.aux) = 0) &&
    decide (l.imm.toNat &&& (2 ^ 64 - 1 - u.imm) = 0)

/-- All 64 bits of the immediate. -/
def immAll : Nat := 2 ^ 64 - 1

/-- Bits of aux. -/
def auxBits (l : LayR) (lo hi : Nat) : Nat := bits l.aux.toNat lo hi

/-- (s + imm) mod 2^64 (R119). -/
def effAddr (base imm : Word) : Nat := (base + imm).toNat

/-- The whole access lies within the 256 KiB scratchpad (R119). -/
def spadOk (a n : Nat) : Bool := decide (a + n ≤ 262144)

/-- A scratchpad range split at line boundaries: address and length of each access (R48). -/
def linePieces (a n : Nat) : List (Nat × Nat) :=
  if n = 0 then []
  else (List.range ((a + n - 1) / 128 + 1 - a / 128)).map (fun k =>
    let lo := max a (128 * (a / 128 + k))
    (lo, min (a + n) (128 * (a / 128 + k + 1)) - lo))

/-- The number of registers that n bytes from byte 0 of a register touch. -/
def regsOf (n : Nat) : Nat := (n + 255) / 256

/-- n bytes from byte 0 of register v stay within v63 (R82, R122). -/
def vrfOk (v n : Nat) : Bool := decide (256 * v + n ≤ 16384)

/-- n bits from bit 0 of register v stay within v63. -/
def vrfBitsOk (v nbits : Nat) : Bool := decide (2048 * v + nbits ≤ 131072)

/-- Register ranges (first register, count) overlap. -/
def regsOverlap (x y : Nat × Nat) : Bool :=
  decide (0 < x.2) && decide (0 < y.2) && decide (x.1 < y.1 + y.2) && decide (y.1 < x.1 + x.2)

/-- Bytes of the register file. -/
def Tile.vbytes (t : Tile) (a n : Nat) : Bytes := rdN t.vrf a n

/-- Element q of a stream of w-bit elements from a byte of the register file (R82). -/
def vrfElem (m : Sparse Byte) (base w q : Nat) : Nat :=
  let b := q * w
  (leNat (rdN m (base + b / 8) ((b % 8 + w + 7) / 8)) >>> (b % 8)) % 2 ^ w

/-- Write element q of a stream of w-bit elements: only the element's own bits change (R82). -/
def vrfPut (m : Sparse Byte) (base w q v : Nat) : Sparse Byte :=
  let b := q * w
  let n := (b % 8 + w + 7) / 8
  let old := leNat (rdN m (base + b / 8) n)
  wrN m (base + b / 8) (toLE n (withBits old (b % 8) (b % 8 + w - 1) v))

/-- Pack elements of w bits, least significant first, into bytes (R30, R82). -/
def packElems (w : Nat) (vs : List Nat) : Bytes :=
  let n := vs.zipIdx.foldl (fun a p => a + (p.1 % 2 ^ w) <<< (w * p.2)) 0
  toLE ((w * vs.length + 7) / 8) n

/-- Pack a stream of w-bit elements into bytes, eight elements at a time; bits of the last byte past the
stream are those of `old` (R82). -/
def packStream (w : Nat) (vs : List Nat) (old : Byte) : Bytes :=
  let bs := (pieces 8 (vs.length + 1) vs).flatMap (packElems w)
  let r := w * vs.length % 8
  if r = 0 then bs
  else bs.dropLast ++ [BitVec.ofNat 8 ((bs.getLastD 0).toNat % 2 ^ r + old.toNat / 2 ^ r * 2 ^ r)]

end Sys2Proof.Machine
end

