-- ==== Sys2Proof/Machine/TileIssue.lean ====
section
/-! DEFINITION. How a tile instruction issues: the conditions, the rejection (R128), what holds it
back (R41, R101, R116, R129), and the advance of the index (R118). -/
namespace Sys2Proof.Machine

/-- Rejection codes of Table PRG-7. -/
def rejOpcode : Nat := 1
def rejFormat : Nat := 2
def rejPair : Nat := 3
def rejKl5 : Nat := 4
def rejRange : Nat := 5
def rejAlign : Nat := 6
def rejOverlap : Nat := 7
def rejDesc : Nat := 8
def rejContext : Nat := 9
def rejAddr : Nat := 10
def rejStep : Nat := 11
def rejSync : Nat := 12

/-- What the issue of an instruction comes to: a rejection with its code, a hold, an effect after
which the index advances, a taken branch, or the end of the context's frame. -/
inductive Issue where
  | reject (code : Nat)
  | hold
  | go (s : State)
  | jump (s : State) (index : Nat)
  | ended (s : State)

/-- A rejection (R128): nothing further issues on the tile, TILE_STATUS names it, the attempt aborts
with REJECT, and a recurrence of the rejection that ended the attempt before is a job fault (R350). -/
def rejectAt (s : State) (t c index code : Nat) : State :=
  let s := ((s.setFld TILE_STATUS_rej_code code t).setFld TILE_STATUS_rej_index index t).setFld
    TILE_STATUS_rej_ctx c t
  let s := (s.modTile t (fun x => { x with rejected := true })).settle t
  match s.jobOfTile t with
  | none => s
  | some j =>
    let again := (s.job j).att.lastReject.contains (t, index, code)
    let s := s.modAtt j (fun a => { a with newReject := a.newReject ++ [(t, index, code)] })
    let s := raiseAbort s j reasonReject 0
    if again then jobFault s j reasonReject else s

/-- The turn of a context in the cyclic order 0, 1, 2 after the context that issued last: every context before it
cannot issue, because it does not run or because it has been found held (R116, DESIGN CHOICE, log entry 11). -/
def Tile.turn (x : Tile) (c : Nat) : Bool :=
  (((List.range 3).map (fun k => (x.last + 1 + k) % 3)).takeWhile (fun d => decide (d ≠ c))).all
    (fun d => decide ((x.ctx d).run ≠ .running) || x.passed.contains d)

/-- A context may issue: the clocks run, its tile runs a frame, no rejection has ended its issuing, it does not
wait, and it is its turn. -/
def mayIssue (s : State) (i : At) : Bool :=
  let x := s.tile i.tile
  s.blocksRun && x.turn i.ctx && x.busy && !x.rejected && decide ((x.ctx i.ctx).run = .running) && (s.jobOfTile i.tile).isSome &&
    s.ctxEnabled i.tile i.ctx

/-- The context waits under an abort: a wait it reaches is released at once (R142). -/
def releaseIfAborting (s : State) (i : At) : State :=
  match s.jobOfTile i.tile with
  | none => s
  | some j => match (s.job j).phase with
    | .aborting | .repairing => releaseTile s i.tile
    | _ => s

/-- The word that a context fetches: 16 bytes of instruction memory at 16 × index, least significant first
(R118). -/
def State.fetched (s : State) (i : At) : IWord :=
  let x := s.tile i.tile
  BitVec.ofNat 128 (leNat (rdN x.imem (16 * (x.ctx i.ctx).index) 16))

/-- The context of a tile that has issued, at its new index. -/
def State.passOn (s : State) (i : At) (n : Nat) : State :=
  s.modTile i.tile (fun x => { (x.modCtx i.ctx (fun y => { y with index := n })) with last := i.ctx, passed := [] })

/-- Issue one instruction: the one that stands at the context's index. A word of an undefined opcode is rejected
(R118, R128). An instruction that is held lets the next context issue, and issues when it is given again (R116,
DESIGN CHOICE, log entry 11). -/
def issue (op : Instr) (i : At) (s : State) (f : State → Issue) : Res :=
  if mayIssue s i then
    let t : Nat := i.tile
    let c : Nat := i.ctx
    let index := ((s.tile t).ctx c).index
    if (tileInstr i (s.fetched i)).isNone then .next (rejectAt s t c index rejOpcode)
    else if tileWord op = some (s.fetched i) then
      match f s with
      | .reject code => .next (rejectAt s t c index code)
      | .hold => .next (s.modTile t (fun x => { x with passed := addTo c x.passed }))
      | .go s' =>
        if index = 4095 then .next (rejectAt s t c index rejRange)
        else .next (releaseIfAborting ((s'.passOn i (index + 1)).settle t) i)
      | .jump s' n => .next (s'.passOn i n)
      | .ended s' => .next ((s'.modTile t (fun x => { x with last := c, passed := [] })).settle t)
    else .next s
  else .next s

/-! ## Operands in the state -/

/-- The context that issues. -/
def State.ctxOf (s : State) (i : At) : Ctx := (s.tile i.tile).ctx i.ctx

/-- A scalar source. -/
def State.sreg (s : State) (i : At) (r : BitVec 5) : Word := (s.ctxOf i).sreg r.toNat

/-- A scalar destination written. -/
def State.putSreg (s : State) (i : At) (r : BitVec 5) (v : Word) : State :=
  s.modTile i.tile (fun x => x.modCtx i.ctx (fun y => y.setSreg r.toNat v))

/-- Scalar registers that a scalar load in flight will write hold back their readers and writers. -/
def State.sregBusy (s : State) (i : At) (rs : List (BitVec 5)) : Bool :=
  (s.tile i.tile).ls.any (fun l => decide (l.ctx = i.ctx) && (match l.kind with
    | .lds _ _ _ sd => rs.any (fun r => decide (r.toNat = sd) && decide (sd ≠ 0))
    | _ => false))

/-- Registers that no instruction may read or write before an instruction in flight completes: the
destinations of matrix, vector and load instructions (R41, R101, R129). -/
def Tile.destBusy (t : Tile) : List (Nat × Nat) :=
  t.mms.map (fun m => (m.lay.dbase.toNat, m.lay.dcount.toNat + 1)) ++
  t.vcs.map (fun v => (v.lay.dbase.toNat, regsOf ((v.dbits + 7) / 8))) ++
  t.ls.filterMap (fun l => match l.kind with
    | .ld _ base n => some (base / 256, regsOf n)
    | .ldt _ _ base n => some (base / 256, regsOf (32 * n))
    | _ => none)

/-- Registers that no instruction may write before they have been read: the stationary sources of a matrix
instruction until its stream begins, its stream sources until its last row has been read, which the start of the next
stream or its completion shows, the sources of a vector instruction likewise, and what an STC reads until
it completes (R41, R101, R129). -/
def Tile.srcBusy (t : Tile) : List (Nat × Nat) :=
  (t.mms.filter (fun m => !m.streaming)).flatMap (·.srcs) ++
  (t.mms.filter (fun m => !m.ended)).flatMap (·.streams) ++
  (t.vcs.filter (fun v => !v.ended)).flatMap (·.srcs) ++
  t.ls.map (·.holds)

/-- Register ranges to be read are not busy results. -/
def State.readable (s : State) (t : Nat) (rs : List (Nat × Nat)) : Bool :=
  let b := (s.tile t).destBusy
  rs.all (fun r => b.all (fun x => !regsOverlap r x))

/-- Register ranges to be written are neither busy results nor sources still to be read. -/
def State.writable (s : State) (t : Nat) (rs : List (Nat × Nat)) : Bool :=
  let x := s.tile t
  rs.all (fun r => (x.destBusy ++ x.srcBusy).all (fun y => !regsOverlap r y))

/-- Predicates that a vector instruction in flight will write (R96). -/
def State.predBusy (s : State) (t : Nat) (p : Nat) : Bool :=
  decide (p ≠ 0) && (s.tile t).vcs.any (fun v => v.preds.contains p)

/-- The order number of the next synchronous instruction of a tile. -/
def Tile.takeOp (t : Tile) : Nat × Tile := (t.opNext, { t with opNext := t.opNext + 1 })

end Sys2Proof.Machine
end

