-- ==== Sys2Proof/Machine/Sync.lean ====
section
/-! DEFINITION. Events, fences and barriers (R130 to R134, R249). A waiting context has already passed its
instruction: it goes on at the next one. -/
namespace Sys2Proof.Machine

/-- The fields of WAIT, EVSET and EVADD: the value comes from sa, or from imm[31:0] when aux[5] is 1. -/
def eventUses (f : LayR) : Uses :=
  let immMode := f.aux.getLsbD 5
  { b := !immMode, aux := 0x3F, imm := if immMode then 0xFFFFFFFF else 0 }

/-- The 32-bit value of WAIT, EVSET and EVADD. -/
def eventValue (s : State) (i : At) (f : LayR) : BitVec 32 :=
  if f.aux.getLsbD 5 then f.imm.setWidth 32 else (s.sreg i f.fb).setWidth 32

/-- Issue WAIT, EVSET or EVADD. -/
def issueEvent (i : At) (f : LayR) (act : Nat → BitVec 32 → Tile → Tile) (s : State) : Issue :=
  if !unusedZero f (eventUses f) then .reject rejOpcode
  else if s.sregBusy i [if f.aux.getLsbD 5 then 0 else f.fb] then .hold
  else .go (s.modTile i.tile (act (auxBits f 0 4) (eventValue s i f)))

/-- WAIT holds its context until the counter reaches the value (R130). -/
def execWait (i : At) (f : LayR) (s : State) : Res :=
  issue (.wait i f) i s (issueEvent i f (fun e v x => x.modCtx i.ctx (fun y => { y with run := .wait e v })))

/-- EVSET writes the event counter (R130). -/
def execEvset (i : At) (f : LayR) (s : State) : Res :=
  issue (.evset i f) i s (issueEvent i f (fun e v x => x.setEvent e v))

/-- EVADD adds its value once every earlier synchronous instruction of its context has completed
(R131). -/
def execEvadd (i : At) (f : LayR) (s : State) : Res :=
  issue (.evadd i f) i s (issueEvent i f (fun e v x =>
    let op := x.takeOp
    { op.2 with evadds := x.evadds ++ [(op.1, (i.ctx : Nat), e, v)] }))

/-- FENCE holds its context until the classes of its mask have completed; mask zero has no effect
(R132). -/
def execFence (i : At) (f : LayR) (s : State) : Res :=
  issue (.fence i f) i s (fun s =>
    if !unusedZero f { aux := 0xFF } then .reject rejOpcode
    else
      let mask := BitVec.ofNat 8 (auxBits f 0 7)
      .go (s.modTile i.tile (fun x => x.modCtx i.ctx (fun y => { y with run := .fence mask }))))

/-- Resume the contexts of a job that a test picks by what they wait for. -/
def resumeWhere (s : State) (j : Nat) (p : CtxRun → Bool) : State :=
  let f (y : Ctx) : Ctx := if p y.run then { y with run := .running } else y
  s.forTiles (s.job j).hasTile (fun s t =>
    s.modTile t (fun x => { x with ctx0 := f x.ctx0, ctx1 := f x.ctx1, ctx2 := f x.ctx2 }))

/-- An arrival at a barrier: the last of a generation releases every waiting context (R134). -/
def arrive (s : State) (j b n : Nat) : State :=
  let g := look (s.job j).barriers b (0, 0)
  let count := g.2 + 1
  if count = n then
    resumeWhere (s.modJob j (fun x => { x with barriers := store x.barriers b (0, 0) (0, 0) })) j
      (fun r => decide (r = .sync b))
  else s.modJob j (fun x => { x with barriers := store x.barriers b (n, count) (0, 0) })

/-- SYNC arrives at a barrier; the first arrival of a generation fixes the count (R134). -/
def execSync (i : At) (f : LayR) (s : State) : Res :=
  issue (.sync i f) i s (fun s =>
    let immMode := f.aux.getLsbD 5
    let u : Uses := { b := !immMode, aux := 0x2F, imm := if immMode then 0xFFFFFFFF else 0 }
    let n := if immMode then f.imm.toNat % 2 ^ 32 else (s.sreg i f.fb).toNat
    let b := auxBits f 0 3
    let j := (s.jobOfTile i.tile).getD 0
    let first := (look (s.job j).barriers b (0, 0)).1
    if !unusedZero f u then .reject rejOpcode
    else if s.sregBusy i [if immMode then 0 else f.fb] then .hold
    else if n = 0 ∨ 3072 < n then .reject rejRange
    else if first ≠ 0 ∧ first ≠ n then .reject rejSync
    else .go (arrive (s.modTile i.tile (fun x => x.modCtx i.ctx (fun y => { y with run := .sync b }))) j b n))

/-- Every collective of a job with a layout epoch below a bound has completed or been abandoned. -/
def cefenceMet (s : State) (j : Nat) (bound : Word) : Bool :=
  (s.job j).colls.all (fun c => decide (c.phase = .done) || decide (bound.toNat ≤ c.epoch.toNat))

/-- Contexts held by CEFENCE go on once their condition holds (R249). -/
def resumeCefence (s : State) (j : Nat) : State :=
  resumeWhere s j (fun r => match r with
    | .cefence e => cefenceMet s j e
    | _ => false)

/-- CEFENCE waits for the collectives of earlier layout epochs (R249). -/
def execCefence (i : At) (f : LayR) (s : State) : Res :=
  issue (.cefence i f) i s (fun s =>
    if !unusedZero f { b := true } then .reject rejOpcode
    else if s.sregBusy i [f.fb] then .hold
    else
      let e := s.sreg i f.fb
      let j := (s.jobOfTile i.tile).getD 0
      .go (resumeCefence (s.modTile i.tile (fun x => x.modCtx i.ctx (fun y => { y with run := .cefence e }))) j))

end Sys2Proof.Machine
end

