-- ==== Sys2Proof/Machine/Collect.lean ====
section
/-! DEFINITION. The collective engine: launches, rings, chunks and the fixed order of reduction (R224 to
R238, R243, R443). -/
namespace Sys2Proof.Machine

/-! ## Geometry (R229, R230) -/

/-- Bytes of an element of the collective's format. -/
def Coll.width (c : Coll) : Nat := if c.fmt = 8 then 4 else 2

/-- Source elements. -/
def Coll.elems (c : Coll) : Nat := c.len / c.width

/-- The dimensions whose rings the collective runs over: one with one member is skipped. -/
def State.span (s : State) (j : Nat) (c : Coll) : List Nat :=
  (List.range 4).filter (fun d => c.dims.toNat.testBit d && decide (2 ≤ (s.ring j d (s.ownOffset j)).length))

/-- The own ring in a dimension. -/
def State.ownRing (s : State) (j d : Nat) : List Nat := s.ring j d (s.ownOffset j)

/-- The own position in the ring of a dimension. -/
def State.position (s : State) (j d : Nat) : Nat := (s.ownRing j d).findIdx (fun v => v = s.self)

/-- The devices a collective spans. -/
def State.spanSize (s : State) (j : Nat) (c : Coll) : Nat :=
  (s.span j c).foldl (fun n d => n * (s.ownRing j d).length) 1

/-- Elements of the whole buffer: N × E for an all-gather. -/
def State.total (s : State) (j : Nat) (c : Coll) : Nat :=
  if c.op = 1 then s.spanSize j c * c.elems else c.elems

/-- Part i of n of a range (R230). -/
def partOf (r : Nat × Nat) (n i : Nat) : Nat × Nat :=
  (r.1 + i * (r.2 - r.1) / n, r.1 + (i + 1) * (r.2 - r.1) / n)

/-- The range a device holds before the phase of a dimension: its parts of all lower dimensions. -/
def State.baseOf (s : State) (j : Nat) (c : Coll) (d : Nat) : Nat × Nat :=
  ((s.span j c).filter (fun e => decide (e < d))).foldl
    (fun r e => partOf r (s.ownRing j e).length (s.position j e)) (0, s.total j c)

/-- The range the device owns after the last reduce phase. -/
def State.ownRange (s : State) (j : Nat) (c : Coll) : Nat × Nat := s.baseOf j c 4

/-- The position of a broadcast's root in a ring. -/
def State.rootPos (s : State) (j : Nat) (c : Coll) (d : Nat) : Nat :=
  (s.ownRing j d).findIdx (fun v =>
    decide (((s.job j).offset s.dims v).getD d 0 = ((s.job j).offset s.dims c.root.toNat).getD d 0))

/-- The range of part i in a phase; a broadcast has the one part of its root. -/
def State.partRange (s : State) (j : Nat) (c : Coll) (d i : Nat) : Nat × Nat :=
  if c.op = 3 then (if i = s.rootPos j c d then (0, c.elems) else (0, 0))
  else partOf (s.baseOf j c d) (s.ownRing j d).length i

/-- The rings to run, in order: reductions X, Y, Z, W and gathers W, Z, Y, X. In a broadcast a device takes
part in a dimension once the data has reached its ring (DEDUCED, log entry 17). -/
def State.ringOrder (s : State) (j : Nat) (c : Coll) : List (Nat × Bool) :=
  let ds := s.span j c
  let red := ds.map (fun d => (d, false))
  let gat := ds.reverse.map (fun d => (d, true))
  let off := s.ownOffset j
  let root := (s.job j).offset s.dims c.root.toNat
  if c.op = 0 then red
  else if c.op = 1 then gat
  else if c.op = 2 then red ++ gat
  else gat.filter (fun p => ds.all (fun e => decide (p.1 ≤ e) || decide (off.getD e 0 = root.getD e 0)))

/-! ## Wire formats (R231, R232) -/

/-- Partial sums are W48 words: EXACT and KL5-EXACT. -/
def State.exact (s : State) (j : Nat) : Bool := decide (s.fld NUM_CTRL_determinism j ≠ 0)

/-- Bytes of an element on the wire in a phase. -/
def State.wireBytes (s : State) (j : Nat) (c : Coll) (g : Bool) : Nat :=
  if g then (if c.bucket then 4 else c.width) else if s.exact j then 8 else 4

/-- Elements in a chunk of 4,096 wire bytes. -/
def State.perChunk (s : State) (j : Nat) (c : Coll) (g : Bool) : Nat := 4096 / s.wireBytes j c g

/-- Chunks of a range. -/
def chunksOf (k : Nat) (r : Nat × Nat) : Nat := (r.2 - r.1 + k - 1) / k

/-- The elements of a chunk. -/
def chunkRange (k : Nat) (r : Nat × Nat) (n : Nat) : Nat × Nat := (min r.2 (r.1 + k * n), min r.2 (r.1 + k * (n + 1)))

/-- Words as bytes on the wire, and back. -/
def wirePack (w : Nat) (vs : List (BitVec 64)) : Bytes := vs.flatMap (fun v => toLE w v.toNat)
def wireUnpack (w : Nat) (b : Bytes) : List (BitVec 64) :=
  (pieces w (b.length + 1) b).map (fun p => BitVec.ofNat 64 (leNat p))

/-- One addition of a reduction: round_rne_fp32 or round_rne_w48. -/
def collAdd (exact : Bool) (a b : BitVec 64) : BitVec 64 :=
  BitVec.ofNat 64 (if exact then addW48 a.toNat b.toNat else add32 a.toNat b.toNat)

/-- An element widened to the format of partial sums. -/
def collWiden (exact : Bool) (fmt code : Nat) : BitVec 64 :=
  let v := decodeFmt fmt false code
  BitVec.ofNat 64 (if exact then fmtW48.rne v else fmtFP32.rne v)

/-- The divisor of a bucket: that of the latest exclusion that covers it, or the groups contributing at the
opening (R157, R242). -/
def Job.divisor (x : Job) (b : Nat) : Nat :=
  match ((x.divisors.filter (fun p => decide (p.1 ≤ b))).getLast?) with
  | some p => p.2
  | none => (setBitsOf x.led.contributors.toNat 256).length

/-- A reduced element rounded into the result (R157, R232). -/
def collRound (exact bucket : Bool) (rdiv fmt : Nat) (v : BitVec 64) : BitVec 64 :=
  let x := if exact then w48 v.toNat else fp32 v.toNat
  if bucket then BitVec.ofNat 64 (fmtFP32.rne (mulX x (fp32 rdiv)).1)
  else match fmtOf fmt with
    | some f => BitVec.ofNat 64 (f.rne x)
    | none => v

/-! ## Chunks (R230 to R236) -/

/-- Replace the elements of a list from an index on. -/
def splice {α : Type} (l : List α) (a : Nat) (vs : List α) : List α := l.take a ++ vs ++ l.drop (a + vs.length)

/-- A collective in the course of a step, and the packets that leave. -/
structure Moving where
  c : Coll
  out : List ColPacket

/-- A member's READY for the present run is held: a READY names no run, so as many have come from it as runs have begun
here with it as a ring neighbour (R235, R243, DEDUCED, log entry 120). -/
def Coll.ready (c : Coll) (v : Nat) : Bool := decide (0 < c.readies.count v) && decide (c.asked.count v ≤ c.readies.count v)

/-- Send a chunk to the next member in its direction: at once if that member's READY is held. -/
def Moving.send (m : Moving) (k : ColPacket) : Moving :=
  if m.c.ready k.dst.toNat then { m with out := m.out ++ [k] }
  else { m with c := { m.c with due := m.c.due ++ [k] } }

/-- The neighbour at a position one hop on: + for even chunks, − for odd ones. -/
def hop (n p : Nat) (minus : Bool) (h : Nat) : Nat := if minus then (p + n * h - h) % n else (p + h) % n

/-- The chunk packet for part i, chunk number n of a phase (Tables COL-3 and COL-4). -/
def State.chunkPacket (s : State) (j : Nat) (c : Coll) (d : Nat) (g : Bool) (i n : Nat) (vs : List (BitVec 64)) : ColPacket :=
  let ring := s.ownRing j d
  let p := s.position j d
  let minus := decide (n % 2 = 1)
  { jobTag := (s.job j).tag, src := BitVec.ofNat 12 s.self, dst := BitVec.ofNat 12 (ring.getD (hop ring.length p minus 1) 0),
    cid := c.cid, chunk := BitVec.ofNat 32 n, step := BitVec.ofNat 32 c.step.toNat, epoch := c.epoch,
    attempt := BitVec.ofNat 16 c.attempt, contributor := BitVec.ofNat 8 p, dim := BitVec.ofNat 2 d, gather := g, minus := minus,
    part := BitVec.ofNat 4 i, run := BitVec.ofNat 8 c.run,
    fmt := BitVec.ofNat 8 (c.fmt.toNat + (if !g && s.exact j then 16 else 0)),
    payload := wirePack (s.wireBytes j c g) vs }

/-- The words of a chunk of part i as the device holds them. -/
def State.heldWords (s : State) (j : Nat) (c : Coll) (d : Nat) (g : Bool) (i n : Nat) : Nat × List (BitVec 64) :=
  let r := chunkRange (s.perChunk j c g) (s.partRange j c d i) n
  (r.1, (c.work.drop r.1).take (r.2 - r.1))

/-- The parts whose chunks a device originates in a phase, by direction: in a reduction the part of its
previous member's side, in a gather its own (R231, R232). -/
def originates (n p : Nat) (g minus : Bool) : Nat := if g then p else hop n p (!minus) 1

/-- Begin a phase: the chunks that this device originates leave. -/
def State.beginPhase (s : State) (j d : Nat) (g : Bool) (m : Moving) : Moving :=
  let n := (s.ownRing j d).length
  let p := s.position j d
  [false, true].foldl (fun m minus =>
    let i := originates n p g minus
    let count := chunksOf (s.perChunk j m.c g) (s.partRange j m.c d i)
    ((List.range count).filter (fun k => decide (k % 2 = ofBool minus))).foldl (fun m k =>
      m.send (s.chunkPacket j m.c d g i k (s.heldWords j m.c d g i k).2)) m) m

/-- Take an accepted chunk of part i: add and forward or keep, or copy and forward (R231, R232, R235). -/
def State.takeChunk (s : State) (j : Nat) (m : Moving) (i : Nat) (k : ColPacket) : Moving :=
  let d := k.dim.toNat
  let g := k.gather
  let n := (s.ownRing j d).length
  let p := s.position j d
  let x := s.heldWords j m.c d g i k.chunk.toNat
  let got := wireUnpack (s.wireBytes j m.c g) k.payload
  if g then
    let m := { m with c := { m.c with work := splice m.c.work x.1 (got.take x.2.length) } }
    if hop n p k.minus 1 = i then m
    else m.send (s.chunkPacket j m.c d g i k.chunk.toNat got)
  else
    let acc := (got.zip x.2).map (fun q => collAdd (s.exact j) q.1 q.2)
    if i = p then { m with c := { m.c with work := splice m.c.work x.1 acc } }
    else m.send (s.chunkPacket j m.c d g i k.chunk.toNat acc)

/-- The parts whose chunks a device receives in a direction, in the order of their arrival. -/
def arrivals (n p : Nat) (g minus : Bool) : List Nat :=
  if g then (List.range (n - 1)).map (fun h => hop n p (!minus) (h + 1))
  else (List.range (n - 1)).map (fun h => hop n p (!minus) (h + 2))

/-- A phase is complete when every chunk of the own part, or of every other part, has come. -/
def State.phaseDone (s : State) (j : Nat) (c : Coll) (d : Nat) (g : Bool) : Bool :=
  let n := (s.ownRing j d).length
  let p := s.position j d
  let need := if g then (List.range n).filter (fun i => decide (i ≠ p)) else [p]
  let want := (need.map (fun i => chunksOf (s.perChunk j c g) (s.partRange j c d i))).sum
  decide ((c.seen.filter (fun k => decide (k.1 = d) && decide (k.2.1 = g) && need.contains k.2.2.2.1)).length = want)

/-- Round the range owned after the last reduce phase, with a bucket's squared norm and its non-finite mark
(R145, R146, R157, R232, R443). -/
def State.finishReduce (s : State) (j : Nat) (c : Coll) : Coll :=
  let r := s.ownRange j c
  let div := if s.spanSize j c = 1 then 1 else (s.job j).divisor c.bucketNo
  let out := ((c.work.drop r.1).take (r.2 - r.1)).map (collRound (s.exact j) c.bucket (ratio32 1 div) c.fmt.toNat)
  { c with
    work := splice c.work r.1 out,
    norm := if c.bucket then
        BitVec.ofNat 64 (out.foldl (fun a g => fmtFP64.rne (addX (fp64 a) (mulX (fp32 g.toNat) (fp32 g.toNat)).1).1) 0)
      else 0
    nonFinite := c.bucket && out.any (fun g => !(fp32 g.toNat).isFin) }

/-- Go through the phases that are complete: chunks of the next phase that had come before it are taken as
it begins. -/
def State.advance (s : State) (j : Nat) : Nat → Moving → Moving
  | 0, m => m
  | fuel + 1, m =>
    match m.c.rings with
    | [] => { m with c := { m.c with phase := .reduced } }
    | (d, g) :: rest =>
      if s.phaseDone j m.c d g then
        let c := { m.c with rings := rest }
        let c := if !g && !(rest.any (fun r => !r.2)) then s.finishReduce j c else c
        let m := { m with c := c }
        match rest with
        | [] => { m with c := { m.c with phase := .reduced } }
        | (d', g') :: _ =>
          let m := s.beginPhase j d' g' m
          let now := m.c.inbox.filter (fun q => decide (q.2.dim.toNat = d') && decide (q.2.gather = g'))
          let c := { m.c with inbox := m.c.inbox.filter (fun q => !(decide (q.2.dim.toNat = d') && decide (q.2.gather = g'))) }
          s.advance j fuel (now.foldl (fun m q => s.takeChunk j m q.1 q.2) { m with c := c })
      else m

/-! ## Collectives of a job -/

def Job.coll (x : Job) (cid : BitVec 32) : Option Coll := x.colls.find? (fun c => decide (c.cid = cid))

def State.putColl (s : State) (j : Nat) (c : Coll) : State :=
  s.modJob j (fun x => { x with colls := modFirst (fun y => decide (y.cid = c.cid)) (fun _ => c) x.colls })

/-- Keep a collective's new state and send what leaves. -/
def State.move (s : State) (j : Nat) (m : Moving) : State :=
  m.out.foldl (fun s k => sendPacket s (chunkPkt k)) (s.putColl j m.c)

/-- A collective ends with an error: its completion carries it and CXE_STATUS counts it (R224, R228). -/
def failColl (s : State) (j : Nat) (c : Coll) : State :=
  let s := s.putColl j { c with phase := .done, err := true, due := [], inbox := [], work := [] }
  resumeCefence (asyncDone (s.count CXE_STATUS_err 1 j) c.tile c.async stAddr) j

/-- The READY packet of a collective to a neighbour (Table COL-3). -/
def State.readyPacket (s : State) (j : Nat) (c : Coll) (dst : Nat) : ColPacket :=
  { jobTag := (s.job j).tag, src := BitVec.ofNat 12 s.self, dst := BitVec.ofNat 12 dst, cid := c.cid, chunk := 0,
    step := BitVec.ofNat 32 c.step.toNat, epoch := c.epoch, attempt := BitVec.ofNat 16 c.attempt, contributor := 0, dim := 0,
    gather := false, minus := false, part := 0, run := 0, fmt := 0, payload := [] }

def Coll.readyBody (c : Coll) : ReadyBody :=
  { op := c.op.setWidth 8, fmt := c.fmt.setWidth 8, dims := c.dims.setWidth 8, bucketNo := BitVec.ofNat 16 c.bucketNo,
    len := BitVec.ofNat 64 c.len }

/-- The ring neighbours of a collective. -/
def State.neighbours (s : State) (j : Nat) (c : Coll) : List Nat :=
  ((s.span j c).flatMap (fun d =>
    let r := s.ownRing j d
    [r.getD (hop r.length (s.position j d) true 1) 0, r.getD (hop r.length (s.position j d) false 1) 0])).eraseDups

/-- The working values at the start: the source widened, placed or copied (R225, R231). -/
def State.loadWork (s : State) (j : Nat) (c : Coll) (src : Bytes) : List (BitVec 64) :=
  let e := (pieces c.width (src.length + 1) src).map leNat
  if c.op = 1 then
    splice (List.replicate (s.total j c) 0) (s.ownRange j c).1 (e.map (BitVec.ofNat 64))
  else if c.op = 3 then e.map (BitVec.ofNat 64)
  else e.map (collWiden (s.exact j) c.fmt.toNat)

/-- A run of a collective begins: the source is read, READYs and the first chunks leave (R235, R243). -/
def startRun (s : State) (j : Nat) (c : Coll) : State :=
  let reads := c.op ≠ 3 ∨ c.root.toNat = s.self
  let src := if reads then s.readDram c.src c.len else (List.replicate c.len 0, [])
  let c := { c with
    phase := .inFlight, err := c.err || !src.2.isEmpty, asked := c.asked ++ s.neighbours j c, seen := [], due := [], inbox := [], work := s.loadWork j c src.1,
    rings := s.ringOrder j c, norm := 0, nonFinite := false, reported := false }
  let s := (s.neighbours j c).foldl (fun s v => sendPacket s (readyPkt (s.readyPacket j c v) c.readyBody)) s
  let c := if (s.span j c).isEmpty ∧ (c.op = 0 ∨ c.op = 2) then s.finishReduce j c else c
  let m : Moving := { c := c, out := [] }
  let m := match c.rings with
    | [] => m
    | (d, g) :: _ => s.beginPhase j d g m
  memUe (s.move j (s.advance j 9 m)) j src.2

/-! ## CLAUNCH (R224 to R228, R238) -/

/-- The operands of a launch break a rule of the chapter. -/
def badLaunch (s : State) (j : Nat) (c : Coll) (cidWord : Word) : Bool :=
  let x := s.job j
  let mask := x.mask.toNat
  let d := s.ddims j
  let own := s.ownRange j c
  let out := (if c.op = 0 then own.2 - own.1 else s.total j c) * (if c.bucket then 4 else c.width)
  let glog := if s.glogOn j then [(s.glogBase, s.glogSize)] else []
  let spans := ((List.range 4).all (fun e => c.dims.toNat.testBit e ||
    decide ((x.offset s.dims c.root.toNat).getD e 0 = (s.ownOffset j).getD e 0))) && x.inSlice s.dims c.root.toNat
  !(c.fmt = 6 || c.fmt = 7 || c.fmt = 8) || decide (c.len % c.width ≠ 0) || decide (c.len = 0) || decide (2 ^ 28 < c.len) ||
    decide (bits cidWord.toNat 48 62 ≠ 0) || (!c.bucket && decide (c.bucketNo ≠ 0)) ||
    !inQuarters mask c.src c.len || (decide (out ≠ 0) && !inQuarters mask c.dst out) || s.refuses j c.dst out ||
    glog.any (fun r => overlaps c.dst out r.1 r.2) || overlaps c.dst out c.src c.len || (x.coll c.cid).isSome ||
    (decide (c.op = 3) && !spans) ||
    (if c.bucket then
      decide (c.op ≠ 2) || decide (c.bucketNo = 65535) || decide (c.dims.toNat ≠ d) || decide (s.fld CXE_BUCKET_CFG_bucket_bytes j * 2 ^ 20 < c.len) ||
        decide (c.bucketNo ≠ x.bucketNext)
     else decide (c.dims.toNat &&& d ≠ 0))

/-- CLAUNCH launches a collective; at most 4 of a tile are in flight (R125). -/
def execClaunch (i : At) (f : LayR) (s : State) : Res :=
  issue (.claunch i f) i s (fun s =>
    let x := s.tile i.tile
    let j := (s.jobOfTile i.tile).getD 0
    let w := s.sreg i f.fd
    let n := (x.asyncs.filter (fun a => decide (a.kind = .launch))).length
    if !unusedZero f { a := true, b := true, c := true, d := true, e := true, aux := 0x7FFF } then .reject rejOpcode
    else if 10 ≤ auxBits f 2 5 then .reject rejFormat
    else if s.sregBusy i [f.fa, f.fb, f.fc, f.fd, f.fe] ∨ 4 ≤ n then .hold
    else
      let id := x.asyncId
      let c : Coll :=
        { cid := w.setWidth 32, tile := i.tile, async := id, op := BitVec.ofNat 2 (auxBits f 0 1),
          fmt := BitVec.ofNat 4 (auxBits f 2 5), dims := BitVec.ofNat 4 (auxBits f 6 9), src := (s.sreg i f.fa).toNat,
          dst := (s.sreg i f.fb).toNat, len := (s.sreg i f.fc).toNat, root := (s.sreg i f.fe).setWidth 12,
          bucket := w.getLsbD 63, bucketNo := bits w.toNat 32 47,
          epoch := if (s.regions j).isEmpty then BitVec.ofNat 32 (s.fld CXE_EPOCH_epoch j) else (s.job j).att.epoch,
          step := BitVec.ofNat 64 (s.step j), attempt := (s.job j).attemptNo, phase := .waiting, run := 0, err := false,
          reported := false, readies := [], asked := [], seen := [], due := [], inbox := [], work := [], rings := [], norm := 0,
          nonFinite := false }
      let a : Async :=
        { id := id, ctx := i.ctx, index := (x.ctx i.ctx).index, kind := .launch, event := auxBits f 10 14, done := 0, status := stOk, part := 0, buf := [] }
      let s := s.modTile i.tile (fun x => { x with asyncs := x.asyncs ++ [a] })
      if badLaunch s j c w then .go (asyncDone (s.count CXE_STATUS_err 1 j) i.tile id stAddr)
      else
        let s := s.modJob j (fun x => { x with
          colls := x.colls ++ [c], bucketNext := if c.bucket then x.bucketNext + 1 else x.bucketNext,
          led := { x.led with buckets := if c.bucket then x.led.buckets + 1 else x.led.buckets } })
        .go s)

/-! ## Start, READY and CHUNK -/

/-- Whether a READY or chunk names a collective as this device launched it (R228). -/
def Coll.tagged (c : Coll) (k : ColPacket) : Bool :=
  decide (k.step.toNat = c.step.toNat % 2 ^ 32) && decide (k.attempt.toNat = c.attempt % 2 ^ 16) && decide (k.epoch = c.epoch)

/-- A READY taken by a collective that has started: parameters that differ end it with an error; otherwise the
chunks due to the sender leave, those of a collective that is done here too (R228, R235). -/
def takeReady (s : State) (j : Nat) (c : Coll) (k : ColPacket) (b : ReadyBody) : State :=
  if b ≠ c.readyBody then (if c.phase = .done then s else failColl s j c)
  else
    let dest := k.src.toNat
    let c := { c with readies := c.readies ++ [dest] }
    if c.ready dest then
      let now := c.due.filter (fun q => decide (q.dst.toNat = dest))
      s.move j { c := { c with due := c.due.filter (fun q => !decide (q.dst.toNat = dest)) }, out := now }
    else s.putColl j c

/-- COLLECTIVE_START: a launched collective starts when a slot is free: up to 64 of a job are in flight, until their event
has counted (R227). READYs that came before are taken. A bucket begins under the run that those begun before it have
come to, one for each exclusion of the attempt (R243, DEDUCED, log entry 120). -/
def execCollectiveStart (j : Fin 4) (cid : BitVec 32) (s : State) : Res :=
  s.whenRuns <|
  if s.halted blkCxe then .next s else
  let x := s.job j
  let flying := (x.colls.filter (fun c => decide (c.phase = .inFlight) || decide (c.phase = .reduced) || decide (c.phase = .sealing))).length
  match x.coll cid with
  | none => .next s
  | some c =>
    if c.phase ≠ .waiting ∨ 64 ≤ flying then .next s
    else
      let early := x.readyEarly.filter (fun p => decide (p.1.cid = cid) && c.tagged p.1)
      let s := s.modJob j (fun x => { x with readyEarly := x.readyEarly.filter (fun p => !(decide (p.1.cid = cid) && c.tagged p.1)) })
      .next (early.foldl (fun s p => match (s.job j).coll cid with
        | some c => takeReady s j c p.1 p.2
        | none => s) (startRun s j { c with run := if c.bucket then x.led.exclusions.length else 0 }))

/-- READY: a neighbour has launched the collective (R228, R235). One that comes before the own start is
kept. -/
def execReady (k : ColPacket) (b : ReadyBody) (s : State) : Res :=
  s.whenRuns <|
  if s.halted blkCxe then .next s else
  match s.jobOfTag k.jobTag with
  | none => .next s
  | some j =>
    match (s.job j).coll k.cid with
    | some c =>
      if c.tagged k ∧ c.phase ≠ .waiting then .next (takeReady s j c k b)
      else .next (s.modJob j (fun x => { x with readyEarly := x.readyEarly ++ [(k, b)] }))
    | none => .next (s.modJob j (fun x => { x with readyEarly := x.readyEarly ++ [(k, b)] }))

/-- The part of an arriving chunk, when it is one that the receiver expects and has not had (R236): of the
parts that its number modulo 16 may name, the first still to come in the order of arrival. -/
def State.expectedPart (s : State) (j : Nat) (c : Coll) (k : ColPacket) : Option Nat :=
  let d := k.dim.toNat
  let n := (s.ownRing j d).length
  let p := s.position j d
  if !(s.ringOrder j c).contains (d, k.gather) ∨ k.minus ≠ decide (k.chunk.toNat % 2 = 1) then none
  else
    (arrivals n p k.gather k.minus).find? (fun i =>
      decide (i % 16 = k.part.toNat) &&
        decide (k.chunk.toNat < chunksOf (s.perChunk j c k.gather) (s.partRange j c d i)) &&
        !c.seen.contains (d, k.gather, k.minus, i, k.chunk.toNat))

/-- CHUNK: discarded and counted when it is stale, misplaced or a duplicate; otherwise counted once, added
and forwarded (R231, R235, R236). -/
def execChunk (k : ColPacket) (s : State) : Res :=
  s.whenRuns <|
  if s.halted blkCxe then .next s else
  match s.jobOfTag k.jobTag with
  | none => .next s
  | some j =>
    let discard : Res := .next (s.count CXE_STATUS_discarded 1 j)
    let x := s.job j
    if !x.att.started ∨ k.step.toNat ≠ s.step j % 2 ^ 32 ∨ k.attempt.toNat ≠ x.attemptNo % 2 ^ 16 then discard
    else match x.coll k.cid with
      | none => discard
      | some c =>
        let d := k.dim.toNat
        let ring := s.ownRing j d
        let prev := hop ring.length (s.position j d) (!k.minus) 1
        if c.phase = .waiting ∨ (c.phase = .done ∧ c.err) ∨ k.epoch ≠ c.epoch ∨ k.run.toNat ≠ c.run % 256 ∨ ring.length < 2 ∨ k.contributor.toNat ≠ prev then
          discard
        else match s.expectedPart j c k with
          | none => discard
          | some i =>
            let c := { c with seen := (d, k.gather, k.minus, i, k.chunk.toNat) :: c.seen }
            if c.rings.tail.contains (d, k.gather) then
              .next (s.putColl j { c with inbox := c.inbox ++ [(i, k)] })
            else
              let m := s.takeChunk j { c := c, out := [] } i k
              .next (s.move j (if c.phase = .inFlight then s.advance j 9 m else m))

end Sys2Proof.Machine
end

