-- ==== Sys2Proof/Machine/Reports.lean ====
section
/-! DEFINITION. Seals, votes and the coordinator: reports along the reporting order, decisions, the exclusion
of a group (R155, R156, R239 to R245). -/
namespace Sys2Proof.Machine

/-! ## Seals (R239, R240) -/

/-- A device of a contributing group is lost and its exclusion has not been applied: its reports are still due (R240,
R242). -/
def Job.lossOpen (x : Job) (group : Nat → Nat) : Bool := x.lostDevs.any (fun v => x.contributes (group v))

/-- The SEAL reports that a bucket is due have arrived, from every device of every contributing group. -/
def State.sealDue (s : State) (j b : Nat) : Bool :=
  !(s.job j).lossOpen (s.groupOfDev j) && (s.dueReports j).all (fun d => (s.job j).sealReports.contains (b, d.1))

/-- A SEAL report or decision of a bucket. -/
def sealReport (s : State) (j : Nat) (c : Coll) : Report :=
  { sender := devNo s.self, tag := s.attTag j c.cid, rejoin := none, applied := 0, bucket := BitVec.ofNat 32 c.bucketNo, veto := 0, flags := 0,
    origin := 0, norm := 0 }

def sealDecision (s : State) (j : Nat) (c : Coll) : Decision :=
  { tag := s.attTag j c.cid, rejoin := none, number := 0, group := 0, divisor := 0, bucket := BitVec.ofNat 32 c.bucketNo, veto := 0, flags := 0,
    origin := 0, norm := 0 }

/-- The bucket of a number, its result written and its report not yet sent. -/
def Job.unreported (x : Job) (b : Nat) : Option Coll :=
  x.colls.find? (fun c => c.bucket && decide (c.bucketNo = b) && decide (c.phase = .sealing) && !c.reported)

/-- Buckets whose own part is ready and whose due reports are in: a device reports them, the coordinator
seals them in ascending order. The first argument bounds the buckets gone through. -/
def trySeals (s : State) (j : Nat) : Nat → State
  | 0 => s
  | fuel + 1 =>
    if s.isCoordinator j then
      let b := (s.job j).sealedNext
      match (s.job j).unreported b with
      | some c =>
        if s.sealDue j b then
          let s := (s.putColl j { c with reported := true }).modJob j (fun x => { x with sealedNext := b + 1 })
          trySeals (issueDecision s j 1 (sealDecision s j c)) j fuel
        else s
      | none => s
    else
      match (s.job j).colls.find? (fun c => c.bucket && decide (c.phase = .sealing) && !c.reported && s.sealDue j c.bucketNo) with
      | some c => trySeals (reportOn (s.putColl j { c with reported := true }) j 1 (sealReport s j c)) j fuel
      | none => s

/-- COLLECTIVE_DONE: the result stands in the destination and the event counts; a bucket's SEAL report falls
due (R225, R226, R239). -/
def execCollectiveDone (j : Fin 4) (cid : BitVec 32) (s : State) : Res :=
  s.whenRuns <|
  if s.halted blkCxe then .next s else
  match (s.job j).coll cid with
  | none => .next s
  | some c =>
    if c.phase ≠ .reduced then .next s
    else
      let r := if c.op = 0 then s.ownRange j c else (0, c.work.length)
      let w := if c.bucket then 4 else c.width
      let res := s.writeAt j c.dst (wirePack w ((c.work.drop r.1).take (r.2 - r.1)))
      let s := memUe res.1 j res.2.2
      let st := if c.err then stMemUe else res.2.1
      if c.bucket then
        let s := s.putColl j { c with phase := .sealing, err := decide (st ≠ stOk), work := [] }
        .next (trySeals s j ((s.job j).colls.length + 1))
      else
        let s := s.putColl j { c with phase := .done, work := [] }
        let s := if st = stOk then s else s.count CXE_STATUS_err 1 j
        .next (resumeCefence (asyncDone s c.tile c.async st) j)

/-- Where the attempt that a report or decision names lies against the present one. -/
def State.tagOrder (s : State) (j : Nat) (t : ColTag) : Ordering :=
  let ds := (t.step - BitVec.ofNat 32 (s.step j)).toInt
  let da := (t.attempt - BitVec.ofNat 16 (s.job j).attemptNo).toInt
  if ds < 0 then .lt else if 0 < ds then .gt else if da < 0 then .lt else if 0 < da then .gt else .eq

/-- A report or decision of the present attempt is taken; one of a later attempt is held until that attempt, one of an
earlier attempt discarded (R234, R239, DEDUCED, log entry 121). -/
def inAttempt (s : State) (j : Nat) (t : ColTag) (op : Instr) (take : State → State) : State :=
  if (s.job j).running then
    match s.tagOrder j t with
    | .eq => take s
    | .gt => s.modJob j (fun x => { x with early := x.early ++ [op] })
    | .lt => s
  else s

/-- A SEAL report of the present attempt. -/
def takeSealReport (s : State) (j : Nat) (r : Report) : State :=
  let s := s.modJob j (fun x => { x with sealReports := x.sealReports ++ [(r.bucket.toNat, r.sender.toNat)] })
  trySeals s j ((s.job j).colls.length + 1)

/-- REPORT_SEAL: a combined report of a bucket arrives (R239, R240). -/
def execReportSeal (j : Fin 4) (r : Report) (s : State) : Res :=
  s.whenRuns (if s.halted blkCxe then .next s else .next (inAttempt s j r.tag (.reportSeal j r) (fun s => takeSealReport s j r)))

/-- SEAL applied: the event counts, the partial norm is added, the non-finite flag is set (R240, R145,
R146). -/
def applySeal (s : State) (j : Nat) (d : Decision) : State :=
  let s := s.modJob j (fun x => { x with sealedNext := max x.sealedNext (d.bucket.toNat + 1) })
  match (s.job j).colls.find? (fun c => c.bucket && decide (c.bucketNo = d.bucket.toNat)) with
  | none => s
  | some c =>
    if c.phase = .done then s
    else
      let s := s.putColl j { c with phase := .done, reported := true, work := [] }
      let s := asyncDone s c.tile c.async (if c.err then stMemUe else stOk)
      let s := s.modAtt j (fun a => { a with
        normPart := BitVec.ofNat 64 (add64 a.normPart.toNat c.norm.toNat), gradNf := a.gradNf || c.nonFinite })
      resumeCefence s j

/-! ## Votes (R144, R241) -/

/-- Two vote records combined, the first taken first (R144). -/
def combineVote (a b : Report) : Report :=
  let veto := if a.veto = 0 then b.veto else if b.veto = 0 then a.veto else if a.veto.toNat ≤ b.veto.toNat then a.veto else b.veto
  let from' (x : Report) : List Nat := if x.veto ≠ 0 ∧ x.veto = veto then [x.origin.toNat] else []
  { b with
    veto := veto, flags := ((a.flags ||| b.flags) &&& 3) ||| (a.flags &&& b.flags &&& 4),
    origin := match from' a ++ from' b with
      | [] => 0
      | x :: r => BitVec.ofNat 32 (r.foldl min x)
    norm := BitVec.ofNat 64 (add64 a.norm.toNat b.norm.toNat) }

/-- The records due, in the order of R241: X, Y, Z and W chains, then direct ones by job-relative index, then
the own. None while one is missing. -/
def State.voteOrder (s : State) (j : Nat) (own : Report) : Option (List Report) :=
  let due := s.dueReports j
  let x := s.job j
  let got (d : Nat × Nat) : Option Report := x.att.votes.find? (fun r => decide (r.sender.toNat = d.1))
  if due.all (fun d => (got d).isSome) then
    let chain (c : Nat) : List Report := (due.filter (fun d => d.2 = c)).filterMap got
    some (chain 0 ++ chain 1 ++ chain 2 ++ chain 3 ++ chain 4 ++ [own])
  else none

/-- The group whose rejoin the coordinator decides with the vote: the lowest of those that have left of which every device
has asked (R359, DESIGN CHOICE, log entry 116). -/
def State.rejoinGroup (s : State) (j : Nat) : Option (BitVec 8) :=
  let x := s.job j
  let whole (g : Nat) : Bool := (x.devices s.dims).all (fun v => decide (s.groupOfDev j v ≠ g) || x.rejoinAsked.contains v)
  ((List.range 255).find? (fun g => x.excludedGroups.contains g && whole g)).map (BitVec.ofNat 8)

/-- Once every due record is in, the combined record goes on; the coordinator decides. -/
def tryVote (s : State) (j : Nat) (ready : Bool) : State :=
  let x := s.job j
  if x.phase = .voting ∧ x.att.voted ∧ !x.att.sent ∧ !x.lossOpen (s.groupOfDev j) then
    match s.voteOrder j (voteRecord s j 0 ready) with
    | some (v :: r) =>
      let m := { (r.foldl combineVote v) with
        sender := devNo s.self, tag := s.attTag j 0, applied := BitVec.ofNat 32 x.att.decided, bucket := 0 }
      let s := s.modAtt j (fun a => { a with sent := true })
      if s.isCoordinator j then issueDecision s j 3 { (voteDecision m) with rejoin := s.rejoinGroup j } else reportOn s j 2 m
    | _ => s
  else s

/-- The round to be installed next: the lowest not installed, or the one a re-fetch skips to (R260, R273). -/
def Dxe.target (x : Dxe) : Nat := x.skipTo.getD x.installed

/-- Whether the device's anchor awaits installation at a commit (R144, R271). -/
def Job.anchorReady (x : Job) : Bool :=
  x.dxe.active && x.dxe.rounds.any (fun r => decide (r.number = x.dxe.target) && decide (r.stage = .ready))

/-- A VOTE report of the present attempt: a veto raised while OPEN aborts here and goes on at once; other records are kept
for the combination (R144, R241). -/
def takeVoteReport (s : State) (j : Nat) (r : Report) : State :=
  let x := s.job j
  if r.veto ≠ 0 then
    match x.phase with
    | .opened | .voting =>
      if x.att.started then beginAbort (sendVeto s j r) j r.veto.toNat 0 r.origin.toNat else s
    | _ => beginAbort s j r.veto.toNat 0 r.origin.toNat
  else
    let s := s.modAtt j (fun a => { a with votes := a.votes.filter (fun v => v.sender ≠ r.sender) ++ [r] })
    tryVote s j x.anchorReady

/-- A device of a group that has left asks for its rejoin: the coordinator keeps it, any other device passes it on (R359,
DESIGN CHOICE, log entry 116). -/
def takeRejoinAsk (s : State) (j : Nat) (r : Report) : State :=
  if s.isCoordinator j then s.modJob j (fun x => { x with rejoinAsked := addTo r.sender.toNat x.rejoinAsked }) else reportOn s j 2 r

/-- REPORT_VOTE (R241, R359). -/
def execReportVote (j : Fin 4) (r : Report) (s : State) : Res :=
  s.whenRuns (if s.halted blkCxe then .next s
    else if r.rejoin.isSome then .next (if (s.job j).running then takeRejoinAsk s j r else s)
    else .next (inAttempt s j r.tag (.reportVote j r) (fun s => takeVoteReport s j r)))

/-! ## Exclusion (R155, R156, R242 to R245) -/

/-- The groups that contribute to the open attempt. -/
def Job.groups (x : Job) : List Nat := (List.range 256).filter x.contributes

/-- The coordinator decides the exclusion of a group, once: from the lowest bucket not yet sealed, with the divisor that
this exclusion and those decided before it leave (R242). -/
def issueExclude (s : State) (j k : Nat) : State :=
  let x := s.job j
  if x.att.excluding.contains k then s
  else
    let gone := k :: x.att.excluding
    let s := s.modAtt j (fun a => { a with excluding := a.excluding ++ [k] })
    issueDecision s j 2
      { tag := s.attTag j 0, rejoin := none, number := 0, group := BitVec.ofNat 8 k,
        divisor := BitVec.ofNat 16 ((x.groups.filter (fun g => !gone.contains g)).length), bucket := BitVec.ofNat 32 x.sealedNext, veto := 0,
        flags := 0, origin := 0, norm := 0 }

/-- Every collective of the attempt is abandoned (R243, R245). -/
def abandonColls (s : State) (j : Nat) : State :=
  resumeCefence (s.modJob j (fun x => { x with
    colls := x.colls.map (fun c => { c with phase := .done, err := true, due := [], inbox := [], work := [] }) })) j

/-- The bucket runs again from its start under the next run number (R243). READYs that came for it stay. -/
def restartBucket (s : State) (j : Nat) (cid : BitVec 32) : State :=
  match (s.job j).coll cid with
  | some c => if c.phase = .waiting ∨ c.phase = .done then s else startRun s j { c with run := c.run + 1 }
  | none => s

/-- EXCLUDE applied (R243, R156): the devices of the group abort with PEER_LOSS; elsewhere unsealed buckets
run again without it. A fifth exclusion aborts with EXCLUDE, too few groups end the job. Votes already taken
are combined anew (DEDUCED from R241). -/
def applyExclude (s : State) (j : Nat) (d : Decision) : State :=
  let k := d.group.toNat
  let was := s.isCoordinator j
  let s := s.modJob j (fun x => { x with
    excludedGroups := addTo k x.excludedGroups, att := { x.att with excluding := x.att.excluding.filter (fun g => decide (g ≠ k)) } })
  if s.ownGroup j = k then
    let lost := ((s.job j).lostDevs.filter (fun v => decide (s.groupOfDev j v = k))).headD s.self
    abandonColls (beginAbort s j reasonPeerLoss 0 (s.fld FAB_COORD_site * 4096 + lost)) j
  else if (((s.job j).groups).filter (fun g => decide (g ≠ k))).length < s.fld STEP_CTRL_min_groups j then jobFault s j 0x101
  else if 4 ≤ (s.job j).led.exclusions.length then
    beginAbort s j reasonExclude 0 (s.fld FAB_COORD_site * 4096 + (s.coordinator j).getD s.self)
  else
    let s := s.modJob j (fun x => { x with
      led := { x.led with exclusions := x.led.exclusions ++ [(k, d.bucket.toNat)] },
      divisors := x.divisors ++ [(d.bucket.toNat, d.divisor.toNat)], sealReports := x.sealReports.filter (fun p => decide (p.1 < d.bucket.toNat)),
      att := { x.att with votes := [], sent := false } })
    let s := if s.isCoordinator j && !was then s.modAtt j (fun a => { a with issued := a.decided }) else s
    let again := ((s.job j).colls.filter (fun c => c.bucket && decide (d.bucket.toNat ≤ c.bucketNo))).map (·.cid)
    let s := again.foldl (fun s c => restartBucket s j c) s
    tryVote (trySeals s j ((s.job j).colls.length + 1)) j (s.job j).anchorReady

/-- The report of the highest decision applied (R244). -/
def appliedReport (s : State) (j : Nat) : Report :=
  { sender := devNo s.self, tag := s.attTag j 0, rejoin := none, applied := BitVec.ofNat 32 (s.job j).att.decided, bucket := 0, veto := 0,
    flags := 0, origin := 0, norm := 0 }

/-- After the loss of a coordinator: the new one begins to gather APPLIED reports, every other device sends it its own
(R244). -/
def reportApplied (s : State) (j : Nat) : State :=
  match s.coordinator j with
  | some c => if c = s.self then s.modAtt j (fun a => { a with gathering := true }) else sendReport s j 3 c (appliedReport s j)
  | none => s

/-- A device counts as lost to a job (R155, R242, R244, R245): the coordinator decides the exclusion of its group, a new
coordinator once it has gathered; the devices of that group abort with PEER_LOSS. A loss outside an open attempt
takes the group out before the next one. -/
def loseDevice (s : State) (j dev : Nat) : State :=
  let x := s.job j
  if !x.running ∨ x.lostDevs.contains dev ∨ !x.inSlice s.dims dev ∨ dev = s.self then s
  else
    let k := s.groupOfDev j dev
    let old := s.coordinator j
    let s := s.modJob j (fun x => { x with lostDevs := x.lostDevs ++ [dev], rejoinAsked := x.rejoinAsked.filter (fun v => decide (v ≠ dev)) })
    let open' := x.att.started && decide (x.phase = .opened ∨ x.phase = .voting) && x.contributes k
    if !open' then s.modJob j (fun x => { x with excludedGroups := addTo k x.excludedGroups })
    else
      let s := if old = some dev then reportApplied s j else if s.isCoordinator j ∧ !x.att.gathering then issueExclude s j k else s
      if s.ownGroup j = k then
        let s := s.modJob j (fun x => { x with excludedGroups := addTo k x.excludedGroups })
        abandonColls (beginAbort s j reasonPeerLoss 0 (s.fld FAB_COORD_site * 4096 + dev)) j
      else s

end Sys2Proof.Machine
end

