-- ==== Sys2Proof/Machine/DxeArea.lean ====
section
/-! DEFINITION. The round state of the delta exchange engine in the job's DRAM: the state area of R253 and R282 and the receive
store of R279, what stands in each of their lines (R280), and the area read back at a resume (R283).

No rule lays the area out. Here it holds, for P federated elements in the order of the shard table, the live anchor, its next
copy, the live momentum, its next copy and the residual, 4P bytes each; then the own outstanding blocks, rounds ascending, up
to a block header of zeros; and in its last 16 MiB the sealed bundles, each behind its length in four bytes, up to a length of
zero. The receive store holds each block behind eight bytes that name its sender (DESIGN CHOICE, log entry 18). -/
namespace Sys2Proof.Machine

/-- The number of federated elements of the device. -/
def Dxe.elems (x : Dxe) : Nat := x.shards.length * x.shardElems

/-- Where a job's round-state area starts, its size, and where the receive store starts. -/
def State.areaBase (s : State) (j : Nat) : Nat := s.fld DXE_CTRL_dxe_base j + s.dxeWord j 48 8
def State.areaBytes (s : State) (j : Nat) : Nat := s.dxeWord j 56 8
def State.storeBase (s : State) (j : Nat) : Nat := s.fld DXE_WINDOW_store_base j

/-- The five tables of the area in order: A, its next copy, M, its next copy, E. -/
def Dxe.table (x : Dxe) : Nat → Sparse (BitVec 32)
  | 0 => x.anchor
  | 1 => x.anchorNext
  | 2 => x.mom
  | 3 => x.momNext
  | _ => x.resid

/-- The start of a table, and of the own blocks, which follow the fifth. -/
def State.tableAt (s : State) (j k : Nat) : Nat := s.areaBase j + 4 * (s.job j).dxe.elems * k

/-- An FP32 word of DRAM. -/
def State.word32 (s : State) (a : Nat) : Nat := leNat (s.mem a 4)

/-! ## Written by the device -/

def Dxe.tableBytes (x : Dxe) (k : Nat) : Bytes := wordBytes ((List.range x.elems).map (fun i => look (x.table k) i 0))

def Dxe.ownBytes (x : Dxe) : Bytes := (x.own.flatMap (·.2)).flatMap codedBytes ++ List.replicate 32 0

/-- The countersignatures of a sealed bundle. -/
def Dxe.signsOf (x : Dxe) (r : Nat) : List CountersignBody := ((x.bundleSigns.find? (fun c => decide (c.1 = r))).map (·.2)).getD []

def Dxe.bundlesBytes (x : Dxe) : Bytes :=
  x.bundles.flatMap (fun b =>
    let o := bundleBytes b.2.1 (x.signsOf b.1)
    toLE 4 o.length ++ o) ++ List.replicate 4 0

def Dxe.storePart (x : Dxe) : Bytes := x.store.flatMap (fun p => toLE 4 p.1.toNat ++ toLE 4 0 ++ codedBytes p.2)

/-- The DXE writes its round state to DRAM (R253). -/
def syncArea (s : State) (j : Nat) : State :=
  let x := (s.job j).dxe
  if !x.active then s
  else
    let put (m : Sparse Byte) (p : Nat × Bytes) : Sparse Byte := wrN m p.1 p.2
    let parts := (List.range 5).map (fun k => (s.tableAt j k, x.tableBytes k)) ++
      [(s.tableAt j 5, x.ownBytes.take (s.areaBytes j - 2 ^ 24 - 20 * x.elems)),
       (s.areaBase j + s.areaBytes j - 2 ^ 24, x.bundlesBytes.take (2 ^ 24)),
       (s.storeBase j, x.storePart.take (s.fld DXE_WINDOW_store_bytes j * 2 ^ 26))]
    { s with dram := parts.foldl put s.dram }

/-! ## Read back (R283) -/

/-- Own blocks from an address on. -/
def State.blocksAt (s : State) : Nat → Nat → List Block
  | 0, _ => []
  | fuel + 1, a =>
    match parseBlocks 1 (s.mem a (32 + beAt (s.mem a 32) 2 2)) with
    | b :: _ => b :: s.blocksAt fuel (a + blockSize b)
    | [] => []

/-- Blocks by the round that closed them. -/
def byRound (bs : List Block) : List (Nat × List Block) :=
  bs.foldr (fun b l => match l with
    | c :: r => if c.1 = b.round.toNat then (c.1, b :: c.2) :: r else (b.round.toNat, [b]) :: l
    | [] => [(b.round.toNat, [b])]) []

/-- Sealed bundles from an address on. -/
def State.bundlesAt (s : State) : Nat → Nat → List (ManifestBody × List CountersignBody)
  | 0, _ => []
  | fuel + 1, a =>
    let n := leNat (s.mem a 4)
    if n = 0 ∨ 2 ^ 24 < n then [] else parseBundle (s.mem (a + 4) n) :: s.bundlesAt fuel (a + 4 + n)

/-- The tables and the own blocks as the area holds them. -/
def State.areaTables (s : State) (j : Nat) (x : Dxe) : Dxe :=
  let table (k : Nat) : Sparse (BitVec 32) :=
    (List.range x.elems).foldl (fun m i => store m i (BitVec.ofNat 32 (s.word32 (s.areaBase j + 4 * x.elems * k + 4 * i))) 0) []
  { x with anchor := table 0, anchorNext := table 1, mom := table 2, momNext := table 3, resid := table 4,
           own := byRound (s.blocksAt (s.areaBytes j / 32) (s.areaBase j + 20 * x.elems)) }

/-- The sealed bundles as the area holds them; the sealed digest is that of the countersignatures. -/
def State.areaBundles (s : State) (j : Nat) (x : Dxe) : Dxe :=
  let bs := s.bundlesAt 16 (s.areaBase j + s.areaBytes j - 2 ^ 24)
  { x with bundles := bs.map (fun b => (b.1.round.toNat, b.1, (b.2.head?.map (·.anchorDigest)).getD 0)),
           bundleSigns := bs.map (fun b => (b.1.round.toNat, b.2)) }

/-! ## What stands in a line (R280) -/

/-- Of pieces that follow one another from an address, the numbers of those that reach into a line. -/
def spansAt (l : Nat) : Nat → Nat → List Nat → List Nat
  | _, _, [] => []
  | a, i, n :: r => if a < l + 64 ∧ l < a + n then i :: spansAt l (a + n) (i + 1) r else spansAt l (a + n) (i + 1) r

/-- The elements or blocks of a kind in a line: kinds 0 to 4 the tables, 5 the own blocks, 6 the received blocks. -/
def State.areaAt (s : State) (j kind l : Nat) : List Nat :=
  let x := (s.job j).dxe
  if kind < 5 then
    ((List.range 16).filter (fun i => decide (s.tableAt j kind ≤ l + 4 * i) && decide (l + 4 * i < s.tableAt j (kind + 1)))).map (fun i =>
      (l + 4 * i - s.tableAt j kind) / 4)
  else if kind = 5 then spansAt l (s.tableAt j 5) 0 ((x.own.flatMap (·.2)).map blockSize)
  else spansAt l (s.storeBase j) 0 (x.store.map (fun p => 8 + blockSize p.2))

/-- A line that holds none of these kinds. -/
def State.areaFree (s : State) (j : Nat) (kinds : List Nat) (l : Nat) : Bool := kinds.all (fun k => (s.areaAt j k l).isEmpty)

/-- The uncorrectable lines of the round state: those of the area and of the receive store that hold part of it. -/
def State.areaUe (s : State) (j : Nat) : List Nat :=
  if s.ue.isEmpty then []
  else ((s.ueIn (s.areaBase j) (s.areaBytes j) ++ s.ueIn (s.storeBase j) (s.job j).dxe.storePart.length).eraseDups).filter (fun l =>
    !s.areaFree j (List.range 7) l)

/-- Of these lines none is damaged any longer. -/
def State.healed (s : State) (ls : List Nat) : State := { s with ue := s.ue.filter (fun l => !ls.contains l) }

end Sys2Proof.Machine
end

