-- ==== Sys2Proof/Machine/Functions.lean ====
section
/-! DEFINITION. The functions of the FN stages within their bounds (R97, Table VEC-5): the exact value in fixed point, and
the free value held to the bound. -/
namespace Sys2Proof.Machine

/-! ## Fixed point

Numbers with 512 fraction bits. Every series below is carried far enough that its error stays under 2^-400, where the
smallest bound of Table VEC-5 is 2^-149. -/

/-- One. -/
def fxOne : Int := 2 ^ 512

/-- A product. -/
def fxMul (a b : Int) : Int := a * b / fxOne

/-- m × 2^e. -/
def fxOf (m : Nat) (e : Int) : Int := if 0 ≤ e + 512 then (m : Int) * 2 ^ (e + 512).toNat else (m : Int) / 2 ^ (-(e + 512)).toNat

/-- The sum of n terms, each got from the last and its number. -/
def fxSeries (n : Nat) (first : Int) (next : Nat → Int → Int) (weigh : Nat → Int → Int) : Int :=
  ((List.range n).foldl (fun (a : Int × Int) k => (a.1 + weigh k a.2, next k a.2)) (0, first)).1

/-- exp r, by r^k / k!. -/
def fxExp (r : Int) : Int := fxSeries 150 fxOne (fun k t => fxMul t r / (k + 1 : Nat)) (fun _ t => t)

/-- artanh z, by z^(2k+1) / (2k+1). -/
def fxArtanh (z : Int) : Int := fxSeries 180 z (fun _ t => fxMul (fxMul t z) z) (fun k t => t / (2 * k + 1 : Nat))

/-- arctan (1 / n), by the alternating series. -/
def fxArctan (n : Nat) : Int :=
  fxSeries 120 (fxOne / n) (fun _ t => t / (n * n : Nat)) (fun k t => (if k % 2 = 0 then t else -t) / (2 * k + 1 : Nat))

/-- ln 2 and π. -/
def fxLn2 : Int := 2 * fxArtanh (fxOne / 3)
def fxPi : Int := 16 * fxArctan 5 - 4 * fxArctan 239

/-- sin r and cos r for |r| up to π. -/
def fxSin (r : Int) : Int := fxSeries 80 r (fun k t => -(fxMul (fxMul t r) r / ((2 * k + 2) * (2 * k + 3) : Nat))) (fun _ t => t)
def fxCos (r : Int) : Int := fxSeries 80 fxOne (fun k t => -(fxMul (fxMul t r) r / ((2 * k + 1) * (2 * k + 2) : Nat))) (fun _ t => t)

/-- An angle reduced to between -π and π. The argument's integer multiple of 2π may be as large as 2^128, so the
reduction takes π to 128 bits more (R97: the argument is reduced exactly). -/
def fxReduce (x : Int) : Int :=
  let scale : Int := 2 ^ 160
  let two : Int := fxTwoPi
  let y := x * scale
  let r := y - (y + two / 2) / two * two
  r / scale
where
  /-- 2π with 672 fraction bits, by the same series. -/
  fxTwoPi : Int :=
    let one : Int := 2 ^ 672
    let atan (n : Nat) : Int :=
      fxSeries 160 (one / n) (fun _ t => t / (n * n : Nat)) (fun k t => (if k % 2 = 0 then t else -t) / (2 * k + 1 : Nat))
    2 * (16 * atan 5 - 4 * atan 239)

/-- erf x, by its Maclaurin series up to 6; beyond it is 1 to within 2^-50. -/
def fxErf (x : Int) : Int :=
  if 6 * fxOne ≤ x then fxOne
  else if x ≤ -6 * fxOne then -fxOne
  else
    let s := fxSeries 330 x (fun k t => -(fxMul (fxMul t x) x / (k + 1 : Nat))) (fun k t => t / (2 * k + 1 : Nat))
    2 * s * fxOne / ((Nat.sqrt (fxPi * fxOne).toNat : Nat) : Int)

/-- 2^x: the whole part shifts, the fraction goes through exp. -/
def fxExp2 (x : Int) : Int :=
  let n := x / fxOne
  let p := fxExp (fxMul (x - n * fxOne) fxLn2)
  if 0 ≤ n then p * 2 ^ n.toNat else p / 2 ^ (-n).toNat

/-- log2 of m × 2^e for m not 0: the exponent, and the logarithm of the significand. -/
def fxLog2 (m : Nat) (e : Int) : Int :=
  let k := m.log2
  let y := fxOf m (-(k : Int))
  (e + k) * fxOne + 2 * fxArtanh ((y - fxOne) * fxOne / (y + fxOne)) * fxOne / fxLn2

/-- 1 / sqrt (m × 2^e) for m not 0. -/
def fxRsqrt (m : Nat) (e : Int) : Int :=
  let odd : Bool := decide (e % 2 ≠ 0)
  let m := if odd then 2 * m else m
  let h := (if odd then e - 1 else e) / 2
  let r : Int := ((Nat.sqrt (2 ^ 1200 / m) : Nat) : Int)
  let up : Int := -h - 600 + 512
  if 0 ≤ up then r * 2 ^ up.toNat else r / 2 ^ (-up).toNat

/-- tanh x, from exp 2x; beyond 64 it is 1 to within 2^-180. -/
def fxTanh (x : Int) : Int :=
  if 64 * fxOne ≤ x then fxOne
  else if x ≤ -64 * fxOne then -fxOne
  else
    let p := fxExp2 (2 * x * fxOne / fxLn2)
    (p - fxOne) * fxOne / (p + fxOne)

/-! ## The bounds of Table VEC-5 -/

/-- The exact value of a function at ±m × 2^e, and its bound in ulp: 0 exp2, 1 log2, 3 reciprocal square root, 4 tanh,
5 erf, 6 sine, 7 cosine. -/
def fnExact (f : Nat) (neg : Bool) (m : Nat) (e : Int) : Int × Nat :=
  let x := if neg then -fxOf m e else fxOf m e
  if f = 0 then (if x ≤ -400 * fxOne then 0 else fxExp2 x, 1)
  else if f = 1 then (fxLog2 m e, 2)
  else if f = 3 then (fxRsqrt m e, 1)
  else if f = 4 then (fxTanh x, 2)
  else if f = 5 then (fxErf x, 2)
  else if f = 6 then (fxSin (fxReduce x), 2)
  else (fxCos (fxReduce x), 2)

/-- The unit in the last place of FP32 at a value. -/
def fxUlp (v : Int) : Int := 2 ^ (512 + max ((v.natAbs.log2 : Int) - 512 - 23) (-149)).toNat

/-- A finite FP32 code lies within a number of ulp of a value. -/
def withinUlp (v : Int) (k : Nat) (code : Nat) : Bool :=
  match fmtFP32.decode code with
  | .fin neg m e => decide (((if neg then -fxOf m e else fxOf m e) - v).natAbs ≤ k * (fxUlp v).toNat)
  | _ => false

/-- The FP32 code of a function at a finite operand: the device's own value, free within the bound of Table VEC-5
(R87, R97, DESIGN CHOICE, log entry 9). -/
def fnBounded (f : Nat) (neg : Bool) (m : Nat) (e : Int) (x : Nat) : Nat :=
  let v := fnExact f neg m e
  let c := (Config.fnValue f (BitVec.ofNat 32 x)).toNat
  if withinUlp v.1 v.2 c then c else fmtFP32.rne (.fin (decide (v.1 < 0)) v.1.natAbs (-512))

end Sys2Proof.Machine
end

