-- ==== Sys2Proof/Machine/Matrix.lean ====
section
/-! DEFINITION. Matrix and diagonal instructions (chapter 2, R60 to R69, R80, R81, R121): the checks at
issue, the computation, the stream start and the completion. -/
namespace Sys2Proof.Machine

/-- The determinism mode of a tile's job is KL5-EXACT. -/
def State.kl5 (s : State) (t : Nat) : Bool :=
  match s.jobOfTile t with
  | some j => s.fld NUM_CTRL_determinism j = 2
  | none => false

/-- The arrays of the chain, in tile order (R34). -/
def LayMM.chain (l : LayMM) : List Nat := setBitsOf l.arrays.toNat 8

/-- Rows streamed. -/
def mmRows (l : LayMM) : Nat := l.rows.toNat + 1

/-- Twice the cycles per product (Table ARR-2), with the factor of KL5-EXACT (R28). -/
def cpp2 (sf xf : Nat) (kl5 : Bool) : Nat :=
  let v := if sf = 0 then (if xf = 8 then 2 else 1) else if sf ≤ 4 then 2 else if sf = 5 then 4
    else if sf = 6 then 4 else if sf = 7 then 6 else if sf = 8 then 12 else 84
  if kl5 then 16 * v else v

/-- The pair is permitted (Table ARR-2): INT8 and FP64 pair with themselves only. -/
def pairOk (sf xf : Nat) : Bool :=
  (decide (sf = 5) && decide (xf = 5)) || (decide (sf = 9) && decide (xf = 9)) ||
    (decide (sf ≠ 5) && decide (xf ≠ 5) && decide (sf ≤ 8) && decide (xf ≤ 8))

/-- A format that KL5-EXACT permits (R80). -/
def kl5Ok (c : Nat) : Bool := decide (3 ≤ c) && decide (c ≤ 8)

/-- The ranges of the operand in the stationary role, first register and bytes: its elements and its scales (R30,
R43, R121). In diagonal mode it streams. -/
def mmStatSpans (k : MmKind) (l : LayMM) : List (Nat × Nat) :=
  let a := (LayMM.chain l).length
  let rows := mmRows l
  let ws := fmtBits l.sfmt.toNat
  let diag := decide (k = .diag)
  [(l.sbase.toNat, if diag then rows * 2 * a * ws else 32 * a * ws)] ++
  (if l.smx = 1 then [(l.sscale.toNat, if diag then 4 * rows else 8 * a)] else [])

/-- The ranges of the streamed rows: their elements and their scales (R39, R121). -/
def mmStreamSpans (l : LayMM) : List (Nat × Nat) :=
  let a := (LayMM.chain l).length
  let rows := mmRows l
  let wx := fmtBits l.xfmt.toNat
  (if l.xsrc = 0 then [(l.xbase.toNat, rows * 2 * a * wx)] else []) ++
  (if l.xmx = 1 then [(l.xscale.toNat, 4 * rows)] else [])

/-- The operand ranges of an instruction. -/
def mmSpans (k : MmKind) (l : LayMM) : List (Nat × Nat) := mmStatSpans k l ++ mmStreamSpans l

/-- Unused fields of an MM form are zero (R118). -/
def mmUnusedZero (k : MmKind) (l : LayMM) : Bool :=
  decide (l.rsv = 0) && (l.smx = 1 || l.sscale = 0) && (l.xmx = 1 || l.xscale = 0) &&
    (match k with
     | .diag => decide (l.xaddr = 0)
     | _ => if l.xsrc = 0 then decide (l.xaddr = 0) else decide (l.xbase = 0))

/-- The rejection of a matrix instruction, if it breaks a rule (Table PRG-7). -/
def mmReject (k : MmKind) (l : LayMM) (kl5 : Bool) (xaddr : Nat) : Option Nat :=
  let sf := l.sfmt.toNat
  let xf := l.xfmt.toNat
  let a := (LayMM.chain l).length
  let spans := mmSpans k l
  let dest := (l.dbase.toNat, l.dcount.toNat + 1)
  if !mmUnusedZero k l then some rejOpcode
  else if 10 ≤ sf ∨ 10 ≤ xf then some rejFormat
  else if kl5 ∧ (!kl5Ok sf ∨ !kl5Ok xf ∨ l.smx = 1 ∨ l.xmx = 1) then some rejKl5
  else if (l.smx = 1 ∧ 5 < sf) ∨ (l.xmx = 1 ∧ 5 < xf) then some rejFormat
  else if !pairOk sf xf then some rejPair
  else if a = 0 then some rejRange
  else if k = .diag ∧ l.xsrc = 1 then some rejRange
  else if a % 2 = 1 ∧ (l.xmx = 1 ∨ (k = .diag ∧ l.smx = 1)) then some rejRange
  else if spans.any (fun p => !vrfOk p.1 p.2) then some rejRange
  else if 64 < dest.1 + dest.2 then some rejRange
  else if l.xsrc = 1 ∧ !spadOk xaddr (mmRows l * 2 * a * fmtBits xf) then some rejRange
  else if l.xsrc = 1 ∧ xaddr % 128 ≠ 0 then some rejAlign
  else if spans.any (fun p => regsOverlap dest (p.1, regsOf p.2)) then some rejOverlap
  else none

/-- Stream time and completion delay in CLK_CORE cycles (R39, R40, R43). -/
def mmCycles (k : MmKind) (l : LayMM) (kl5 : Bool) : Nat :=
  let a := (LayMM.chain l).length
  let rows := mmRows l
  let wx := fmtBits l.xfmt.toNat
  let ws := fmtBits l.sfmt.toNat
  let up (n d : Nat) : Nat := (n + d - 1) / d
  let c := up (rows * cpp2 l.sfmt.toNat l.xfmt.toNat kl5) 2
  let ts := match k with
    | .diag => max (max (max c (up (rows * a * (wx + ws)) 128)) (up (rows * a) 2)) 17
    | _ => max (max c (up (rows * a * wx) (if l.xsrc = 0 then 128 else 48))) 17
  ts + (if l.sfmt.toNat = 9 then 48 else 32)

/-- The block of the p-th array of the chain, as it is loaded into the cells (R30, R31, R121). -/
def blockOf (vrf : Sparse Byte) (l : LayMM) (p : Nat) : Stat :=
  let n := 32 * fmtBits l.sfmt.toNat
  { fmt := l.sfmt, mx := l.smx = 1, block := leNat (rdN vrf (256 * l.sbase.toNat + p * n) n),
    scales := if l.smx = 1 then leNat (rdN vrf (256 * l.sscale.toNat + 8 * p) 8) else 0 }

/-- The stationary load: into the shadow registers of an array that has an instruction in flight, else straight into
its live registers (R31). -/
def loadBlocks (x : Tile) (l : LayMM) : Tile :=
  ((LayMM.chain l).zipIdx).foldl (fun y p =>
    if x.mms.any (fun m => (LayMM.chain m.lay).contains p.1) then
      { y with shadow := store y.shadow p.1 (some (blockOf x.vrf l p.2)) none }
    else { y with live := store y.live p.1 (blockOf x.vrf l p.2) Stat.reset }) x

/-- Issue of a matrix instruction: it is held while its address register is to be written by a load; at most one may
be issued and not yet streaming, which frees the shadow registers (R31, R121, R129). -/
def issueMm (k : MmKind) (i : At) (l : LayMM) (s : State) : Issue :=
  let x := s.tile i.tile
  let xaddr := (s.sreg i l.xaddr).toNat
  if s.sregBusy i [l.xaddr] then .hold
  else match mmReject k l (s.kl5 i.tile) xaddr with
  | some code => .reject code
  | none =>
    let regs (ps : List (Nat × Nat)) : List (Nat × Nat) := ps.map (fun p => (p.1, regsOf p.2))
    let srcs := regs (mmSpans k l)
    if x.mms.any (fun m => !m.streaming) || !s.readable i.tile srcs ||
        !s.writable i.tile [(l.dbase.toNat, l.dcount.toNat + 1)] then .hold
    else
      let op := x.takeOp
      let m : MmOp :=
        { op := op.1, ctx := i.ctx, index := (x.ctx i.ctx).index, kind := k, lay := l, xaddr := xaddr,
          srcs := if k = .diag then [] else regs (mmStatSpans k l),
          streams := if k = .diag then srcs else regs (mmStreamSpans l), streaming := false, fed := [], ended := false,
          cycles := mmCycles k l (s.kl5 i.tile), result := ⟨[], [], [], 0, false, false, []⟩ }
      .go (s.setTile i.tile { (if k = .diag then op.2 else loadBlocks op.2 l) with mms := x.mms ++ [m] })

/-- MMW, warp read (R34). -/
def execMmw (i : At) (f : LayMM) (s : State) : Res := issue (.mmw i f) i s (issueMm .warp i f)
/-- MMF, weft read (R33). -/
def execMmf (i : At) (f : LayMM) (s : State) : Res := issue (.mmf i f) i s (issueMm .weft i f)
/-- MMD, diagonal mode (R43). -/
def execMmd (i : At) (f : LayMM) (s : State) : Res := issue (.mmd i f) i s (issueMm .diag i f)

/-! ## The computation -/

/-- What a computation in progress holds: accumulators written, by slot × 16 + element, and what was
met. -/
structure MmAcc where
  accs : Sparse (Option Nat)
  excs : List Exc
  inv : BitVec 8

/-- One column result enters an accumulator: the sum rounded, invalid sums and overflow noted (R61,
R65, R68, R81). -/
def exitAdd (fp64 kl5 : Bool) (acc : Nat) (v : XVal) : Nat × Bool × Bool :=
  let f := if fp64 then fmtFP64 else fmtW48
  let sum := addX (f.decode acc) v
  let r := f.round (if kl5 then .rha else .rne) sum.1
  (r.1, sum.2, r.2)

/-- The value of an accumulator before a term: what the instruction has written, or the previous
contents in accumulate mode, or +0 (R42). -/
def startOf (vrf : Sparse Byte) (l : LayMM) (a : MmAcc) (slot n : Nat) : Nat :=
  match look a.accs (16 * slot + n) none with
  | some v => v
  | none =>
    if l.acc = 1 then
      let raw := leNat (rdN vrf (256 * l.dbase.toNat + 128 * slot + 8 * n) 8)
      if l.sfmt.toNat = 9 then raw else raw % 2 ^ 48
    else 0

/-- One term added to an accumulator with everything it met recorded. -/
def accTerm (tile : Nat) (m : MmOp) (frame : Nat) (kl5 : Bool) (row arr col : Nat) (c : ColSum) (n : Nat)
    (st : Nat × MmAcc) : Nat × MmAcc :=
  let r := exitAdd (m.lay.sfmt.toNat = 9) kl5 st.1 c.val
  let e (k : Nat) : Exc := ⟨k, frame, tile, m.index, row, arr, col⟩
  let es := List.replicate c.prods (e excInvProd) ++ List.replicate (c.sums + ofBool r.2.1) (e excInvSum) ++
    List.replicate (ofBool r.2.2) (e excAccOvf)
  (r.1, { st.2 with
    excs := st.2.excs ++ es
    inv := if 0 < c.prods then st.2.inv ||| BitVec.ofNat 8 (1 <<< n) else st.2.inv })

/-- The stationary element (i, j) that an array's cells hold, with its scale applied (R29, R30). -/
def statElem (b : Stat) (i j : Nat) : XVal :=
  let w := fmtBits b.fmt.toNat
  let q := 16 * i + j
  let v := decodeFmt b.fmt.toNat b.mx (bits b.block (w * q) (w * q + w - 1))
  if b.mx then applyScale (bits b.scales (8 * (q / 32)) (8 * (q / 32) + 7)) v else v

/-- Element k of streamed row m, with its scale applied: from the register file, or from the bytes read of the
scratchpad, given as one number. -/
def streamElem (x : Tile) (m : MmOp) (fed row k : Nat) : XVal :=
  let l := m.lay
  let w := fmtBits l.xfmt.toNat
  let q := row * 16 * (LayMM.chain l).length + k
  let raw := if l.xsrc = 0 then vrfElem x.vrf (256 * l.xbase.toNat) w q else bits fed (w * q) (w * q + w - 1)
  let v := decodeFmt l.xfmt.toNat (l.xmx = 1) raw
  if l.xmx = 1 then applyScale (rd x.vrf (256 * l.xscale.toNat + 4 * row + k / 32)).toNat v else v

/-- Element e of row m of the diagonal operand B (R43). -/
def diagElem (vrf : Sparse Byte) (l : LayMM) (row e : Nat) : XVal :=
  let w := fmtBits l.sfmt.toNat
  let v := decodeFmt l.sfmt.toNat (l.smx = 1)
    (vrfElem vrf (256 * l.sbase.toNat) w (row * 16 * (LayMM.chain l).length + e))
  if l.smx = 1 then applyScale (rd vrf (256 * l.sscale.toNat + 4 * row + e / 32)).toNat v else v

/-- The order of the reduction index (R62, R81). -/
def reduceOrder (kl5 : Bool) : List Nat := if kl5 then (List.range 16).reverse else List.range 16

/-- One output element of a matrix row: the chain of arrays in tile order (R34, R36, R37). -/
def mmElem (tile frame : Nat) (kl5 : Bool) (x : Tile) (m : MmOp) (fed row n : Nat) (a : MmAcc) : MmAcc :=
  let l := m.lay
  let warp := decide (m.kind = .warp)
  let outOn := if warp then l.colmask.toNat.testBit n else l.rowmask.toNat.testBit n
  if !outOn then a
  else
    let slot := row % (2 * (l.dcount.toNat + 1))
    let redMask := if warp then l.rowmask.toNat else l.colmask.toNat
    let order := (reduceOrder kl5).filter (fun k => redMask.testBit k)
    let fp64 := decide (l.sfmt.toNat = 9)
    let r := ((LayMM.chain l).zipIdx).foldl (fun st pa =>
      let terms := order.map (fun k =>
        (streamElem x m fed row (16 * pa.2 + k),
         if warp then statElem (look x.live pa.1 Stat.reset) k n else statElem (look x.live pa.1 Stat.reset) n k))
      let c := columnSum (if fp64 then 53 else 30) (if kl5 then 2 else 3) terms
      accTerm tile m frame kl5 row pa.1 n c pa.1 st) (startOf x.vrf l a slot n, a)
    { r.2 with accs := store r.2.accs (16 * slot + n) (some r.1) none }

/-- One element of a diagonal row (R43). A row's slots are numbered modulo 2D one by one, so a row that passes slot
2D - 1 goes on at slot 0, and a slot it meets again counts as reached (DESIGN CHOICE, log entry 106). -/
def diagOne (tile frame : Nat) (kl5 : Bool) (x : Tile) (m : MmOp) (row : Nat) (p : Nat × Nat) (k : Nat)
    (a : MmAcc) : MmAcc :=
  let l := m.lay
  if !(l.rowmask.toNat.testBit k && l.colmask.toNat.testBit k) then a
  else
    let n := (LayMM.chain l).length
    let slot := (row * n + p.2) % (2 * (l.dcount.toNat + 1))
    let prod := mulX (streamElem x m 0 row (16 * p.2 + k)) (diagElem x.vrf l row (16 * p.2 + k))
    let r := accTerm tile m frame kl5 row p.1 k ⟨prod.1, ofBool prod.2, 0⟩ p.1 (startOf x.vrf l a slot k, a)
    { r.2 with accs := store r.2.accs (16 * slot + k) (some r.1) none }

/-- The result of a matrix or diagonal instruction, by its rows, the cells it has swapped in, and the accumulators. -/
def mmResult (tile frame : Nat) (kl5 : Bool) (x : Tile) (m : MmOp) : Result :=
  let a0 : MmAcc := ⟨[], [], 0⟩
  let fed := leNat m.fed
  let a := (List.range (mmRows m.lay)).foldl (fun a row =>
    match m.kind with
    | .diag => ((LayMM.chain m.lay).zipIdx).foldl (fun a p =>
        (List.range 16).foldl (fun a k => diagOne tile frame kl5 x m row p k a) a) a
    | _ => (List.range 16).foldl (fun a n => mmElem tile frame kl5 x m fed row n a) a) a0
  { bytes := a.accs.flatMap (fun kv => match kv.2 with
      | some v => ((toLE 8 v).zipIdx).map (fun b =>
          (256 * m.lay.dbase.toNat + 128 * (kv.1 / 16) + 8 * (kv.1 % 16) + b.2, b.1))
      | none => []),
    excs := a.excs, tensors := [], invProd := a.inv, lossNf := false, gradNf := false, preds := [] }

/-! ## Stream start and completion -/

/-- A change that breaks a sequence: of read axis, between FP64 and other formats, between matrix and
diagonal mode (R40). -/
def breaks (a b : MmOp) : Bool :=
  decide (a.kind ≠ b.kind) || ((a.lay.sfmt.toNat = 9) != (b.lay.sfmt.toNat = 9))

/-- The scratchpad accesses of a stream that have not been granted: address and length, one for each line (R48). -/
def MmOp.unfed (m : MmOp) : List (Nat × Nat) :=
  if m.lay.xsrc = 0 ∨ m.kind = .diag then []
  else
    let n := mmRows m.lay * 2 * (LayMM.chain m.lay).length * fmtBits m.lay.xfmt.toNat
    (linePieces m.xaddr n).drop ((m.fed.length + 127) / 128)

/-- The next accesses of a stream from the scratchpad are granted (R48, R52). -/
def MmOp.feed (m : MmOp) (spad : Sparse Byte) (n : Nat) : MmOp :=
  (m.unfed.take n).foldl (fun y p => { y with fed := y.fed ++ rdN spad p.1 p.2 }) m

/-- The last row of a stream is read: what the instruction computes is fixed (R40). -/
def endStream (t : Nat) (kl5 : Bool) (x : Tile) (m : MmOp) : MmOp :=
  if m.streaming && !m.ended then
    let m := m.feed x.spad m.unfed.length
    { m with ended := true, result := mmResult t (x.frame - 1) kl5 x m }
  else m

/-- The cells of a chain swap in the blocks that their shadow registers hold (R32). -/
def swapIn (x : Tile) (l : LayMM) : Tile :=
  (LayMM.chain l).foldl (fun y p => match look y.shadow p none with
    | some b => { y with live := store y.live p b Stat.reset, shadow := store y.shadow p none none }
    | none => y) x

/-- MM_STREAM_START: the stream before has ended, the cells swap, and the instruction issued and not yet streaming
enters the arrays, unless a change that breaks a sequence makes it wait for the previous instruction's completion
(R32, R40, R121). -/
def execMmStreamStart (t : Fin 1024) (s : State) : Res :=
  let x := s.tile t
  match x.mms.find? (fun m => !m.streaming) with
  | none => .next s
  | some m =>
    if x.mms.any (fun y => y.streaming && breaks y m) then .next s
    else
      let before := x.mms.map (endStream t (s.kl5 t) x)
      let x := if m.kind = .diag then x else swapIn x m.lay
      s.whenRuns (.next (s.setTile t { x with mms := modFirst (fun y => decide (y.op = m.op)) (fun y => { y with streaming := true }) before }))

/-- The bits of TILE_EXC that a result raises: invalid products by array, then inv_sum, acc_ovf, cvt_sat,
cvt_nan, cvt_flush, vec_inv, vec_dz and vec_ovf (Tables NUM-10 and REG-5). -/
def Result.excBits (r : Result) : Nat :=
  let kind (k b : Nat) : Nat := if r.excs.any (fun e => decide (e.kind = k)) then 2 ^ b else 0
  let conv (f : Tensor → Nat) (b : Nat) : Nat := if r.tensors.any (fun x => decide (f x ≠ 0)) then 2 ^ b else 0
  r.invProd.toNat ||| kind excInvSum 8 ||| kind excAccOvf 9 ||| conv Tensor.sat 10 ||| conv Tensor.nan 11 |||
    conv Tensor.flush 12 ||| kind excVecInv 13 ||| kind excVecDz 14 ||| kind excVecOvf 15

/-- Take what an operation computed into the tile: registers, exceptions, tensors, flags (R41, R69,
R96, R99). The non-finite flags of the attempt follow R145. -/
def State.takeResult (s : State) (t : Nat) (r : Result) : State :=
  let s := s.modTile t (fun x => { x with
    vrf := wrAll x.vrf r.bytes, excs := x.excs ++ r.excs,
    tensors := r.tensors.foldl (fun l y => addTensor y l) x.tensors,
    excBits := x.excBits ||| BitVec.ofNat 16 r.excBits })
  let s := r.preds.foldl (fun s p =>
    s.modTile t (fun x => x.setPred p.1 ((x.pred p.1 &&& ~~~p.2.1) ||| (p.2.2 &&& p.2.1)))) s
  match s.jobOfTile t with
  | some j => s.modAtt j (fun a => { a with lossNf := a.lossNf || r.lossNf, gradNf := a.gradNf || r.gradNf })
  | none => s

/-- MM_COMPLETE: by now that many further accesses of a stream from the scratchpad have been granted; once all have
been, the oldest streaming instruction completes, and its destination becomes readable (R40, R41, R48, R52, DESIGN
CHOICE, DESIGN CHOICE, log entry 10). -/
def execMmComplete (t : Fin 1024) (s : State) (n : Nat := 1) : Res :=
  let x := s.tile t
  match x.mms.find? (·.streaming) with
  | none => .next s
  | some m =>
    if n < m.unfed.length then
      s.whenRuns (.next (s.setTile t { x with mms := modFirst (fun y => decide (y.op = m.op)) (fun y => y.feed x.spad n) x.mms }))
    else
      let r := (endStream t (s.kl5 t) x m).result
      let s1 := s.modTile t (fun x => { x with mms := x.mms.filter (fun y => y.op ≠ m.op) })
      s.whenRuns (.next ((s1.takeResult t r).settle t))

end Sys2Proof.Machine
end

