-- ==== Sys2Proof/Machine/Vector.lean ====
section
/-! DEFINITION. Vector chains (chapter 4, R82 to R101): the descriptor, its rules, the six stage types,
issue, stream start and completion, and the descriptor load. -/
namespace Sys2Proof.Machine

/-- A stage of a chain descriptor (Table VEC-4). -/
structure VStage where
  type : Nat
  in1 : Nat
  in2 : Nat
  in3 : Nat
  neg : Nat
  func : Nat
  aux : Nat
  rsv : Nat
  deriving DecidableEq, Repr

/-- An operand's place in the header: format, accumulator flag and broadcast mode. -/
structure VOp where
  fmt : Nat
  acc : Bool
  bc : Nat
  deriving DecidableEq, Repr

/-- A chain descriptor (Table VEC-3). Lane formats are format codes 6 to 9. -/
structure Chain where
  nstages : Nat
  lane0 : Nat
  a : VOp
  b : VOp
  c : VOp
  fmtD : Nat
  lrLog : Nat
  rsv : Nat
  stages : List VStage
  deriving DecidableEq, Repr

def stageOf (d k : Nat) : VStage :=
  let w := bits d (36 * k) (36 * k + 35)
  { type := bits w 33 35, in1 := bits w 30 32, in2 := bits w 27 29, in3 := bits w 24 26,
    neg := bits w 21 23, func := bits w 13 20, aux := bits w 4 12, rsv := bits w 0 3 }

/-- The descriptor's fields (R88, R89). -/
def chainOf (d : Nat) : Chain :=
  { nstages := bits d 253 255, lane0 := 6 + bits d 251 252,
    a := ⟨bits d 247 250, d.testBit 246, bits d 244 245⟩,
    b := ⟨bits d 240 243, d.testBit 239, bits d 237 238⟩,
    c := ⟨bits d 233 236, d.testBit 232, bits d 230 231⟩,
    fmtD := bits d 226 229, lrLog := bits d 222 225, rsv := bits d 216 221,
    stages := (List.range 6).map (stageOf d) }

/-- The stages in use. -/
def Chain.used (h : Chain) : List VStage := h.stages.take h.nstages

/-- Row length. -/
def Chain.lr (h : Chain) : Nat := 2 ^ h.lrLog

/-- The lane format after a stage (R83). -/
def laneAfter (lane : Nat) (g : VStage) : Nat :=
  if g.type = 4 ∧ 6 ≤ g.func % 16 ∧ g.func % 16 ≤ 9 then g.func % 16 else lane

/-- The lane format of each stage. -/
def lanesFrom (lane : Nat) : List VStage → List Nat
  | [] => []
  | g :: r => lane :: lanesFrom (laneAfter lane g) r

def Chain.lanes (h : Chain) : List Nat := lanesFrom h.lane0 h.used

/-- The beat size E (R83). -/
def Chain.beat (h : Chain) : Nat :=
  if h.lanes.contains 9 then 32 else if h.lanes.contains 8 then 64 else 128

/-- Input codes that a stage reads: the sequence in1, in2, in3 as its type uses them. -/
def VStage.inputs (g : VStage) : List Nat :=
  if g.type = 1 ∨ g.type = 3 then [g.in1, g.in2, g.in3]
  else if g.type = 6 ∧ g.func = 3 then [g.in1, g.in2]
  else [g.in1]

/-- A per-block conversion. -/
def VStage.perBlock (g : VStage) : Bool := decide (g.type = 4) && decide (bits g.func 6 7 = 2)

/-- The chain reads the input of a code: 1 A, 2 B, 3 C, 4 K0, 5 K1. Previous stage at stage 0 is A. -/
def Chain.reads (h : Chain) (code : Nat) : Bool :=
  h.used.zipIdx.any (fun p => p.1.inputs.any (fun c => decide (c = code ∨ (c = 0 ∧ p.2 = 0 ∧ code = 1))))

/-- The operands read as values, with their numbers. -/
def Chain.operands (h : Chain) : List (Nat × VOp) :=
  [(1, h.a), (2, h.b), (3, h.c)].filter (fun p => h.reads p.1)

/-- Whether a lane format accepts a storage format (Table VEC-1). -/
def vopOk (lane : Nat) (o : VOp) : Bool :=
  if o.acc then decide (lane = 9)
  else if lane = 9 then decide (o.fmt ≤ 9)
  else if lane = 8 then decide (o.fmt ≤ 8)
  else decide (o.fmt ≤ 5) || decide (o.fmt = lane)

/-- A stage's function and parameter are listed in Table VEC-6, and the rules of R91 for the stage hold:
the rejection if not. An aux that the table marks unused is zero (DEDUCED, log entry 42). -/
def stageReject (h : Chain) (n : Nat) (last : Bool) (lane : Nat) (g : VStage) : Option Nat :=
  let f := g.func
  let x := g.aux
  if g.type = 1 then (if f = 0 ∧ x = 0 then none else some rejDesc)
  else if g.type = 2 then (if f ≤ 7 ∧ x = 0 ∧ lane ≠ 9 then none else some rejDesc)
  else if g.type = 3 then
    (if f ≤ 7 ∧ bits x 3 7 = 0 ∧ (if x.testBit 8 then x % 8 ≠ 0 else x % 8 = 0) then none else some rejDesc)
  else if g.type = 4 then
    let dstFmt := f % 16
    let sc := bits f 6 7
    if bits f 4 5 = 3 ∨ sc = 3 ∨ x ≠ 0 then some rejDesc
    else if 10 ≤ dstFmt ∨ !scalingOk dstFmt (if sc = 1 then .tensor else if sc = 2 then .block else .none) then some rejFormat
    else if dstFmt ≤ 5 ∧ !last then some rejDesc
    else if sc = 2 ∧ (h.c.fmt ≠ 5 ∨ h.c.bc ≠ 0 ∨ h.c.acc) then some rejDesc
    else none
  else if g.type = 5 then
    let op := f % 8
    if 4 < op ∨ 16 ≤ f ∨ !last ∨ n % h.lr ≠ 0 then some rejDesc
    else if op = 4 then
      (if 32 ≤ x then some rejDesc
       else if !scalingOk (x % 16) (if x.testBit 4 then .tensor else .block) then some rejFormat
       else if !x.testBit 4 ∧ n % 32 ≠ 0 then some rejDesc else none)
    else if x = 0 then none else some rejDesc
  else if f ≤ 3 ∧ (if f = 1 ∨ f = 2 then x < h.beat else x = 0) then none
  else some rejDesc

/-- The format that the result stream must have (R91). -/
def Chain.result (h : Chain) : Nat :=
  match h.used.getLast?, h.lanes.getLast? with
  | some g, some lane =>
    if g.type = 5 ∧ g.func % 8 = 4 then 5 else if g.type = 4 then g.func % 16 else lane
  | _, _ => 16

/-- The rejection of a chain descriptor, if it breaks a rule (R84, R89 to R91). -/
def chainReject (h : Chain) (n : Nat) : Option Nat :=
  if h.nstages = 0 ∨ h.nstages = 7 ∨ h.rsv ≠ 0 ∨ h.lrLog < 4 ∨ h.stages.any (fun g => decide (g.rsv ≠ 0)) then some rejDesc
  else if h.stages.zipIdx.any (fun p =>
      if h.nstages ≤ p.2 then decide (p.1.type ≠ 0)
      else decide (p.1.type = 0) || decide (p.1.type = 7)) then some rejDesc
  else if h.operands.any (fun p => !p.2.acc && decide (10 ≤ p.2.fmt)) ∨
      (h.used.any VStage.perBlock ∧ h.c.acc = false ∧ 10 ≤ h.c.fmt) ∨ 10 ≤ h.fmtD then some rejFormat
  else
    match (h.used.zip h.lanes).zipIdx.findSome? (fun p =>
        stageReject h n (decide (p.2 + 1 = h.nstages)) p.1.2 p.1.1) with
    | some code => some code
    | none =>
      if h.fmtD ≠ h.result then some rejDesc
      else if h.operands.any (fun p => !vopOk h.lane0 p.2) then some rejDesc
      else none

/-! ## Streams -/

/-- Elements that an operand's broadcast mode reads of N (R85). -/
def VOp.count (o : VOp) (n lr : Nat) : Nat :=
  if o.bc = 0 then n else if o.bc = 1 then min n lr else if o.bc = 2 then (n + lr - 1) / lr else 1

/-- Bits of an operand element; an accumulator takes 8 bytes. -/
def VOp.width (o : VOp) : Nat := if o.acc then 64 else fmtBits o.fmt

/-- The first register of an operand. -/
def LayVC.base (l : LayVC) (k : Nat) : Nat :=
  if k = 1 then l.abase.toNat else if k = 2 then l.bbase.toNat else l.cbase.toNat

/-- The number of elements. -/
def vcN (l : LayVC) : Nat := l.n.toNat + 1

/-- The operand streams: first register and bits read. -/
def vcSpans (h : Chain) (l : LayVC) : List (Nat × Nat) :=
  h.operands.map (fun p => (LayVC.base l p.1, p.2.count (vcN l) h.lr * p.2.width)) ++
  (if h.used.any VStage.perBlock then [(l.cbase.toNat, 8 * ((vcN l + 31) / 32))] else [])

/-- Elements of the result stream. -/
def resultCount (h : Chain) (n : Nat) : Nat :=
  match h.used.getLast? with
  | some g =>
    if g.type = 5 then
      (if g.func % 8 = 4 then (if g.aux.testBit 4 then 1 else n / 32)
       else if g.func.testBit 3 then h.lr else n / h.lr)
    else n
  | none => n

/-- Bits of the result stream. -/
def resultBits (h : Chain) (n : Nat) : Nat := resultCount h n * fmtBits h.fmtD

/-- The element of an operand that chain element q takes (R85). -/
def VOp.index (o : VOp) (lr q : Nat) : Nat :=
  if o.bc = 0 then q else if o.bc = 1 then q % lr else if o.bc = 2 then q / lr else 0

/-- The values of an operand, one for each chain element. -/
def operandVals (vrf : Sparse Byte) (o : VOp) (base lr n : Nat) : List XVal :=
  (List.range n).map (fun q =>
    let raw := vrfElem vrf (256 * base) o.width (o.index lr q)
    if o.acc then w48 raw else decodeFmt o.fmt false raw)

/-! ## Stages -/

/-- What the chain holds between stages: the element values (+0 where masked), the faults met and what
the conversions counted. -/
structure VAcc where
  vals : List XVal
  codes : List Nat
  excs : List (Nat × Nat)
  tensor : Tensor
  lossNf : Bool
  gradNf : Bool
  preds : List (Nat × BitVec 64 × BitVec 64)

/-- The lane's format. -/
def laneFmt (lane : Nat) : Fmt := (fmtOf lane).getD fmtFP32

/-- Round a stage's result to its lane, with overflow noted (R98). -/
def toLane (lane : Nat) (v : XVal) : XVal × Bool :=
  let r := (laneFmt lane).round .rne v
  ((laneFmt lane).decode r.1, r.2)

/-- An operand in the lanes of a later stage: the value where the lane format holds it. -/
def relane (lane0 lane : Nat) (v : XVal) : XVal :=
  let r := (laneFmt lane).decode ((laneFmt lane).rne v)
  if v.isNan ∨ cmpX r v = some .eq then r
  else (laneFmt lane).decode
    (bits (Config.laneValue lane0 lane (BitVec.ofNat 64 ((laneFmt lane0).rne v))).toNat 0 (fmtBits lane - 1))

/-- What a chain reads beside the streams: constants, tensor id, logical index and pitch, the job's
seed, step and rounding. -/
structure VEnv where
  k0 : Nat
  k1 : Nat
  tid : Nat
  e0 : Nat
  g : Nat
  seed : Nat
  step : Nat
  update : Bool
  /-- Scale codes of C, one for 32 elements. -/
  codes : List Nat
  n : Nat
  lr : Nat
  beat : Nat
  lane0 : Nat
  a : List XVal
  b : List XVal
  c : List XVal
  ens : List Bool

/-- The input of a code (Table VEC-4), negated when asked; a negated NaN stays NaN. -/
def stageInput (v : VEnv) (prev : List XVal) (first : Bool) (lane code : Nat) (neg : Bool) : List XVal :=
  let fmt := laneFmt lane
  let w := fmtBits lane
  let raw : List XVal :=
    if code = 0 then (if first then v.a else prev)
    else if code = 1 then v.a.map (relane v.lane0 lane)
    else if code = 2 then v.b.map (relane v.lane0 lane)
    else if code = 3 then v.c.map (relane v.lane0 lane)
    else if code = 4 then List.replicate v.n (fmt.decode (v.k0 % 2 ^ w))
    else if code = 5 then List.replicate v.n (fmt.decode (v.k1 % 2 ^ w))
    else if code = 6 then List.replicate v.n .zero
    else List.replicate v.n (.ofNat 1)
  if neg then raw.map XVal.negate else raw

/-- Fault kinds of R99. -/
def faultIf (b : Bool) (kind q : Nat) : List (Nat × Nat) := if b then [(kind, q)] else []

/-- FMA (R86, R98): fused, rounded once. -/
def fmaOne (lane q : Nat) (x y z : XVal) : XVal × List (Nat × Nat) :=
  let p := mulX x y
  let s := addX p.1 z
  if p.2 ∨ s.2 then (.nan, [(excVecInv, q)])
  else
    let r := toLane lane s.1
    (r.1, faultIf r.2 excVecOvf q)

/-- The FP32 value of a function of Table VEC-5 and its faults: special operands as the table states, a
finite operand by `fnBounded`, the reciprocal correctly rounded. -/
def fnOne32 (f : Nat) (x : XVal) : XVal × Option Nat :=
  let other (neg : Bool) (m : Nat) (e : Int) : XVal := fp32 (fnBounded f neg m e (fmtFP32.rne x))
  match x with
  | .nan => (.nan, none)
  | .inf neg =>
    if f = 0 then (if neg then .zero else .inf false, none)
    else if f = 1 then (if neg then (.nan, some excVecInv) else (.inf false, none))
    else if f = 2 then (.fin neg 0 0, none)
    else if f = 3 then (if neg then (.nan, some excVecInv) else (.zero, none))
    else if f = 4 ∨ f = 5 then (.fin neg 1 0, none)
    else (.nan, some excVecInv)
  | .fin neg m e =>
    if f = 0 then
      (if !neg ∧ magLe 128 0 m e then (.inf false, some excVecOvf) else (other neg m e, none))
    else if f = 1 then
      (if m = 0 then (.inf true, some excVecDz) else if neg then (.nan, some excVecInv) else (other neg m e, none))
    else if f = 2 then
      (if m = 0 then (.inf neg, some excVecDz)
       else
        let r := fmtFP32.round .rne (divX (.ofNat 1) x 24)
        (fp32 r.1, if r.2 then some excVecOvf else none))
    else if f = 3 then
      (if m = 0 then (.inf neg, some excVecDz) else if neg then (.nan, some excVecInv) else (other neg m e, none))
    else (other neg m e, none)

/-- FN (R97): the FP32 value rounded to nearest even into the lane. A result past the lane's range is infinite and
raises overflow (DEDUCED, log entry 113). -/
def fnOne (f lane q : Nat) (x : XVal) : XVal × List (Nat × Nat) :=
  let r := fnOne32 f x
  let l := toLane lane r.1
  (l.1, match r.2 with
    | some k => [(k, q)]
    | none => faultIf l.2 excVecOvf q)

/-- The comparisons of CMPSEL (R90). -/
def cmpOne (op : Nat) (x y : XVal) : Bool :=
  match cmpX x y with
  | none => decide (op = 1) || decide (op = 6)
  | some o =>
    if op = 0 then decide (o = .eq) else if op = 1 then decide (o ≠ .eq)
    else if op = 2 then decide (o = .lt) else if op = 3 then decide (o ≠ .gt)
    else if op = 4 then decide (o = .gt) else if op = 5 then decide (o ≠ .lt)
    else decide (op = 7)

/-- The condition of a CMPSEL stage by predicate bit: bits written and their values; the last enabled
element prevails (R96). -/
def condBits (ens conds : List Bool) : BitVec 64 × BitVec 64 :=
  ((ens.zip conds).zipIdx).foldl (fun a p =>
    if p.1.1 then
      let b := BitVec.ofNat 64 (2 ^ (p.2 % 64))
      (a.1 ||| b, if p.1.2 then a.2 ||| b else a.2 &&& ~~~b)
    else a) (0, 0)

/-- The lane that an SHF lane takes (Table VEC-6), or none for a bad GATHER index (R98). -/
def shfLane (g : VStage) (e l : Nat) (ix : XVal) : Option Nat :=
  if g.func = 0 then some (e - 1 - l)
  else if g.func = 1 then some ((l + e - g.aux) % e)
  else if g.func = 2 then some g.aux
  else match ix with
    | .fin neg m x =>
      if m = 0 then some 0
      else if neg ∨ !magLe m x (e - 1) 0 ∨ (floorAt m x 0) * 2 ^ (-x).toNat ≠ m * 2 ^ x.toNat then none
      else some (floorAt m x 0)
    | _ => none

/-- SHF over the stream, beat by beat: lanes beyond the stream and masked lanes read as +0 (R95). -/
def shfStage (v : VEnv) (g : VStage) (x ix : List XVal) : List (XVal × Bool) :=
  let src := (x.zip v.ens).map (fun p => if p.2 then p.1 else .zero)
  ((pieces v.beat (v.n + 1) src).zip (pieces v.beat (v.n + 1) ix)).flatMap (fun b =>
    (b.2.zipIdx).map (fun p => match shfLane g v.beat p.2 p.1 with
      | some l => (b.1.getD l .zero, false)
      | none => (.nan, true)))

/-- The logical index of element q (R92). -/
def logicalIndex (e0 g lr q : Nat) : Nat := (e0 + q / lr * g + q % lr) % 2 ^ 64

/-- Conversion scaling of a func field. -/
def scalingOf (n : Nat) : Scaling := if n = 1 then .tensor else if n = 2 then .block else .none

/-- What one converted element adds to the counts of a block of 32: non-zero and flushed. -/
structure CvtOne where
  conv : Conv
  nz : Bool
  flush : Bool
  nan : Bool

/-- Convert one element with a scale code (R71 to R78, R441). A NaN written as +0 is no flush, and an element under
scale code 0xFF counts as non-zero by its own value (DEDUCED, log entry 109). -/
def cvtOne (dstFmt : Nat) (sc : Scaling) (code : Nat) (mode : Rounding) (x : XVal) : CvtOne :=
  let bad := decide (sc ≠ .none) && decide (code = 0xFF)
  let c := convert dstFmt sc (if sc = .none then 0 else (code : Int) - 127) mode (if bad then .nan else x)
  let zero := (decodeFmt dstFmt false c.code).isZero
  { conv := c, nz := !x.isZero, flush := !bad && !x.isNan && !x.isZero && zero, nan := c.nanZero }

/-- Counts of a list of converted elements of one stream, in runs of 32; masked ones are absent. -/
def cvtCounts (id : BitVec 32) (l : List (Option CvtOne)) : Tensor :=
  (pieces 32 (l.length + 1) l).foldl (fun t b =>
    let some' (f : CvtOne → Bool) : Bool := b.any (fun x => match x with
      | some y => f y
      | none => false)
    let num (f : CvtOne → Bool) : Nat := (b.filter (fun x => match x with
      | some y => f y
      | none => false)).length
    { t with sat := t.sat + num (fun y => y.conv.sat), nan := t.nan + num (·.nan),
             flush := t.flush + ofBool (some' (·.flush)), nonzero := t.nonzero + ofBool (some' (·.nz)) })
    { id := id, scaled := false, sat := 0, zero := 0, flush := 0, nonzero := 0, nan := 0 }

/-- Sum of the counts of a tensor. -/
def Tensor.plus (a b : Tensor) : Tensor :=
  { id := a.id, scaled := a.scaled || b.scaled, sat := a.sat + b.sat, zero := a.zero + b.zero, flush := a.flush + b.flush,
    nonzero := a.nonzero + b.nonzero, nan := a.nan + b.nan }

/-- A CVT stage (R92). -/
def cvtStage (v : VEnv) (g : VStage) (x : List XVal) (st : VAcc) : VAcc :=
  let dstFmt := g.func % 16
  let tag := bits g.func 4 5
  let sc := scalingOf (bits g.func 6 7)
  let out := ((x.zip v.ens).zipIdx).map (fun p =>
    if p.1.2 then
      let code := if sc = .tensor then v.k1 % 256 else v.codes.getD (p.2 / 32) 0
      some (cvtOne dstFmt sc code
        (convRounding v.update tag v.seed v.step v.tid (logicalIndex v.e0 v.g v.lr p.2)) p.1.1)
    else none)
  let nf (c : Option CvtOne) (y : CvtOne → Bool) : Bool := match c with
    | some z => y z
    | none => false
  let bad := out.any (fun c => nf c (fun z => z.conv.nonFinite || !(decodeFmt dstFmt false z.conv.code).isFin))
  { st with
    vals := out.map (fun c => match c with
      | some z => decodeFmt dstFmt (sc = .block) z.conv.code
      | none => .zero)
    codes := out.map (fun c => match c with
      | some z => z.conv.code
      | none => 0)
    tensor := st.tensor.plus { cvtCounts st.tensor.id out with scaled := decide (sc ≠ .none) && v.ens.any id }
    lossNf := st.lossNf || bad
    gradNf := st.gradNf || (decide (tag = 1) && bad) }

/-! ## Reductions (R93, R94) -/

/-- An addition of the accumulation format, and what it raised. -/
def redAdd (f : Fmt) (a : XVal × Bool × Bool) (b : XVal) : XVal × Bool × Bool :=
  let s := addX a.1 b
  let r := f.round .rne s.1
  (f.decode r.1, a.2.1 || s.2, a.2.2 || r.2)

/-- One level of the pair tree. -/
def treeLevel (f : Fmt) : List (XVal × Bool × Bool) → List (XVal × Bool × Bool)
  | a :: b :: r =>
    let s := redAdd f (a.1, a.2.1 || b.2.1, a.2.2 || b.2.2) b.1
    s :: treeLevel f r
  | l => l

/-- `tree16`: four levels; absent terms count as +0. -/
def tree16 (f : Fmt) (l : List (Option XVal)) : XVal × Bool × Bool :=
  let y := l.map (fun x => (x.getD .zero, false, false))
  ((treeLevel f (treeLevel f (treeLevel f (treeLevel f y)))).head?).getD (.zero, false, false)

/-- The sum of a row or column, rounded to the lane, with invalid and overflow: a row or column counts each once,
however many of its additions raise it (DEDUCED, log entry 111). -/
def redSum (lane : Nat) (across : Bool) (l : List (Option XVal)) : Nat × Bool × Bool :=
  let f := if lane = 9 then fmtFP64 else fmtFP32
  let t :=
    if across then l.foldl (fun t x => match x with
      | some v => redAdd f t v
      | none => t) (.zero, false, false)
    else (pieces 16 (l.length + 1) l).foldl (fun t b =>
      let u := tree16 f b
      redAdd f (t.1, t.2.1 || u.2.1, t.2.2 || u.2.2) u.1) (.zero, false, false)
  let r := (laneFmt lane).round .rne t.1
  (r.1, t.2.1, t.2.2 || r.2)

/-- Larger or smaller of two, under the NaN and zero rules of R93. -/
def pickX (max : Bool) (a b : XVal) : XVal :=
  match cmpX a b with
  | none => .nan
  | some .eq => if a.isZero && !(a.neg? && b.neg?) then .zero else a
  | some .lt => if max then b else a
  | some .gt => if max then a else b

/-- MAX or MIN; the identity when every element is masked. -/
def redPick (max : Bool) (l : List XVal) : XVal :=
  match l with
  | [] => .inf max
  | a :: r => r.foldl (pickX max) a

/-- MAXABS. -/
def redMaxAbs (l : List XVal) : XVal :=
  let m := maxFinite l
  .fin false m.1 m.2

/-- One scale code and whether its block is a zero block (R73, R74, R94). -/
def redScale (dstFmt : Nat) (sc : Scaling) (l : List XVal) : Nat × Bool :=
  if sc = .block ∧ l.any XVal.isNan then (0xFF, false)
  else (scaleCode dstFmt sc (maxFinite l), !l.isEmpty && l.all XVal.isZero)

/-- The rows or columns of a stream. -/
def redGroups (across : Bool) (lr n : Nat) (l : List (Option XVal)) : List (List (Option XVal)) :=
  let rows := pieces lr (n + 1) l
  if across then (List.range lr).map (fun j => rows.map (fun r => (r[j]?).join)) else rows

/-- A RED stage: its result codes. SCALE takes the stream's elements in order, whatever its axis bit (DEDUCED, log entry
112). -/
def redStage (v : VEnv) (g : VStage) (lane : Nat) (x : List XVal) (st : VAcc) : VAcc :=
  let op := g.func % 8
  let across := g.func.testBit 3
  let l : List (Option XVal) := (x.zip v.ens).map (fun p => if p.2 then some p.1 else none)
  if op = 4 then
    let dstFmt := g.aux % 16
    let sc : Scaling := if g.aux.testBit 4 then .tensor else .block
    let bs := if sc = .tensor then [l] else pieces 32 (v.n + 1) l
    let rs := bs.map (fun b => redScale dstFmt sc (b.filterMap id))
    { st with
      codes := rs.map (·.1)
      tensor := { st.tensor with
        zero := st.tensor.zero + (rs.filter (·.2)).length, scaled := st.tensor.scaled || v.ens.any id } }
  else
    let gs := redGroups across v.lr v.n l
    let rs := gs.map (fun b =>
      if op = 0 then redSum lane across b
      else
        let y := if op = 3 then redMaxAbs (b.filterMap id) else redPick (op = 1) (b.filterMap id)
        ((laneFmt lane).rne y, false, false))
    let at' (k : Nat) : Nat := if across then k else k * v.lr
    { st with
      codes := rs.map (·.1)
      excs := st.excs ++ (rs.zipIdx).flatMap (fun p =>
        faultIf p.1.2.1 excVecInv (at' p.2) ++ faultIf p.1.2.2 excVecOvf (at' p.2))
      lossNf := st.lossNf || (rs.zip gs).any (fun p =>
        p.2.any Option.isSome && !((laneFmt lane).decode p.1.1).isFin) }

/-- One stage over the whole stream. -/
def runStage (v : VEnv) (first : Bool) (lane : Nat) (g : VStage) (st : VAcc) : VAcc :=
  let inp (code : Nat) (k : Nat) : List XVal := stageInput v st.vals first lane code (g.neg.testBit k)
  let x := inp g.in1 2
  if g.type = 4 then cvtStage v g x st
  else if g.type = 5 then redStage v g lane x st
  else if g.type = 3 then
    let y := inp g.in2 1
    let z := inp g.in3 0
    let cs := (x.zip y).map (fun p => cmpOne g.func p.1 p.2)
    let b := condBits v.ens cs
    { st with
      vals := ((cs.zip (y.zip z)).zip v.ens).map (fun p => if !p.2 then .zero else if p.1.1 then p.1.2.1 else p.1.2.2)
      preds := if g.aux.testBit 8 then st.preds ++ [(g.aux % 8, b.1, b.2)] else st.preds }
  else
    let out : List (XVal × List (Nat × Nat)) :=
      if g.type = 1 then
        ((x.zip ((inp g.in2 1).zip (inp g.in3 0))).zipIdx).map (fun p => fmaOne lane p.2 p.1.1 p.1.2.1 p.1.2.2)
      else if g.type = 2 then (x.zipIdx).map (fun p => fnOne g.func lane p.2 p.1)
      else ((shfStage v g x (if g.func = 3 then inp g.in2 1 else x)).zipIdx).map (fun p => (p.1.1, faultIf p.1.2 excVecInv p.2))
    let kept := (out.zip v.ens).map (fun p => if p.2 then p.1 else (.zero, []))
    { st with vals := kept.map (·.1), excs := st.excs ++ kept.flatMap (·.2) }

/-- Run the stages in order. -/
def runStages (v : VEnv) : Bool → List (VStage × Nat) → VAcc → VAcc
  | _, [], st => st
  | first, (g, lane) :: r, st => runStages v false r (runStage v first lane g st)

/-- A chain's result on the registers as they stand: the result stream's bytes, with masked elements and
bits outside the stream as they were (R82, R95), faults, counts, flags and predicates. -/
def vcResult (tile frame seed step : Nat) (update : Bool) (vrf : Sparse Byte) (o : VcOp) : Result :=
  let h := chainOf o.desc.toNat
  let n := vcN o.lay
  let ens := (List.range n).map (fun q => o.mask.getLsbD (q % 64))
  let vals (k : Nat) (p : VOp) : List XVal :=
    if h.reads k then operandVals vrf p (LayVC.base o.lay k) h.lr n else []
  let tid := o.tid.toNat % 2 ^ 32
  let v : VEnv :=
    { k0 := o.k0.toNat, k1 := o.k1.toNat, tid := tid, e0 := o.e0.toNat, g := o.g.toNat, seed := seed,
      step := step, update := update,
      codes := if h.used.any VStage.perBlock then
          (rdN vrf (256 * o.lay.cbase.toNat) ((n + 31) / 32)).map (·.toNat) else [],
      n := n, lr := h.lr, beat := h.beat, lane0 := h.lane0, a := vals 1 h.a, b := vals 2 h.b,
      c := vals 3 h.c, ens := ens }
  let nonFin (l : List XVal) : Bool := (l.zip ens).any (fun p => p.2 && !p.1.isFin)
  let st := runStages v true (h.used.zip h.lanes)
    { vals := v.a, codes := [], excs := [], tensor := ⟨BitVec.ofNat 32 tid, false, 0, 0, 0, 0, 0⟩,
      lossNf := nonFin v.a || nonFin v.b || nonFin v.c, gradNf := false, preds := [] }
  let lastType := (h.used.getLast?.map (·.type)).getD 0
  let w := fmtBits h.fmtD
  let base := 256 * o.lay.dbase.toNat
  let codes :=
    if lastType = 5 then st.codes
    else
      let new := if lastType = 4 then st.codes else st.vals.map ((laneFmt h.fmtD).rne)
      ((new.zip ens).zipIdx).map (fun p => if p.1.2 then p.1.1 else vrfElem vrf base w p.2)
  let nfOut := decide (lastType ≠ 5) && nonFin st.vals
  { bytes := ((packStream w codes (rd vrf (base + w * codes.length / 8))).zipIdx).map (fun b => (base + b.2, b.1)),
    excs := st.excs.map (fun e => ⟨e.1, frame, tile, o.index, e.2, 0xFF, 0xFF⟩),
    tensors := if st.tensor.listed ∨ st.tensor.nonzero ≠ 0 then [st.tensor] else [],
    invProd := 0, lossNf := st.lossNf || nfOut, gradNf := st.gradNf, preds := st.preds }

/-! ## Issue, start, completion -/

/-- Depth of a stage type (Table VEC-2). -/
def stageDepth (t : Nat) : Nat :=
  if t = 1 then 4 else if t = 2 then 8 else if t = 3 then 1 else if t = 4 then 3 else if t = 5 then 4 else 2

/-- Cycles from the first beat to completion (R100). -/
def vcCycles (h : Chain) (n : Nat) : Nat :=
  (n + h.beat - 1) / h.beat + 4 + (h.used.map (fun g => stageDepth g.type)).sum

/-- The rejection of a VCR, if it breaks a rule. -/
def vcReject (l : LayVC) (h : Chain) : Option Nat :=
  if l.rsv ≠ 0 then some rejOpcode
  else match chainReject h (vcN l) with
    | some code => some code
    | none =>
      if (vcSpans h l).any (fun p => !vrfBitsOk p.1 p.2) ∨ !vrfBitsOk l.dbase.toNat (resultBits h (vcN l)) then
        some rejRange
      else none

/-- Predicates that a chain writes. -/
def Chain.predsOut (h : Chain) : List Nat :=
  (h.used.filter (fun g => decide (g.type = 3) && g.aux.testBit 8)).map (fun g => g.aux % 8)

/-- The scalar registers that a chain reads. -/
def Chain.scalars (h : Chain) (l : LayVC) : List (BitVec 5) :=
  let cvt := h.used.any (fun g => decide (g.type = 4) && decide (bits g.func 4 5 ≠ 0))
  [l.tid] ++ (if h.reads 4 then [l.k0] else []) ++
    (if h.reads 5 || h.used.any (fun g => decide (g.type = 4) && decide (bits g.func 6 7 = 1)) then [l.k1] else []) ++
    (if cvt then [l.e0, l.g] else [])

/-- VCR issues a vector chain (R82, R88, R89): its descriptor, scalars and predicate are taken as they
stand; a slot that a load in flight will change holds it back (DEDUCED, log entry 110). -/
def execVcr (i : At) (f : LayVC) (s : State) : Res :=
  issue (.vcr i f) i s (fun s =>
    let x := s.tile i.tile
    let loading := x.ls.any (fun l => match l.kind with
      | .vdl _ slot => decide (slot = f.slot.toNat)
      | _ => false)
    if f.rsv = 0 ∧ loading then .hold
    else
      let d := look x.descs f.slot.toNat 0
      let h := chainOf d.toNat
      match vcReject f h with
      | some code => .reject code
      | none =>
        let srcs := (vcSpans h f).map (fun p => (p.1, regsOf ((p.2 + 7) / 8)))
        let dbits := resultBits h (vcN f)
        if s.sregBusy i (h.scalars f) || !s.readable i.tile srcs ||
            !s.writable i.tile [(f.dbase.toNat, regsOf ((dbits + 7) / 8))] ||
            s.predBusy i.tile f.pred.toNat || h.predsOut.any (s.predBusy i.tile) then .hold
        else
          let op := x.takeOp
          let o : VcOp :=
            { op := op.1, ctx := i.ctx, index := (x.ctx i.ctx).index, lay := f, desc := d,
              k0 := s.sreg i f.k0, k1 := s.sreg i f.k1, tid := s.sreg i f.tid, e0 := s.sreg i f.e0,
              g := s.sreg i f.g, mask := x.pred f.pred.toNat, srcs := srcs, dbits := dbits,
              preds := h.predsOut, streaming := false, ended := false, cycles := vcCycles h (vcN f),
              result := ⟨[], [], [], 0, false, false, []⟩ }
          .go (s.setTile i.tile { op.2 with vcs := x.vcs ++ [o] }))

/-- VC_START: the last beat of the instruction before has been read, and the oldest vector instruction that has not
started reads its beats (R100). What it computes is fixed here: nothing changes its sources while it reads (R101). -/
def execVcStart (t : Fin 1024) (s : State) : Res :=
  let x := s.tile t
  match x.vcs.find? (fun m => !m.streaming) with
  | none => .next s
  | some o =>
    let j := (s.jobOfTile t).getD 0
    let r := vcResult t (x.frame - 1) (s.fld NUM_SEED_seed j) (s.step j) (s.fld NUM_CTRL_rounding j = 1) x.vrf o
    let loss := decide (o.tid.toNat % 2 ^ 32 = s.fld STEP_CTRL_loss_tid j)
    let r := { r with lossNf := r.lossNf && loss }
    let before := x.vcs.map (fun y => { y with ended := y.streaming })
    s.whenRuns (.next (s.setTile t { x with
      vcs := modFirst (fun y => decide (y.op = o.op)) (fun y => { y with streaming := true, result := r }) before }))

/-- VC_COMPLETE: the oldest running chain completes; results and predicates become readable (R100). -/
def execVcComplete (t : Fin 1024) (s : State) : Res :=
  let x := s.tile t
  match x.vcs.find? (·.streaming) with
  | none => .next s
  | some o =>
    let s1 := s.modTile t (fun x => { x with vcs := x.vcs.filter (fun y => y.op ≠ o.op) })
    s.whenRuns (.next ((s1.takeResult t o.result).settle t))

/-- VDL loads a descriptor (R88): it waits while an issued vector instruction names the slot. -/
def execVdl (i : At) (f : LayR) (s : State) : Res :=
  issue (.vdl i f) i s (fun s =>
    let a := effAddr (s.sreg i f.fb) f.imm
    let slot := auxBits f 0 4
    let x := s.tile i.tile
    if !unusedZero f { b := true, aux := 0x1F, imm := immAll } then .reject rejOpcode
    else if s.sregBusy i [f.fb] then .hold
    else if !spadOk a 32 then .reject rejRange
    else if a % 32 ≠ 0 then .reject rejAlign
    else if x.vcs.any (fun v => decide (v.lay.slot.toNat = slot)) then .hold
    else
      let op := x.takeOp
      .go (s.setTile i.tile { op.2 with
        ls := x.ls ++ [{ op := op.1, ctx := i.ctx, kind := .vdl a slot, granted := 0, buf := [], holds := (0, 0), tensors := [],
                         lossNf := false, gradNf := false }] }))

end Sys2Proof.Machine
end

