-- ==== Sys2Proof/Machine/Optimizer.lean ====
section
/-! DEFINITION. The update programs that the device microcode supplies (R158): their parameter block, their references for
one element, and the vector chains that each is made of. A program runs as the VCR instructions of its chains. -/
namespace Sys2Proof.Machine

/-! ## The parameter block -/

/-- The constants of the three programs. -/
inductive UpdConst where
  | mu | nlwd | nlr | cd | b1 | c1 | b2 | c2 | eps2 | nat
  deriving DecidableEq, Repr

/-- The FP32 word of the 64-byte parameter block that holds a constant: the order of R158's text, which states no layout
(DESIGN CHOICE, log entry 124). -/
def updWord : UpdConst → Nat
  | .mu => 0
  | .nlwd => 1
  | .nlr => 2
  | .cd => 3
  | .b1 => 4
  | .c1 => 5
  | .b2 => 6
  | .c2 => 7
  | .eps2 => 8
  | .nat => 9

/-- A constant of a parameter block: little-endian, like every FP32 value in memory (R7). -/
def updConst (block : Bytes) (k : UpdConst) : XVal :=
  fp32 ((List.range 4).foldl (fun a i => a + ((block.getD (4 * updWord k + i) 0).toNat) * 256 ^ i) 0)

/-! ## The operations of the references -/

/-- fma32: one FMA stage, fused and rounded once to nearest even in FP32. -/
def fmaV (x y z : XVal) : XVal := fp32 (fmtFP32.rne (addX (mulX x y).1 z).1)

/-- mul32, add32 and sub32: FMA stages with +0 or +1 inputs. -/
def mulV (x y : XVal) : XVal := fmaV x y .zero
def addV (x y : XVal) : XVal := fmaV x (.ofNat 1) y
def subV (x y : XVal) : XVal := fmaV x (.ofNat 1) y.negate

/-- rsqrt32: the FN reciprocal square root (R87). -/
def rsqrtV (x : XVal) : XVal := (fnOne 3 8 0 x).1

/-- cvt_sr: the conversion of R71 to R78 with the weight-update tag and no scaling, as a code of the target format. -/
def cvtSr (fmt seed step tensor e : Nat) (x : XVal) : Nat :=
  (convert fmt .none 0 (convRounding false 2 seed step tensor e) x).code

/-! ## The references of R158 -/

/-- The values of one element: master weight, first state (b or m), second state (v), moving average and gradient. -/
structure UpdElem where
  w : XVal
  m : XVal
  v : XVal
  e : XVal
  g : XVal

/-- SGD with momentum; `m` is b. -/
def sgdmRef (p : UpdConst → XVal) (x : UpdElem) : UpdElem :=
  let b := fmaV (p .mu) x.m x.g
  let w := fmaV (p .nlwd) x.w x.w
  let w := fmaV (p .nlr) b w
  { x with w := w, m := b, e := fmaV (p .cd) (subV w x.e) x.e }

/-- AdamW. -/
def adamwRef (p : UpdConst → XVal) (x : UpdElem) : UpdElem :=
  let m := fmaV (p .b1) x.m (mulV (p .c1) x.g)
  let v := fmaV (p .b2) x.v (mulV (mulV (p .c2) x.g) x.g)
  let r := rsqrtV (addV v (p .eps2))
  let w := fmaV (p .nlwd) x.w x.w
  let w := fmaV (p .nat) (mulV m r) w
  { x with w := w, m := m, v := v, e := fmaV (p .cd) (subV w x.e) x.e }

/-- The sign of Lion. -/
def signV (u : XVal) : XVal :=
  if cmpX u .zero = some .gt then .ofNat 1 else if cmpX u .zero = some .lt then .fin true 1 0 else .zero

/-- Lion. -/
def lionRef (p : UpdConst → XVal) (x : UpdElem) : UpdElem :=
  let u := fmaV (p .b1) x.m (mulV (p .c1) x.g)
  let w := fmaV (p .nlwd) x.w x.w
  let w := fmaV (p .nlr) (signV u) w
  { x with w := w, m := fmaV (p .b2) x.m (mulV (p .c2) x.g), e := fmaV (p .cd) (subV w x.e) x.e }

/-! ## The programs -/

/-- A stage of a chain descriptor (Table VEC-4). -/
def stageWord (type in1 in2 in3 neg func : Nat) : Nat :=
  type * 2 ^ 33 + in1 * 2 ^ 30 + in2 * 2 ^ 27 + in3 * 2 ^ 24 + neg * 2 ^ 21 + func * 2 ^ 13

/-- A descriptor of a chain in FP32 lanes over FP32 streams, rows of 16, with a result format (Table VEC-3). -/
def chainWord (fmtD : Nat) (stages : List Nat) : Nat :=
  stages.length * 2 ^ 253 + 2 * 2 ^ 251 + 8 * 2 ^ 247 + 8 * 2 ^ 240 + 8 * 2 ^ 233 + fmtD * 2 ^ 226 + 4 * 2 ^ 222 +
    (stages.zipIdx.map (fun p => p.1 * 2 ^ (36 * p.2))).sum

/-- The arrays that the chains of a program read and write: the element's values, the working copy, and values that pass
from one chain to the next. -/
inductive UpdVar where
  | w | m | v | e | g | q | u | s | newW | newM | newV | newE
  deriving DecidableEq, Repr

/-- One chain of a program: its descriptor, its streams, its constants and what it writes. -/
structure UpdStep where
  desc : Nat
  a : UpdVar
  b : UpdVar
  k0 : UpdConst
  k1 : UpdConst
  out : UpdVar
  deriving DecidableEq, Repr

/-- w after decay, and then with a constant times B added. -/
def updWeight (k1 : UpdConst) (b : UpdVar) : UpdStep :=
  { desc := chainWord 8 [stageWord 1 4 1 1 0 0, stageWord 1 5 2 0 0 0], a := .w, b := b, k0 := .nlwd, k1 := k1, out := .newW }

/-- K1 times A added to K0 times g. -/
def updMean (k0 k1 : UpdConst) (out : UpdVar) : UpdStep :=
  { desc := chainWord 8 [stageWord 1 4 2 6 0 0, stageWord 1 5 1 0 0 0], a := .m, b := .g, k0 := k0, k1 := k1, out := out }

/-- The moving average, and the working copy with the weight-update tag. -/
def updTail (fmt : Nat) : List UpdStep :=
  [{ desc := chainWord 8 [stageWord 1 1 7 2 1 0, stageWord 1 4 0 2 0 0], a := .newW, b := .e, k0 := .cd, k1 := .cd, out := .newE },
   { desc := chainWord fmt [stageWord 4 1 0 0 0 (fmt + 2 * 16)], a := .newW, b := .e, k0 := .cd, k1 := .cd, out := .q }]

/-- SGD with momentum. -/
def sgdmProgram (fmt : Nat) : List UpdStep :=
  { desc := chainWord 8 [stageWord 1 4 1 2 0 0], a := .m, b := .g, k0 := .mu, k1 := .mu, out := .newM } ::
  updWeight .nlr .newM :: updTail fmt

/-- AdamW. -/
def adamwProgram (fmt : Nat) : List UpdStep :=
  updMean .c1 .b1 .newM ::
  { desc := chainWord 8 [stageWord 1 4 2 6 0 0, stageWord 1 0 2 6 0 0, stageWord 1 5 1 0 0 0], a := .v, b := .g, k0 := .c2, k1 := .b2, out := .newV } ::
  { desc := chainWord 8 [stageWord 1 1 7 4 0 0, stageWord 2 0 0 0 0 3, stageWord 1 2 0 6 0 0], a := .newV, b := .newM, k0 := .eps2, k1 := .eps2, out := .u } ::
  updWeight .nat .u :: updTail fmt

/-- Lion: the sign is the difference of two comparisons with 0. -/
def lionProgram (fmt : Nat) : List UpdStep :=
  updMean .c1 .b1 .u ::
  { desc := chainWord 8 [stageWord 3 1 6 7 0 3], a := .u, b := .u, k0 := .cd, k1 := .cd, out := .s } ::
  { desc := chainWord 8 [stageWord 3 1 6 7 0 5, stageWord 1 2 7 0 1 0], a := .u, b := .s, k0 := .cd, k1 := .cd, out := .s } ::
  updWeight .nlr .s :: updMean .c2 .b2 .newM :: updTail fmt

/-- A chain of a program on the values of its streams, every element enabled: what the vector engine computes of them
(R82), in the lane format or the target format of its last stage. -/
def UpdStep.run (p : UpdConst → Nat) (seed step tid e0 g : Nat) (update : Bool) (env : UpdVar → List XVal) (k : UpdStep) :
    List XVal :=
  let h := chainOf k.desc
  let a := env k.a
  let n := a.length
  (runStages
    { k0 := p k.k0, k1 := p k.k1, tid := tid, e0 := e0, g := g, seed := seed, step := step, update := update, codes := [],
      n := n, lr := h.lr, beat := h.beat, lane0 := h.lane0, a := a, b := env k.b, c := [], ens := List.replicate n true }
    true (h.used.zip h.lanes)
    { vals := a, codes := [], excs := [], tensor := ⟨BitVec.ofNat 32 tid, false, 0, 0, 0, 0, 0⟩, lossNf := false,
      gradNf := false, preds := [] }).vals

/-- A program's chains in order, each writing its array. -/
def runUpdate (p : UpdConst → Nat) (seed step tid e0 g : Nat) (update : Bool) (prog : List UpdStep) (env : UpdVar → List XVal) :
    UpdVar → List XVal :=
  prog.foldl (fun env k => fun x => if x = k.out then UpdStep.run p seed step tid e0 g update env k else env x) env

end Sys2Proof.Machine
end

