-- ==== Sys2Proof/Machine/Dxe.lean ====
section
/-! DEFINITION. The delta exchange engine: rounds and their times, path estimates, shards and exchange devices, what is asked for
again, encoder lanes, memory errors in round state, and the close (R252 to R259, R274, R277, R280, R299). -/
namespace Sys2Proof.Machine

/-! ## Rounds and times (R252, R259) -/

/-- The round that the present step belongs to. -/
def State.roundNow (s : State) (j : Nat) : Nat := (s.step j - s.fld DXE_ROUND_s0 j) / s.fld DXE_CTRL_h j

/-- The round whose last step has just committed (R127). -/
def State.closable (s : State) (j : Nat) : Option Nat :=
  let n := s.step j - s.fld DXE_ROUND_s0 j
  let h := s.fld DXE_CTRL_h j
  if s.fld DXE_ROUND_s0 j < s.step j ∧ n % h = 0 then some (n / h - 1) else none

/-- The deadline of a round in ns of site time. -/
def State.deadline (s : State) (j r : Nat) : Nat := s.fld DXE_ROUND_d0 j + r * (s.fld DXE_ROUND_t_round j * 1000000)

def State.sMax (s : State) (j : Nat) : Nat := s.fld DXE_STALE_CFG_s_max j

/-- The weight of a contribution of age s (R269). -/
def State.weight (s : State) (j a : Nat) : Nat :=
  if a = 0 then 0x3F800000 else if a = 1 then s.fld DXE_STALE_CFG_w1 j else if a = 2 then s.fld DXE_STALE_CFG_w2 j
  else s.fld DXE_STALE_CFG_w3 j

/-- The own site. -/
def State.site (s : State) : BitVec 16 := BitVec.ofNat 16 (s.fld FAB_COORD_site)

/-- The site of a global device index. -/
def siteOf (dev : BitVec 32) : BitVec 16 := BitVec.ofNat 16 (bits dev.toNat 12 21)

/-- An open round. -/
def Dxe.round (x : Dxe) (r : Nat) : Option Round := x.rounds.find? (fun y => decide (y.number = r))

def Round.fresh (r : Nat) : Round :=
  { number := r, stage := .none, manifest := none, acceptedAt := 0, ownDigest := none, signed := false, signs := [], receipts := [],
    absents := [], joins := [], digests := [], reports := [], sealedDigest := none, cut := false, receiptSent := false, declared := [], waiting := none, copies := [] }

/-- Insert a round in ascending order. -/
def insertRound (y : Round) : List Round → List Round
  | [] => [y]
  | x :: r => if y.number < x.number then y :: x :: r else x :: insertRound y r

/-- Change a round, opening it first if it is not open. -/
def Dxe.modRound (x : Dxe) (r : Nat) (f : Round → Round) : Dxe :=
  if (x.round r).isSome then { x with rounds := modFirst (fun y => decide (y.number = r)) f x.rounds }
  else { x with rounds := insertRound (f (Round.fresh r)) x.rounds }

/-- A later stage stands. -/
def Stage.code : Stage → Nat
  | .none => 0 | .sending => 1 | .collecting => 2 | .receipted => 3 | .computing => 4 | .sealed => 5 | .ready => 6

def Round.atLeast (y : Round) (g : Stage) : Round := if y.stage.code < g.code then { y with stage := g } else y

/-! ## Partner streams and paths (R256, R274) -/

def Dxe.peer (x : Dxe) (dev : BitVec 32) : Option Peer := x.peers.find? (fun p => decide (p.dev = dev))

def State.modPeer (s : State) (j : Nat) (dev : BitVec 32) (f : Peer → Peer) : State :=
  s.modDxe j (fun x => { x with peers := modFirst (fun p => decide (p.dev = dev)) f x.peers })

/-- Insert by key, ascending. -/
def insertKey (p : Nat × Nat) : List (Nat × Nat) → List (Nat × Nat)
  | [] => [p]
  | q :: r => if p.1 < q.1 then p :: q :: r else q :: insertKey p r

def sortKey (l : List (Nat × Nat)) : List (Nat × Nat) := l.foldl (fun a p => insertKey p a) []

/-- The delays of a window, ascending. -/
def Path.delays (p : Path) : List Nat := (sortKey (p.samples.map (fun q => (q.2, q.1)))).map (·.1)

/-- The estimate of a window: the 11th largest of 1,024 samples, the largest since the reset before that. -/
def Path.estimateOf (p : Path) : Nat :=
  let d := p.delays.reverse
  if d.length < 1024 then d.headD 0 else d.getD 10 0

/-- The median of a window: of an even number the upper of the middle two (DESIGN CHOICE, log entry 20). -/
def Path.median (p : Path) : Nat := p.delays.getD (p.samples.length / 2) 0

/-- The last eight samples in sequence order each differ from the median by more than 1 ms. -/
def Path.jumped (p : Path) : Bool :=
  let last := ((sortKey p.samples).reverse).take 8
  let m := p.median
  decide (last.length = 8) && last.all (fun q => decide (m + 1000000 < q.2) || decide (q.2 + 1000000 < m))

/-- Both references are locked: estimates move (R274). -/
def State.locked (s : State) : Bool := decide (s.fld PTP_STATUS_lock = 1) && decide (s.fld PPS_STATUS_lock = 1)

/-- A sample enters a path's window: whether the estimator is reset by it. -/
def Path.sample (p : Path) (seq delay : Nat) (locked : Bool) : Path × Bool :=
  let q := { p with samples := ((seq, delay) :: p.samples).take 1024, silent := false }
  let jump := q.jumped
  let q := if jump then { q with samples := ((sortKey q.samples).reverse).take 8 } else q
  ({ q with estimate := if locked then q.estimateOf else p.estimate }, jump)

/-- The window is emptied when the path becomes active. -/
def Path.fresh' (p : Path) (locked : Bool) : Path :=
  let q := { p with samples := [] }
  if locked then q else { q with estimate := p.estimate }

def Peer.path (p : Peer) (second : Bool) : Path := if second then p.secondary else p.primary
def Peer.setPath (p : Peer) (second : Bool) (q : Path) : Peer :=
  if second then { p with secondary := q } else { p with primary := q }

/-- The estimate of the active path. -/
def Peer.estimate (p : Peer) : Nat := (p.path p.second).estimate

/-- The device's grace: the largest estimate of its active partner paths plus 2 ms (R274). -/
def Dxe.grace (x : Dxe) : Nat := (x.peers.map Peer.estimate).foldl max 0 + 2000000

/-! ## Shards and exchange devices (R254, R255) -/

/-- The position of a held shard in the shard table. -/
def Dxe.shardIndex (x : Dxe) (shard : BitVec 32) : Option Nat :=
  let n := x.shards.findIdx (fun y => decide (y.1 = shard))
  if n < x.shards.length then some n else none

/-- The group that exchanges a shard: of those contributing at the close the one numbered shard mod n, or the next in cyclic
order that still contributes and has lost no device. -/
def State.exchangeGroup (s : State) (j : Nat) (shard : BitVec 32) : Option Nat :=
  let x := s.job j
  let g := x.dxe.closeGroups
  let k := shard.toNat % g.length
  (g.drop k ++ g.take k).find? (fun v => !x.excludedGroups.contains v && !(x.lostDevs.map (s.groupOfDev j)).contains v)

/-- This device exchanges a shard on the WAN. -/
def State.exchanges (s : State) (j : Nat) (shard : BitVec 32) : Bool :=
  ((s.job j).dxe.shardIndex shard).isSome && decide (s.exchangeGroup j shard = some (s.ownGroup j))

/-- The site lead is the Lerhus of the coordinator (R260). -/
def State.isLeadDevice (s : State) (j : Nat) : Bool :=
  match s.coordinator j with
  | some c => decide (c = s.self)
  | none => decide (((s.job j).devices s.dims).head? = some s.self)

/-- The address of element i of a held shard in a copy of its region. -/
def weightAt (base : Nat) (sh : BitVec 32 × Nat × Nat) (i : Nat) : Nat := base + 4 * (sh.2.2 + i)

/-- The region of a shard. -/
def State.shardRegion (s : State) (j : Nat) (sh : BitVec 32 × Nat × Nat) : Region :=
  (s.regions j).getD sh.2.1 { live := 0, pend := 0, size := 0, kind := 0, flags := 0, rsv := 0, last := 0 }

/-- The shards exchanged with a partner device. -/
def State.shardsWith (s : State) (j : Nat) (dev : BitVec 32) : List (BitVec 32) :=
  ((s.job j).dxe.partners.filter (fun q => decide (q.2.2 = dev) && s.exchanges j q.1)).map (·.1)

/-- The shards that this device exchanges. -/
def State.exchanged (s : State) (j : Nat) : List (BitVec 32) :=
  ((s.job j).dxe.shards.map (·.1)).filter (s.exchanges j)

/-! ## Contributions -/

/-- The decoded values of blocks of a shard, by element; each block is decoded with the tables of its own stream. -/
def contribValues (bs : List (List RxTable × Block)) (shard : BitVec 32) : Sparse (BitVec 32) :=
  (bs.filter (fun p => decide (p.2.shard = shard))).foldl (fun m p =>
    let t := (p.1.find? (fun t => decide (t.body.id = p.2.tableId))).map (·.body)
    match decodeBody t p.2 with
    | some gs => (blockValues p.2 gs).foldl (fun m e => store m e.1 (BitVec.ofNat 32 e.2) 0) m
    | none => m) []

/-- Own blocks are in raw form: no table decodes them. -/
def ownValues (bs : List Block) (shard : BitVec 32) : Sparse (BitVec 32) := contribValues (bs.map (fun b => ([], b))) shard

/-- The received blocks of a contribution. -/
def Dxe.received (x : Dxe) (site : BitVec 16) (round : Nat) : List (BitVec 32 × Block) :=
  x.store.filter (fun p => decide (siteOf p.1 = site) && decide (p.2.round.toNat = round))

/-- A site's contribution of a round is complete on this device: every block of every shard it exchanges is held (R259). -/
def Dxe.complete (x : Dxe) (shards : List (BitVec 32)) (site : BitVec 16) (round : Nat) : Bool :=
  shards.all (fun sh =>
    let bs := ((x.received site round).filter (fun p => decide (p.2.shard = sh))).map (·.2)
    match bs.find? (·.final) with
    | none => false
    | some f => (List.range (f.block.toNat + 1)).all (fun n => bs.any (fun b => decide (b.block.toNat = n))))

/-- The blocks of a contribution, each with the tables of the stream that brought it (R270, R298). -/
def Dxe.contribution (x : Dxe) (own : BitVec 16) (site : BitVec 16) (round : Nat) : List (List RxTable × Block) :=
  if site = own then ((x.own.filter (fun p => decide (p.1 = round))).flatMap (·.2)).map (fun b => ([], b))
  else (x.received site round).map (fun p => (((x.peer p.1).map (·.rxTables)).getD [], p.2))

/-- A contribution is settled: a sealed manifest includes it, or it was dropped at age S_max (R269). -/
def Dxe.settledAt (x : Dxe) (sMax : Nat) (site : BitVec 16) (round : Nat) : Bool :=
  x.settled.contains (site, round) || decide (round + sMax < x.sealedNext)

/-- A contribution is part of a sealed round whose next copies this device has yet to compute (R266, R273). -/
def Dxe.needs (x : Dxe) (site : BitVec 16) (round : Nat) : Bool :=
  x.bundles.any (fun b => decide (x.installed ≤ b.1) && !(x.round b.1).any (·.ownDigest.isSome) &&
    b.2.1.contribs.any (fun c => decide (c.site = site) && decide (c.round.toNat = round)))

/-- Blocks of a contribution are still wanted (R266, R277). -/
def Dxe.wants (x : Dxe) (sMax : Nat) (site : BitVec 16) (round : Nat) : Bool := !x.settledAt sMax site round || x.needs site round

/-! ## Asking for blocks (R277, R295, R316) -/

/-- The other groups that contribute to the job's next attempt. -/
def State.otherGroups (s : State) (j : Nat) : List Nat :=
  (List.range (groupCount (s.ddims j) (quadList (s.job j).extent))).filter (fun g =>
    decide (g ≠ s.ownGroup j) && !(s.job j).excludedGroups.contains g)

/-- The class codes of DELTA and TABLE. -/
def clsDelta : BitVec 8 := 3
def clsTable : BitVec 8 := 4

/-- A NACK of blocks of one round, ranges coalesced (Tables HST-6, HST-7). -/
def nackBlocks (s : State) (j : Nat) (dev : BitVec 32) (reason : BitVec 8) (table : Nat) (ids : List (BitVec 32 × BitVec 64 × BitVec 32)) : State :=
  match ids with
  | [] => s
  | (_, round, _) :: _ => s.sendFor j (.ack dev true ⟨clsDelta, reason, round, rangeEntries table ids⟩)

/-- Missing blocks of one round are asked for, and again until they come (R277). -/
def askBlocks (s : State) (j : Nat) (dev : BitVec 32) (ids : List (BitVec 32 × BitVec 64 × BitVec 32)) : State :=
  nackBlocks (s.modPeer j dev (fun p => { p with gaps := p.gaps.filter (fun g => !ids.contains g) ++ ids })) j dev 1 0 ids

/-- The blocks of a shard of a contribution that are not held: up to the final one, or as many as the shard can have. -/
def Dxe.lacks (x : Dxe) (site : BitVec 16) (round : Nat) (shard : BitVec 32) : List (BitVec 32 × BitVec 64 × BitVec 32) :=
  let bs := ((x.received site round).filter (fun p => decide (p.2.shard = shard))).map (·.2)
  let n := match bs.find? (·.final) with
    | some f => f.block.toNat + 1
    | none => x.shardElems / 256
  ((List.range n).filter (fun k => !bs.any (fun b => decide (b.block.toNat = k)))).map (fun k => (shard, BitVec.ofNat 64 round, BitVec.ofNat 32 k))

/-- What a device lacks of a contribution is asked for, shard by shard, from the partner devices of the site. -/
def askContribution (s : State) (j : Nat) (shards : List (BitVec 32)) (site : BitVec 16) (round : Nat) : State :=
  shards.foldl (fun s sh =>
    match (s.job j).dxe.partners.find? (fun q => decide (q.1 = sh) && decide (q.2.1 = site)), (s.job j).dxe.lacks site round sh with
    | some q, i :: is => askBlocks s j q.2.2 (i :: is)
    | _, _ => s) s

/-- Free the retired tables that no stored block references, and acknowledge the retires that came (R295). -/
def freeTables (s : State) (j : Nat) : State :=
  (s.job j).dxe.peers.foldl (fun s p =>
    let used (t : RxTable) : Bool := (s.job j).dxe.store.any (fun b =>
      decide (b.1 = p.dev) && !b.2.raw && decide (b.2.tableId = t.body.id))
    let gone := p.rxTables.filter (fun t => t.asked && !used t)
    let s := gone.foldl (fun s t => s.sendFor j (.ack p.dev false { cls := 4, reason := 0, ref := 0, entries :=
      [{ a := BitVec.ofNat 32 (t.body.id.toNat * 2 ^ 24 + (128 + 16 * ofBool t.body.fp4) * 2 ^ 16), b := 0, c := 0 }] })) s
    s.modDxe j (fun x => { x with peers := modFirst (fun q => decide (q.dev = p.dev)) (fun q =>
      { q with rxTables := q.rxTables.filter (fun t => !(t.retired && !used t)) }) x.peers })) s

/-! ## Encoder lanes (R14, R299) -/

/-- Blocks move from the DRAM of the close into the send queue of 256. -/
def Peer.fill (p : Peer) : Peer :=
  let n := 256 - p.sendQ.length
  { p with sendQ := p.sendQ ++ p.backlog.take n, backlog := p.backlog.drop n }

/-- Only some blocks stay in a stream's queues. -/
def Peer.only (keep : Block → Bool) (p : Peer) : Peer :=
  { p with backlog := p.backlog.filter keep, sendQ := p.sendQ.filter keep, coded := p.coded.filter keep, outQ := p.outQ.filter keep,
           unacked := p.unacked.filter keep }

/-- Free lanes of the eight take blocks, one of each job in turn; of a job, from its first stream that waits (R14, R299, DESIGN
CHOICE, DESIGN CHOICE, log entry 131). -/
def fillLanes : Nat → State → State
  | 0, s => s
  | n + 1, s =>
    if 8 ≤ s.lanes.length then s
    else
      let waits (j : Nat) : Option Peer := (s.job j).dxe.peers.find? (fun p => !p.sendQ.isEmpty)
      match nextTurn (look s.turns blkDxe []) (s.runningJobs.filter (fun j => (waits j).isSome)) with
      | none => s
      | some j => match waits j with
        | none => s
        | some p => match p.sendQ with
          | [] => s
          | b :: r =>
            let s := (s.modPeer j p.dev (fun q => Peer.fill { q with sendQ := r })).tookTurn blkDxe j
            fillLanes n { s with lanes := s.lanes ++ [(j, p.dev, b)] }

/-- Queue blocks for the partners of the shards that this device exchanges, in shard and block order (R256, R299). -/
def queueBlocks (s : State) (j : Nat) (bs : List Block) : State :=
  fillLanes 8 (s.modDxe j (fun x => { x with peers := x.peers.map (fun p =>
    Peer.fill { p with backlog := p.backlog ++ bs.filter (fun b => s.exchanges j b.shard &&
      x.partners.any (fun q => decide (q.1 = b.shard) && decide (q.2.2 = p.dev))) }) }))

/-! ## The duty passes (R255, R294) -/

/-- The duty for shards has changed: what this device no longer exchanges leaves its streams; for what it exchanges now, a stream
that it did not have starts without tables, own outstanding blocks are sent again and partner blocks that it lacks are asked for
(R255, R294). -/
def dutyChange (before s : State) (j : Nat) : State :=
  let x := (s.job j).dxe
  let mine := s.exchanged j
  let new := mine.filter (fun sh => !before.exchanges j sh)
  if !x.active ∨ (new.isEmpty ∧ mine = before.exchanged j) then s
  else
    let s := s.modDxe j (fun x => { x with peers := x.peers.map (fun p =>
      { Peer.only (fun b => mine.contains b.shard) p with txTables := if (before.shardsWith j p.dev).isEmpty then [] else p.txTables }) })
    let s : State := { s with lanes := s.lanes.filter (fun l => decide (l.1 ≠ j) || mine.contains l.2.2.shard) }
    let s := queueBlocks s j (((s.job j).dxe.own.flatMap (·.2)).filter (fun b => new.contains b.shard))
    let rounds := (List.range (s.sMax j + 1)).filterMap (fun a =>
      if s.sMax j - a ≤ x.sealedNext then some (x.sealedNext + a - s.sMax j) else none)
    (x.members.filter (fun v => decide (v ≠ s.site))).foldl (fun s v =>
      (rounds.filter (x.wants (s.sMax j) v)).foldl (fun s q => askContribution s j new v q) s) s

/-! ## Memory errors in round state (R280) -/

/-- The residual of lines that no peer group holds is +0, and the lost lines count (R280). -/
def loseResidual (s : State) (j : Nat) (ls : List Nat) : State :=
  let lost := ls.filter (fun l => !s.areaFree j [4] l)
  (s.modDxe j (fun x => { x with resid := (lost.flatMap (s.areaAt j 4)).foldl (fun m e => store m e 0 0) x.resid })).count
    DXE_STATUS_lost_mass lost.length j

/-- The next site after one in ascending cyclic order of a list. -/
def nextSite (all : List (BitVec 16)) (after : BitVec 16) : BitVec 16 :=
  let up := (all.filter (fun v => decide (after.toNat < v.toNat))).map (·.toNat)
  match up with
  | x :: r => BitVec.ofNat 16 (r.foldl min x)
  | [] => match all.map (·.toNat) with
    | x :: r => BitVec.ofNat 16 (r.foldl min x)
    | [] => after

/-- The site that issued the manifest which gave the live anchor. -/
def Dxe.anchorIssuer (x : Dxe) : BitVec 16 :=
  match x.bundles.find? (fun b => decide (b.1 + 1 = x.installed)) with
  | some b => b.2.1.issuer
  | none => nextSite x.members 0xFFFF

/-- A REQUEST leaves, and waits for its object (R313). -/
def sendRequest (s : State) (j : Nat) (dev : BitVec 32) (obj round first count : Nat) : State :=
  (s.modHost (fun h => { h with
    requests := h.requests.filter (fun r => !(decide (r.peer = dev) && decide (r.obj = obj) && decide (r.first = first))) ++
      [{ peer := dev, obj := obj, round := round, first := first, count := count }] })).sendFor j (.bulkRequest dev obj round first count)

/-- Ask a site for the anchor A_n and its momentum, shard by shard, from the devices that hold them (R271). -/
def requestAnchor (s : State) (j : Nat) (site : BitVec 16) (n : Nat) : State :=
  ((s.job j).dxe.partners.filter (fun p => decide (p.2.1 = site))).foldl (fun s p => sendRequest s j p.2.2 2 n p.1.toNat 1)
    (s.modDxe j (fun x => { x with gotShards := [], gotRound := n }))

/-- A re-fetch begins: of the base A_r of a waiting manifest or of the damaged live anchor, or of the anchor A_(r+1) that round
r gives (R266, R271, R273, R280). -/
def startRefetch (s : State) (j : Nat) (site : BitVec 16) (base : Bool) (r : Nat) : State :=
  requestAnchor ((s.modDxe j (fun x => { x with refetch := some (site, base) })).count DXE_STATUS_refetches 1 j) j site (if base then r else r + 1)

/-- Received blocks that stood in damaged lines are lost and asked for again. -/
def loseReceived (s : State) (j : Nat) (ls : List Nat) : State :=
  let gone := ls.flatMap (s.areaAt j 6)
  let lost := ((s.job j).dxe.store.zipIdx).filter (fun p => gone.contains p.2)
  let s := s.modDxe j (fun x => { x with
    store := ((x.store.zipIdx).filter (fun p => !gone.contains p.2)).map (·.1),
    accepted := x.accepted.filter (fun a => !lost.any (fun p => decide (a = (siteOf p.1.1, blockIdent p.1.2)))) })
  freeTables (lost.foldl (fun s p => askBlocks s j p.1.1 [blockIdent p.1.2]) s) j

/-- Next copies of A or M that stood in damaged lines do not stand any longer. -/
def loseNext (s : State) (j : Nat) (ls : List Nat) : State :=
  let bad := (ls.flatMap (fun l => s.areaAt j 1 l ++ s.areaAt j 3 l)).map (fun e => (((s.job j).dxe.shards[e / (s.job j).dxe.shardElems]?).map (·.1)).getD 0)
  if bad.isEmpty then s
  else s.modDxe j (fun x => x.modRound x.target (fun y => { y with
    copies := y.copies.filter (fun sh => !bad.contains sh), ownDigest := none, stage := if y.stage = .ready then .sealed else y.stage }))

/-- The damaged lines of the round state that the engine meets (R280): received blocks are lost and a gap again; what a peer
group holds waits for its copy; without one, lost residual becomes +0, A and M are fetched again, next copies are made again,
and an own block is asked for from a partner of its shard. -/
def mendRound (s : State) (j : Nat) : State :=
  let ls := s.areaUe j
  if ls.isEmpty then s
  else
    let held := ls.filter (fun l => !s.areaFree j [0, 1, 2, 3, 4, 5] l)
    let s := (loseReceived (s.count MEM_ECC_COUNT_uncorrectable ls.length) j ls).healed (ls.filter (fun l => !held.contains l))
    if held.isEmpty ∨ !(s.otherGroups j).isEmpty then s
    else
      let own := (s.job j).dxe.own.flatMap (·.2)
      let ask := ((held.flatMap (s.areaAt j 5)).filterMap (fun i => own[i]?))
      let live := held.filter (fun l => !s.areaFree j [0, 2] l)
      let s := (loseNext (loseResidual s j held) j held).healed (held.filter (s.areaFree j [0, 2]))
      let s := ask.foldl (fun s b =>
        match (s.job j).dxe.partners.find? (fun p => decide (p.1 = b.shard)) with
        | some p => nackBlocks s j p.2.2 1 0 [blockIdent b]
        | none => s) s
      let x := (s.job j).dxe
      let s := if live.isEmpty ∨ x.refetch.isSome then s else startRefetch s j x.anchorIssuer true x.installed
      match x.round x.target with
      | some y => match y.sealedDigest, y.manifest with
        | some _, some m => if held.all (s.areaFree j [1, 3]) ∨ (s.job j).dxe.refetch.isSome then s else startRefetch s j m.issuer false x.target
        | _, _ => s
      | none => s

/-! ## The close (R257, R284 to R287) -/

/-- What the close of one shard gives: its blocks, the new residual, flushes, and whether a delta was not
finite. -/
structure Closing where
  blocks : List Block
  resid : List (Nat × Nat)
  flushes : Nat
  bad : Bool

/-- Close the groups of a shard. -/
def closeShard (s : State) (j r k : Nat) (sh : BitVec 32 × Nat × Nat) : Closing :=
  let x := (s.job j).dxe
  let fp4 := decide (s.fld DXE_CTRL_vfmt j = 1)
  let base := (s.shardRegion j sh).live
  let own := x.own.map (fun c => ownValues c.2 sh.1)
  let v (i : Nat) : Nat :=
    let d := sub32 (s.word32 (weightAt base sh i)) (look x.anchor (k * x.shardElems + i) 0).toNat
    add32 (own.foldl (fun d c => sub32 d (look c i 0).toNat) d) (look x.resid (k * x.shardElems + i) 0).toNat
  let group (g : Nat) : List Nat := (List.range 256).map (fun i => v (256 * g + i))
  let gs := (List.range (x.shardElems / 256)).map group
  let q := gs.map (quantise fp4 (s.fld DXE_CTRL_topk j))
  { blocks := packBlocks fp4 sh.1 r 0 0 [] (q.map (·.1)),
    resid := ((gs.zip q).zipIdx).flatMap (fun p =>
      (p.1.1.zipIdx).map (fun e =>
        let hat := match p.1.2.1.elems.find? (fun y => decide (y.1 = e.2)) with
          | some y => keptValue fp4 p.1.2.1.scale y.2
          | none => 0
        (k * x.shardElems + 256 * p.2 + e.2, sub32 e.1 hat))),
    flushes := (q.map (·.2)).sum, bad := gs.any (fun g => g.any (fun c => !(fp32 c).isFin)) }

/-- Every lead tile of the job has issued DCLOSE for the round with its context 2 (R127). -/
def State.allClosed (s : State) (j : Nat) : Bool :=
  let ls := (s.job j).tiles.filter s.isLead
  ls.all (fun t => (s.job j).att.dcloses.contains t)

/-- ROUND_CLOSE: the DXE forms, selects and quantises the delta, updates the residual and keeps the coded
blocks (R257). An uncorrectable line of a live weight aborts the attempt, damaged round state is mended, and the close
waits meanwhile (R280); a delta that is not finite is a job fault (R286). -/
def execRoundClose (j : Fin 4) (s : State) : Res :=
  s.whenRuns <|
  if s.halted blkDxe then .next s else
  let x := s.job j
  match s.closable j with
  | none => .next s
  | some r =>
    if !x.running ∨ !x.dxe.active ∨ x.dxe.liveReading ∨ x.dxe.closed = some r ∨ !s.allClosed j then .next s
    else
      let bad := x.dxe.shards.flatMap (fun sh =>
        s.ueIn (weightAt (s.shardRegion j sh).live sh 0) (4 * x.dxe.shardElems))
      if !bad.isEmpty then .next (memUe s j bad.eraseDups)
      else
        let s := mendRound s j
        if !(s.areaUe j).isEmpty then .next s else
        let cs := (x.dxe.shards.zipIdx).map (fun p => closeShard s j r p.2 p.1)
        if cs.any (·.bad) then .next (jobFault s j 0x105)
        else
          let blocks := cs.flatMap (·.blocks)
          let before := s
          let groups := if x.att.started then x.groups else x.dxe.closeGroups
          let s := s.modDxe j (fun d => { d with
            resid := (cs.flatMap (·.resid)).foldl (fun m e => store m e.1 (BitVec.ofNat 32 e.2) 0) d.resid,
            own := d.own ++ [(r, blocks)], closed := some r, liveReading := true, closeGroups := groups })
          let s := s.modDxe j (fun d => d.modRound r (fun y => y.atLeast .sending))
          let s := s.count DXE_STATUS_flushes ((cs.map (·.flushes)).sum) j
          .next (syncArea (queueBlocks (dutyChange before s j) j blocks) j)

end Sys2Proof.Machine
end

