-- ==== Sys2Proof/Machine/DxeRounds.lean ====
section
/-! DEFINITION. The course of a round at a site: digests, signed messages, receipts, manifests, acceptance, sealing, takeover and
its times (R259 to R269). -/
namespace Sys2Proof.Machine

/-! ## Digests (R264) -/

/-- The digest of a shard's FP32 values in element order. -/
def shardDigest (vs : List (BitVec 32)) : BitVec 256 := Config.shake256 (wordBytes vs) 256

/-- The values of a held shard in a table of elements. -/
def Dxe.shardValues (x : Dxe) (m : Sparse (BitVec 32)) (k : Nat) : List (BitVec 32) :=
  (List.range x.shardElems).map (fun i => look m (k * x.shardElems + i) 0)

/-- The shard digests of shards in order, back to back; none while one is missing. -/
def digestString (one : Nat → Option (BitVec 256)) (n : Nat) : Option Bytes :=
  (List.range n).foldr (fun k l => match one k, l with
    | some d, some l => some (toLE 32 d.toNat ++ l)
    | _, _ => none) (some [])

/-- The site's anchor digest: of held shards from a table of elements, of the others from the shard digests that other devices
of the site have verified; none while one is missing. -/
def siteDigest (s : State) (j : Nat) (m : Sparse (BitVec 32)) (others : List (BitVec 32 × BitVec 256)) : Option (BitVec 256) :=
  let x := (s.job j).dxe
  let one (k : Nat) : Option (BitVec 256) :=
    let n := BitVec.ofNat 32 k
    match x.shardIndex n with
    | some i => some (shardDigest (x.shardValues m i))
    | none => (others.find? (fun o => decide (o.1 = n))).map (·.2)
  (digestString one (2 ^ s.fld DXE_CTRL_fed_shards j)).map (fun b => Config.shake256 b 256)

/-- The digest of the anchor A_r: that of the live anchor, or the sealed digest of the round before. -/
def baseDigest (s : State) (j r : Nat) : Option (BitVec 256) :=
  let x := (s.job j).dxe
  if r = x.installed then some x.liveDigest else (x.bundles.find? (fun b => decide (b.1 + 1 = r))).map (·.2.2)

/-! ## Messages and signatures (Tables DXR-3 to DXR-5, R265, R308, R319) -/

/-- This device's signature of a MANIFEST-class message. -/
def State.signature (s : State) (msg : Bytes) : BitVec 912 := Config.ed448Sign ctxManifest s.plat.idKey msg

/-- The identity key of the device a message came from (R324). -/
def State.peerKey (s : State) (src : BitVec 32) : Option (BitVec 456) :=
  (s.sec.assocs.find? (fun a => decide (a.peer = src) && (decide (a.kind = 2) || decide (a.kind = 3)))).map (·.pubkey)

/-- A signature of a MANIFEST-class message verifies under its source's key; this device's own is the one it makes. -/
def State.signedBy (s : State) (src : BitVec 32) (msg : Bytes) (sig : BitVec 912) : Bool :=
  if src.toNat = s.origin then decide (sig = s.signature msg)
  else match s.peerKey src with
    | some k => Config.ed448Verify ctxManifest k msg sig
    | none => false

/-- A message of a site verifies under the key of a lead of that site. A device that is not lead has no association with the
leads: it takes its own lead's word (DESIGN CHOICE, log entry 19). -/
def State.siteSigned (s : State) (j : Nat) (site : BitVec 16) (msg : Bytes) (sig : BitVec 912) : Bool :=
  if !s.isLeadDevice j then true
  else if site = s.site then decide (sig = s.signature msg)
  else s.sec.assocs.any (fun a => decide (a.kind = 3) && decide (siteOf a.peer = site) && Config.ed448Verify ctxManifest a.pubkey msg sig)

/-- A MANIFEST-class message leaves for the leads of some sites, in fragments of at most 9,094 bytes that wait for their
acknowledgement (R265, R308). -/
def publish (s : State) (j : Nat) (bytes : Bytes) (to' : BitVec 16 → Bool) : State :=
  let parts := (pieces 9094 (bytes.length + 1) bytes).zipIdx
  let msg := BitVec.ofNat 64 s.host.msgNext
  let dests := ((s.sec.assocs.filter (fun a => decide (a.kind = 3) && s.ofJob j a && to' (siteOf a.peer))).map (·.peer)).eraseDups
  let s := s.modHost (fun h => { h with
    msgNext := h.msgNext + 1,
    frags := h.frags ++ dests.map (fun p =>
      { peer := p, msg := msg, outbound := true, waiting := parts.map (·.2), count := parts.length, parts := parts.map (fun q => (q.2, q.1)) }) })
  dests.foldl (fun s p =>
    parts.foldl (fun s q => s.sendFor j (.fragment p msg q.2 parts.length q.1)) s) s

/-- To every member. -/
def toAll (_ : BitVec 16) : Bool := true

/-! ## Members, beacons and majorities (R261, R264, R267) -/

/-- A strict majority of n. -/
def majority (k n : Nat) : Bool := decide (n < 2 * k)

/-- The distinct sites of a list. -/
def distinct (l : List (BitVec 16)) : Nat := l.eraseDups.length

/-- The beacon of a round (R261). -/
def Dxe.beacon (x : Dxe) (r : Nat) : BitVec 16 :=
  match x.bundles.find? (fun b => decide (b.1 + 1 = r)) with
  | some b => b.2.1.nextBeacon
  | none => nextSite x.members 0xFFFF

/-- The beacon of a round is known (R261). -/
def Dxe.beaconKnown (x : Dxe) (r : Nat) : Bool := decide (r ≤ x.sealedNext)

/-- The members from one to another in ascending cyclic order. -/
def Dxe.chain (x : Dxe) (last : BitVec 16) : Nat → BitVec 16 → List (BitVec 16)
  | 0, _ => []
  | n + 1, v => if v = last then [v] else v :: x.chain last n (nextSite x.members v)

/-- The issuers passed over up to one of them: the beacon first. -/
def Dxe.passedTo (x : Dxe) (r : Nat) (last : BitVec 16) : List (BitVec 16) := x.chain last x.members.length (x.beacon r)

/-- The members' declarations against an issuer. -/
def Dxe.against (x : Dxe) (y : Round) (gone : BitVec 16) : List ReceiptBody :=
  y.absents.filter (fun q => decide (q.absentIssuer = gone) && x.members.contains q.site)

/-- The issuers that this site has declared absent, or that a strict majority has (R267). -/
def Dxe.gone (x : Dxe) (y : Round) : List (BitVec 16) :=
  ((y.absents.map (·.absentIssuer)).filter (fun v => majority (distinct ((x.against y v).map (·.site))) x.members.length)).foldl (fun l v =>
    let c := x.passedTo y.number v
    if l.length < c.length then c else l) y.declared

/-- The site whose manifest is awaited: the beacon, or the successor of the issuers passed over. -/
def Dxe.issuer (x : Dxe) (y : Round) : BitVec 16 :=
  match (x.gone y).getLast? with
  | some v => nextSite x.members v
  | none => x.beacon y.number

/-! ## Receipts (R259, R260) -/

/-- The contributions of rounds r − S_max to r that are complete on this device, its own site's among them. -/
def completeHere (s : State) (j r : Nat) : List (BitVec 16 × BitVec 64) :=
  let x := (s.job j).dxe
  let rounds := (List.range (s.sMax j + 1)).filterMap (fun a => if s.sMax j - a ≤ r then some (r - (s.sMax j - a)) else none)
  rounds.flatMap (fun q =>
    (x.members.filter (fun v => if v = s.site then x.own.any (fun c => decide (c.1 = q)) else x.complete (s.exchanged j) v q)).map (fun v =>
      (v, BitVec.ofNat 64 q)))

/-- What the RECEIPT of a round lists: what was complete here at the cut-off and, of other sites, on every other exchange device
of the site at its own, and is not settled (R259, R260, DESIGN CHOICE, log entry 19). -/
def receiptEntries (s : State) (j r : Nat) : List (BitVec 16 × BitVec 64) :=
  let x := (s.job j).dxe
  let l := match ((x.round r).map (·.reports)).getD [] with
    | [] => completeHere s j r
    | own :: others => own.filter (fun e => decide (e.1 = s.site) || others.all (fun o => o.contains e))
  l.filter (fun e => !x.settledAt (s.sMax j) e.1 e.2.toNat)

/-- The site's own receipt of a round, signed. -/
def ownReceipt (s : State) (j r : Nat) (absent : BitVec 16) : ReceiptBody :=
  let b : ReceiptBody :=
    { site := s.site, fedJob := (s.job j).fedJob, round := BitVec.ofNat 64 r, absentIssuer := absent, entries := receiptEntries s j r,
      sig := 0 }
  { b with sig := s.signature (receiptBytes b) }

/-- The receipts of a round with one per site. -/
def addReceipt (r : ReceiptBody) (l : List ReceiptBody) : List ReceiptBody := l.filter (fun q => q.site ≠ r.site) ++ [r]

/-! ## Manifests (R262, R263, R267, R269, R281) -/

/-- Order of contributions in a manifest. -/
def insertContrib (c : Contribution) : List Contribution → List Contribution
  | [] => [c]
  | x :: r =>
    if c.round.toNat < x.round.toNat ∨ (c.round = x.round ∧ c.site.toNat < x.site.toNat) then c :: x :: r else x :: insertContrib c r

/-- A manifest of round r from the receipts held (R262, R267, R281). -/
def buildManifest (s : State) (j : Nat) (y : Round) (rs : List ReceiptBody) (takeover : Bool) : ManifestBody :=
  let x := (s.job j).dxe
  let came := rs.map (·.site)
  let out (v : BitVec 16) : Bool := decide (s.fld DXE_STALE_CFG_drop_rounds j ≤ ((assoc (x.absentRuns.map (fun p => (p.1.toNat, p.2))) v.toNat).getD 0))
  let status (v : BitVec 16) : BitVec 8 := if out v then 3 else if came.contains v then 0 else 1
  let present := x.members.filter (fun v => decide (status v = 0))
  let listed := match rs.filter (fun q => present.contains q.site) with
    | [] => []
    | a :: r => a.entries.filter (fun e => r.all (fun b => b.entries.contains e))
  let cs := listed.foldl (fun l e =>
    let age := y.number - e.2.toNat
    insertContrib { site := e.1, age := BitVec.ofNat 8 age, round := e.2, weight := BitVec.ofNat 32 (s.weight j age) } l) []
  let m : ManifestBody :=
    { takeover := takeover, issuer := s.site, fedJob := (s.job j).fedJob, round := BitVec.ofNat 64 y.number,
      nextDeadline := BitVec.ofNat 64 (s.deadline j (y.number + 1)), nextBeacon := nextSite present s.site,
      eta := BitVec.ofNat 32 (s.fld DXE_CTRL_eta j), mu := BitVec.ofNat 32 (s.fld DXE_CTRL_mu j),
      baseDigest := (baseDigest s j y.number).getD 0,
      prevSeal := ((x.bundles.find? (fun b => decide (b.1 + 1 = y.number))).map (fun b => manifestDigest b.2.1)).getD 0,
      members := (x.members.map (fun v => (v, status v))) ++ (y.joins.filter (fun v => !x.members.contains v)).map (fun v => (v, 2)),
      contribs := cs, absents := if takeover then rs else [], sig := 0 }
  { m with sig := s.signature (manifestBytes m) }

/-- Contributions of this site that a manifest settles: by inclusion, or dropped at age S_max; a round
skipped counts as dropped (R269, R272, R273). -/
def ownIncluded (s : State) (m : ManifestBody) (q : Nat) : Bool :=
  m.contribs.any (fun c => decide (c.site = s.site) && decide (c.round.toNat = q))

def ownSettled (s : State) (j : Nat) (m : ManifestBody) (q : Nat) : Bool :=
  ownIncluded s m q || decide (q + s.sMax j ≤ m.round.toNat) || ((s.job j).dxe.skipTo.isSome && decide (q ≤ m.round.toNat))

/-! ## Acceptance (R266, R267) -/

/-- A takeover manifest carries declarations of a strict majority against the issuer before it. -/
def takeoverOk (s : State) (j : Nat) (m : ManifestBody) : Bool :=
  let x := (s.job j).dxe
  match m.absents with
  | [] => false
  | a :: _ =>
    decide (m.issuer = nextSite x.members a.absentIssuer) &&
      m.absents.all (fun r => decide (r.absentIssuer = a.absentIssuer) && decide (r.round = m.round) && x.members.contains r.site &&
        s.siteSigned j r.site (receiptBytes r) r.sig) &&
      majority (distinct (m.absents.map (·.site))) x.members.length

/-- The issuer of a manifest is the beacon or a takeover issuer, and has not been declared absent here. -/
def issuerOk (s : State) (j : Nat) (m : ManifestBody) : Bool :=
  let x := (s.job j).dxe
  let declared := ((x.round m.round.toNat).map (·.declared)).getD []
  !declared.contains m.issuer && (if m.takeover then takeoverOk s j m else decide (m.issuer = x.beacon m.round.toNat))

/-- The included contributions of other sites of which this device lacks blocks for the shards it exchanges (R266). -/
def missingOf (s : State) (j : Nat) (m : ManifestBody) : List (BitVec 16 × Nat) :=
  (m.contribs.filter (fun c => decide (c.site ≠ s.site) && !(s.job j).dxe.complete (s.exchanged j) c.site c.round.toNat)).map (fun c =>
    (c.site, c.round.toNat))

/-- The manifest is accepted: the round is COMPUTING, the issuers that a takeover passes over count as absent, and the blocks it
includes that are not held are asked for (Table DXR-2, R266, R267). -/
def acceptManifest (s : State) (j : Nat) (m : ManifestBody) : State :=
  let x := (s.job j).dxe
  let passed := match m.absents.head? with
    | some a => x.passedTo m.round.toNat a.absentIssuer
    | none => []
  let s := s.modDxe j (fun x => x.modRound m.round.toNat (fun y => { y with
    manifest := some m, acceptedAt := s.clock.siteTime, waiting := none, stage := .computing, copies := [], digests := [], ownDigest := none,
    declared := if y.declared.length < passed.length then passed else y.declared }))
  (missingOf s j m).foldl (fun s c => askContribution s j (s.exchanged j) c.1 c.2) s

/-- Countersignatures have come for a round whose manifest has not. -/
def Dxe.behind (x : Dxe) : Bool :=
  x.rounds.any (fun y => decide (x.sealedNext ≤ y.number) && !y.signs.isEmpty && y.manifest.isNone && y.waiting.isNone)

/-- A site that has missed rounds asks a site that has not for the sealed bundle of its lowest unsealed round (R273, DESIGN
CHOICE, DESIGN CHOICE, log entry 133). -/
def askBundle (s : State) (j : Nat) (site : BitVec 16) : State :=
  match (s.job j).dxe.partners.find? (fun p => decide (p.2.1 = site)) with
  | some p => sendRequest s j p.2.2 1 (s.job j).dxe.sealedNext 0 0
  | none => s

/-- A manifest arrives whose signature and job have been checked (R266): it is accepted, waits for its base,
or is not; one of a later round shows that sealed rounds were missed. One that stands already, or a second of the beacon, changes nothing. -/
def takeManifest (s : State) (j : Nat) (m : ManifestBody) : State :=
  let x := (s.job j).dxe
  let r := m.round.toNat
  let prev := ((x.bundles.find? (fun b => decide (b.1 + 1 = r))).map (fun b => manifestDigest b.2.1)).getD 0
  let stands := (x.round r).any (fun y => (y.manifest.orElse (fun _ => y.waiting)).any (fun n => decide (n.issuer = m.issuer)))
  if x.sealedNext < r then askBundle s j m.issuer
  else if r ≠ x.sealedNext ∨ stands ∨ !issuerOk s j m ∨ m.prevSeal ≠ prev then s
  else if baseDigest s j r ≠ some m.baseDigest then
    startRefetch (s.modDxe j (fun x => x.modRound r (fun y => { y with waiting := some m }))) j m.issuer true r
  else acceptManifest s j m

/-- Issue a manifest (R262, R267): it goes to every member and is accepted here. -/
def issueManifest (s : State) (j : Nat) (y : Round) (rs : List ReceiptBody) (takeover : Bool) : State :=
  let m := buildManifest s j y rs takeover
  acceptManifest (publish s j (signedMessage (manifestBytes m) m.sig) toAll) j m

/-- The beacon issues once it holds a receipt of every member, or at its deadline (R262). -/
def tryIssue (s : State) (j r : Nat) (atDeadline : Bool) : State :=
  let x := (s.job j).dxe
  match x.round r with
  | none => s
  | some y =>
    if !s.isLeadDevice j ∨ x.beacon r ≠ s.site ∨ y.manifest.isSome ∨ r ≠ x.sealedNext ∨ y.declared.contains s.site then s
    else if x.members.all (fun v => y.receipts.any (fun q => q.site = v)) then issueManifest s j y y.receipts false
    else if atDeadline then
      issueManifest s j y (if y.receipts.any (fun q => q.site = s.site) then y.receipts else addReceipt (ownReceipt s j r 0xFFFF) y.receipts) false
    else s

/-- The takeover issuer issues once it holds absent declarations of a strict majority, its own included
(R267). -/
def tryTakeover (s : State) (j r : Nat) : State :=
  let x := (s.job j).dxe
  match x.round r with
  | none => s
  | some y =>
    match y.declared.getLast? with
    | none => s
    | some gone =>
      let decl := x.against y gone
      if s.isLeadDevice j ∧ r = x.sealedNext ∧ nextSite x.members gone = s.site ∧
          !(y.manifest.any (fun m => decide (m.issuer = s.site))) ∧ majority (distinct (decl.map (·.site))) x.members.length then
        issueManifest s j y decl true
      else s

/-! ## Sealing (R260, R264, R266, R269, R271) -/

/-- Once its cut-off has passed and the beacon is known, the site lead sends its RECEIPT to the beacon, or keeps it when it is
the beacon itself (R260, R261). -/
def tryReceipt (s : State) (j r : Nat) : State :=
  let x := (s.job j).dxe
  match x.round r with
  | none => s
  | some y =>
    if !s.isLeadDevice j ∨ !y.cut ∨ y.receiptSent ∨ !x.beaconKnown r ∨ r < x.sealedNext then s
    else
      let b := ownReceipt s j r 0xFFFF
      let s := s.modDxe j (fun x => x.modRound r (fun y => { (y.atLeast .receipted) with receiptSent := true, receipts := addReceipt b y.receipts }))
      if x.beacon r = s.site then tryIssue s j r false
      else publish s j (signedMessage (receiptBytes b) b.sig) (fun v => decide (v = x.beacon r))

/-- The stage that follows once a round is sealed and the own digest known (Table DXR-2). -/
def settleStage (s : State) (j r : Nat) : State :=
  match (s.job j).dxe.round r with
  | none => s
  | some y =>
    match y.sealedDigest, y.ownDigest, y.manifest with
    | some d, some o, some m =>
      if o = d then s.modDxe j (fun x => x.modRound r (fun y => { y with stage := .ready }))
      else if (s.job j).dxe.refetch.isSome then s
      else startRefetch s j m.issuer false r
    | _, _, _ => s

/-- A manifest is sealed: the bundle is kept, contributions are settled, the store and the membership follow
(R264, R269, R279, R281). The next round's RECEIPT may leave, and its beacon may issue (R260, R262). -/
def sealRound (s : State) (j : Nat) (y : Round) (m : ManifestBody) (digest : BitVec 256) : State :=
  let r := y.number
  let old := s.sMax j
  let signs := y.signs.filter (fun c => decide (c.manifestDigest = manifestDigest m) && decide (c.anchorDigest = digest))
  let s := s.modDxe j (fun x =>
    let inc := m.contribs.map (fun c => (c.site, c.round.toNat))
    { (x.modRound r (fun y => { y with manifest := some m, waiting := none, sealedDigest := some digest, stage := if y.stage.code < 5 then .sealed else y.stage })) with
      bundles := (x.bundles ++ [(r, m, digest)]).drop (x.bundles.length + 1 - 16), bundleSigns := (x.bundleSigns ++ [(r, signs)]).drop (x.bundleSigns.length + 1 - 16),
      settled := x.settled ++ inc, sealedNext := r + 1,
      members := (m.members.filter (fun e => e.2 ≠ 3)).map (·.1),
      absentRuns := m.members.map (fun e => (e.1, if e.2 = 1 then ((x.absentRuns.find? (fun p => p.1 = e.1)).map (·.2)).getD 0 + 1 else 0)) })
  let s := s.modDxe j (fun x =>
    let inc := m.contribs.map (fun c => (c.site, c.round.toNat))
    { x with store := x.store.filter (fun p =>
        let id := (siteOf p.1, p.2.round.toNat)
        inc.contains id || (!x.settled.contains id && decide (r < id.2 + old)) || x.needs id.1 id.2) })
  let s := match y.waiting with
    | some w => if w = m ∧ (s.job j).dxe.installed = r then startRefetch s j m.issuer false r else s
    | none => s
  let s := freeTables (settleStage s j r) j
  tryIssue (tryReceipt (s.modDxe j (fun x => x.modRound (r + 1) id)) j (r + 1)) j (r + 1) false

/-- A round is sealed once countersignatures of a strict majority of the members name its manifest and one
anchor digest (R264). A manifest that waits for its base may be sealed as well. -/
def trySealRound (s : State) (j : Nat) : State :=
  let x := (s.job j).dxe
  match x.round x.sealedNext with
  | none => s
  | some y =>
    match y.manifest.orElse (fun _ => y.waiting) with
    | none => s
    | some m =>
      let good := y.signs.filter (fun c => decide (c.manifestDigest = manifestDigest m) && x.members.contains c.site)
      match (good.map (·.anchorDigest)).find? (fun d =>
          majority (distinct ((good.filter (fun c => decide (c.anchorDigest = d))).map (·.site))) x.members.length) with
      | some d => syncArea (sealRound s j y m d) j
      | none => s

/-! ## Messages taken -/

/-- A receipt or an absent declaration, its signature and job checked (R262, R267). -/
def takeReceipt (s : State) (j : Nat) (b : ReceiptBody) : State :=
  let r := b.round.toNat
  let x := (s.job j).dxe
  if r < x.sealedNext ∨ (r = x.sealedNext ∧ !x.members.contains b.site) then s
  else if b.absentIssuer = 0xFFFF then
    tryIssue (s.modDxe j (fun x => x.modRound r (fun y => { y with receipts := addReceipt b y.receipts }))) j r false
  else
    tryTakeover (s.modDxe j (fun x => x.modRound r (fun y => { y with
      absents := y.absents.filter (fun q => !(decide (q.site = b.site) && decide (q.absentIssuer = b.absentIssuer))) ++ [b] }))) j r

/-- A countersignature counts toward the majority of its round, one per site (R264). -/
def takeCountersign (s : State) (j : Nat) (c : CountersignBody) : State :=
  let r := c.round.toNat
  if r < (s.job j).dxe.sealedNext then s
  else
    let s := s.modDxe j (fun x => x.modRound r (fun y => { y with signs := y.signs.filter (fun q => decide (q.site ≠ c.site)) ++ [c] }))
    settleStage (trySealRound s j) j r

/-- A late site is to be listed as joining in the next manifest (R281). -/
def takeJoin (s : State) (j : Nat) (site : BitVec 16) : State :=
  let x := (s.job j).dxe
  let r := if (x.round x.sealedNext).any (·.manifest.isSome) then x.sealedNext + 1 else x.sealedNext
  s.modDxe j (fun x => x.modRound r (fun y => { y with joins := y.joins.filter (· ≠ site) ++ [site] }))

/-! ## Times of a round (R259, R260, R262, R267, R268) -/

/-- Site time has reached the deadline of a round and a number of graces more. -/
def State.past (s : State) (j r graces : Nat) : Bool := decide (s.deadline j r + graces * (s.job j).dxe.grace ≤ s.clock.siteTime)

/-- CUTOFF: the device has reached D_r + G. What it holds complete is settled for its RECEIPT: the site lead has the reports of the
site's other exchange devices with it and sends the RECEIPT, any other device reports to the lead (R259, R260). -/
def execCutoff (j : Fin 4) (round : BitVec 64) (s : State) (reports : List (List (BitVec 16 × BitVec 64)) := []) : Res :=
  s.whenRuns <|
  let x := s.job j
  let r := round.toNat
  if !x.running ∨ !x.dxe.active ∨ r < x.dxe.sealedNext ∨ !s.past j r 1 ∨ ((x.dxe.round r).map (·.cut)).getD false then .next s
  else
    let own := completeHere s j r
    let s := s.modDxe j (fun x => x.modRound r (fun y => { y with cut := true, reports := own :: reports }))
    .next (if s.isLeadDevice j then tryReceipt s j r else s.emit (.complete j r own))

/-- MANIFEST_DEADLINE: at D_r + 2G the beacon issues with the receipts it holds (R262). -/
def execManifestDeadline (j : Fin 4) (s : State) : Res :=
  s.whenRuns <|
  let x := s.job j
  let r := x.dxe.sealedNext
  if s.svc.paused then .next (holdBack s (.manifestDeadline j))
  else if x.running ∧ x.dxe.active ∧ s.past j r 2 then .next (tryIssue (s.modDxe j (fun x => x.modRound r id)) j r true)
  else .next s

/-- Declare the awaited issuer of the lowest unsealed round absent to every member (R267). -/
def declareAbsent (s : State) (j : Nat) : State :=
  let r := (s.job j).dxe.sealedNext
  let s := s.modDxe j (fun x => x.modRound r id)
  match (s.job j).dxe.round r with
  | none => s
  | some y =>
    let gone := (s.job j).dxe.issuer y
    let b := ownReceipt s j r gone
    let s := s.modDxe j (fun x => x.modRound r (fun y => { y with declared := x.passedTo r gone, absents := y.absents ++ [b] }))
    tryTakeover (publish s j (signedMessage (receiptBytes b) b.sig) toAll) j r

/-- BEACON_ABSENT: no acceptable manifest by D_r + 3G, and none countersigned (R267). -/
def execBeaconAbsent (j : Fin 4) (s : State) : Res :=
  s.whenRuns <|
  let x := s.job j
  let r := x.dxe.sealedNext
  let y := (x.dxe.round r).getD (Round.fresh r)
  if x.running ∧ x.dxe.active ∧ s.isLeadDevice j ∧ s.past j r 3 ∧ !y.signed ∧ y.declared.isEmpty ∧ y.manifest.isNone ∧ y.waiting.isNone then
    .next (declareAbsent s j)
  else .next s

/-- The issue time of the awaited takeover manifest: as it was accepted here or, when none has come, the first instant at which
its issuer could issue it (DESIGN CHOICE, log entry 132). -/
def State.takeoverIssued (s : State) (j : Nat) (y : Round) : Nat :=
  let x := (s.job j).dxe
  match y.manifest with
  | some m => if m.issuer = x.issuer y then y.acceptedAt else s.deadline j y.number + 3 * (x.gone y).length * x.grace
  | none => s.deadline j y.number + 3 * (x.gone y).length * x.grace

/-- TAKEOVER_TIMEOUT: a takeover manifest has not sealed by its issue time plus 3G: its issuer is declared absent in turn (R267). -/
def execTakeoverTimeout (j : Fin 4) (s : State) : Res :=
  s.whenRuns <|
  let x := s.job j
  match x.dxe.round x.dxe.sealedNext with
  | none => .next s
  | some y =>
    if x.running ∧ x.dxe.active ∧ s.isLeadDevice j ∧ !(x.dxe.gone y).isEmpty ∧
        s.takeoverIssued j y + 3 * x.dxe.grace ≤ s.clock.siteTime then .next (declareAbsent s j)
    else .next s

/-- ANCHOR_DIGEST_TIMEOUT: by issue time plus 3G a strict majority of the members has countersigned one manifest, but among them
no anchor digest has a strict majority: a job fault (R268). -/
def execAnchorDigestTimeout (j : Fin 4) (s : State) : Res :=
  s.whenRuns <|
  let x := (s.job j).dxe
  match x.round x.sealedNext with
  | none => .next s
  | some y =>
    let signs := y.signs.filter (fun c => x.members.contains c.site)
    let split := signs.any (fun c =>
      let one := signs.filter (fun d => decide (d.manifestDigest = c.manifestDigest))
      majority one.length x.members.length &&
        one.all (fun d => !majority (one.filter (fun e => decide (e.anchorDigest = d.anchorDigest))).length one.length))
    let issued := if y.manifest.isSome then y.acceptedAt else s.deadline j y.number
    if (s.job j).running ∧ x.active ∧ split ∧ issued + 3 * x.grace ≤ s.clock.siteTime then .next (jobFault s j 0x104) else .next s

/-- STALL_LIMIT: rounds without a seal exceed stall_limit: the host is told (R267, R317). -/
def execStallLimit (j : Fin 4) (s : State) : Res :=
  s.whenRuns <|
  let x := s.job j
  let n := s.roundNow j - x.dxe.sealedNext
  if x.running ∧ x.dxe.active ∧ s.fld DXE_STALE_CFG_stall_limit j < n then .next (s.notify 5 j n) else .next s

end Sys2Proof.Machine
end

