-- ==== Sys2Proof/Machine/DxeInstall.lean ====
section
/-! DEFINITION. The outer update, re-fetch, late joining, installation, and the start of a federated job (R258, R264, R266, R270 to
R273, R280 to R283). -/
namespace Sys2Proof.Machine

/-! ## The outer update (R270) -/

/-- The next copies of a shard: momentum and anchor. -/
def outerUpdate (s : State) (j k : Nat) (shard : BitVec 32) (m : ManifestBody) : List (BitVec 32 × BitVec 32) :=
  let x := (s.job j).dxe
  let cs := m.contribs.map (fun c =>
    (c.weight.toNat, contribValues (x.contribution s.site c.site c.round.toNat) shard))
  let n := m.contribs.length
  let rn := ratio32 1 n
  (List.range x.shardElems).map (fun i =>
    let e := k * x.shardElems + i
    let a := (look x.anchor e 0).toNat
    let mo := (look x.mom e 0).toNat
    if n = 0 then (BitVec.ofNat 32 mo, BitVec.ofNat 32 a)
    else
      let d := cs.foldl (fun d c => fma32 c.1 (look c.2 i 0).toNat d) 0
      let d := mul32 rn d
      let mn := fma32 m.mu.toNat mo d
      (BitVec.ofNat 32 mn, BitVec.ofNat 32 (fma32 m.eta.toNat (fma32 m.mu.toNat mn d) a)))

/-- Write a shard's next copies. -/
def putNext (s : State) (j k : Nat) (vs : List (BitVec 32 × BitVec 32)) : State :=
  s.modDxe j (fun x =>
    (vs.zipIdx).foldl (fun x p =>
      let e := k * x.shardElems + p.2
      { x with momNext := store x.momNext e p.1.1 0, anchorNext := store x.anchorNext e p.1.2 0 }) x)

/-- Once every held shard's next copies stand and the shard digests of the others are known, so is the site's digest, and the
lead countersigns, unless it has declared the issuer absent (R264, R267). -/
def finishCopies (s : State) (j r : Nat) : State :=
  let x := (s.job j).dxe
  match x.round r with
  | none => s
  | some y =>
    if y.ownDigest.isSome ∨ !(x.shards.all (fun sh => y.copies.contains sh.1)) then s
    else match y.manifest, siteDigest s j x.anchorNext y.digests with
      | some m, some d =>
        let s := s.modDxe j (fun x => x.modRound r (fun y => { y with ownDigest := some d }))
        if s.isLeadDevice j ∧ !y.declared.contains m.issuer then
          let c : CountersignBody :=
            { site := s.site, fedJob := (s.job j).fedJob, round := BitVec.ofNat 64 r, manifestDigest := manifestDigest m, anchorDigest := d,
              sig := 0 }
          let c := { c with sig := s.signature (countersignBytes c) }
          let s := s.modDxe j (fun x => x.modRound r (fun y => { y with signed := true, signs := y.signs.filter (fun q => decide (q.site ≠ c.site)) ++ [c] }))
          settleStage (trySealRound (publish s j (signedMessage (countersignBytes c) c.sig) toAll) j) j r
        else settleStage (trySealRound s j) j r
      | _, _ => s

/-- Shard digests that other devices of the site have verified are added to a round's. -/
def addDigests (s : State) (j r : Nat) (others : List (BitVec 32 × BitVec 256)) : State :=
  s.modDxe j (fun x => x.modRound r (fun y => { y with
    digests := y.digests.filter (fun d => !others.any (fun o => decide (o.1 = d.1))) ++ others }))

/-- OUTER_UPDATE_DONE: the next copies of the shards this device exchanges are written and put to the other contributing groups,
each with its digest, and with the shard digests of the site's other devices the site's own is known (R255, R264, R270, log
entry 18). It waits for the round before to be installed, for every block it needs, for a re-fetch under way, and for damaged
round state (R280). -/
def execOuterUpdateDone (j : Fin 4) (s : State) (others : List (BitVec 32 × BitVec 256) := []) : Res :=
  s.whenRuns <|
  if s.halted blkDxe then .next s else
  let x := s.job j
  let r := x.dxe.installed
  match x.dxe.round r with
  | none => .next s
  | some y =>
    match y.manifest with
    | none => .next s
    | some m =>
      if !x.running ∨ y.ownDigest.isSome ∨ x.dxe.refetch.isSome then .next s
      else
        let s := mendRound s j
        if !(s.areaUe j).isEmpty ∨ !(missingOf s j m).isEmpty then .next s else
        let s := (x.dxe.shards.zipIdx).foldl (fun s p =>
          if s.exchanges j p.1.1 ∧ !y.copies.contains p.1.1 then
            let vs := outerUpdate s j p.2 p.1.1 m
            let s := (putNext s j p.2 vs).modDxe j (fun x => x.modRound r (fun y => { y with copies := y.copies ++ [p.1.1] }))
            (s.otherGroups j).foldl (fun s g =>
              s.emit (.nextCopy j g p.1.1 (vs.map (·.2)) (vs.map (·.1)) (shardDigest (vs.map (·.2))))) s
          else s) s
        .next (syncArea (finishCopies (addDigests s j r others) j r) j)

/-- NEXT_COPY_RECEIVE: the exchange device's next copies of a shard with its digest; when the digest does not match, the copies
are fetched again (R255). -/
def execNextCopyReceive (j : Fin 4) (shard : BitVec 32) (a m : List (BitVec 32)) (digest : BitVec 256) (s : State) : Res :=
  s.whenRuns <|
  let x := s.job j
  let r := x.dxe.installed
  match x.dxe.shardIndex shard, x.dxe.round r with
  | some k, some y =>
    if !x.running ∨ y.manifest.isNone ∨ s.exchanges j shard then .next s
    else if a.length ≠ x.dxe.shardElems ∨ m.length ≠ x.dxe.shardElems ∨ shardDigest a ≠ digest then .next (s.emit (.refetchCopy j shard))
    else
      let s := (putNext s j k (m.zip a)).modDxe j (fun x => x.modRound r (fun y => { y with copies := y.copies.filter (· ≠ shard) ++ [shard] }))
      .next (syncArea (finishCopies s j r) j)
  | _, _ => .next s

/-! ## Re-fetch and late joining (R266, R271, R273, R281) -/

/-- A late site asks a member for the latest sealed bundle, and for its anchor and momentum shard by shard; it takes
the round from site time (R281). -/
def askJoin (s : State) (j : Nat) (site : BitVec 16) : State :=
  let r := (s.clock.siteTime - s.fld DXE_ROUND_d0 j) / (s.fld DXE_ROUND_t_round j * 1000000)
  let s := s.modDxe j (fun x => { x with joining := some site, gotBundle := none })
  let s := match (s.job j).dxe.partners.find? (fun p => decide (p.2.1 = site)) with
    | some p => sendRequest s j p.2.2 1 r 0 0
    | none => s
  requestAnchor s j site (r + 1)

/-- REFETCH_TIMEOUT: no answer within 4G: the next member in rotation is asked. -/
def execRefetchTimeout (j : Fin 4) (s : State) : Res :=
  s.whenRuns <|
  let x := (s.job j).dxe
  let others := x.members.filter (fun v => v ≠ s.site)
  match x.joining, x.refetch with
  | some site, _ => .next (askJoin s j (nextSite others site))
  | none, some (site, base) =>
    let dest := nextSite others site
    .next (requestAnchor (s.modDxe j (fun x => { x with refetch := some (dest, base) })) j dest x.gotRound)
  | none, none => .next s

/-- A and M of every held shard as they have been fetched, in the order of the shard table; none while one is missing. -/
def fetchedTables (x : Dxe) : Option (Sparse (BitVec 32) × Sparse (BitVec 32)) :=
  let one (sh : BitVec 32) := x.gotShards.find? (fun g => decide (g.1 = sh) && decide (g.2.1.length = x.shardElems) && decide (g.2.2.length = x.shardElems))
  if x.shards.all (fun sh => (one sh.1).isSome) then
    let table (f : BitVec 32 × List (BitVec 32) × List (BitVec 32) → List (BitVec 32)) : Sparse (BitVec 32) :=
      ((x.shards.flatMap (fun sh => ((one sh.1).map f).getD [])).zipIdx).foldl (fun m p => store m p.2 p.1 0) []
    some (table (·.2.1), table (·.2.2))
  else none

/-- The host has loaded master weights: a word of some held shard's live copy is not zero (DEDUCED, log entry 25). -/
def weightsLoaded (s : State) (j : Nat) : Bool :=
  (s.job j).dxe.shards.any (fun sh =>
    let base := weightAt (s.shardRegion j sh).live sh 0
    (s.mem base (4 * (s.job j).dxe.shardElems)).any (fun b => decide (b ≠ 0)))

/-- The anchor digest that a strict majority of the members countersigned with a manifest, every signature
verified (R264, R281). -/
def bundleDigest (s : State) (j : Nat) (m : ManifestBody) (cs : List CountersignBody) : Option (BitVec 256) :=
  let x := (s.job j).dxe
  let good := cs.filter (fun c => decide (c.manifestDigest = manifestDigest m) && decide (c.round = m.round) && x.members.contains c.site &&
    s.siteSigned j c.site (countersignBytes c) c.sig)
  if s.siteSigned j m.issuer (manifestBytes m) m.sig then
    (good.map (·.anchorDigest)).find? (fun d =>
      majority (distinct ((good.filter (fun c => decide (c.anchorDigest = d))).map (·.site))) x.members.length)
  else none

/-- A sealed bundle of the lowest unsealed round has come, its signatures and majority verified: the round is sealed by it, as
one whose manifest was accepted or waits for its base (R266, R273). -/
def takeBundle (s : State) (j : Nat) (m : ManifestBody) (cs : List CountersignBody) : State :=
  let x := (s.job j).dxe
  let r := m.round.toNat
  match bundleDigest s j m cs with
  | none => s
  | some _ =>
    if r ≠ x.sealedNext then s
    else
      let s := if (x.round r).any (fun y => decide (y.manifest = some m)) then s
        else if baseDigest s j r = some m.baseDigest then acceptManifest s j m
        else s.modDxe j (fun x => x.modRound r (fun y => { y with manifest := none, waiting := some m }))
      let signs := cs.filter (fun c => x.members.contains c.site && s.siteSigned j c.site (countersignBytes c) c.sig)
      let s := trySealRound (s.modDxe j (fun x => x.modRound r (fun y => { y with signs := signs }))) j
      if (s.job j).dxe.behind then askBundle s j m.issuer else s

/-- A late site has the bundle of a round and its anchor: both verified, they become its own, its master weights are
set unless the host has loaded them, and its lead sends JOIN to the beacon (R281). -/
def finishJoin (s : State) (j : Nat) (a m : Sparse (BitVec 32)) (others : List (BitVec 32 × BitVec 256)) (b : ManifestBody)
    (cs : List CountersignBody) : State :=
  let x := (s.job j).dxe
  let next := b.round.toNat + 1
  match bundleDigest s j b cs with
  | none => s
  | some d =>
    if siteDigest s j a others ≠ some d then s
    else
      let s := if weightsLoaded s j then s else
        (x.shards.zipIdx).foldl (fun s p => (List.range x.shardElems).foldl (fun s i =>
          s.setMem (weightAt (s.shardRegion j p.1).live p.1 i) (toLE 4 (look a (p.2 * x.shardElems + i) 0).toNat)) s) s
      let s := s.modDxe j (fun x => { x with
        anchor := a, mom := m, resid := [], liveDigest := d, bundles := [(b.round.toNat, b, d)], bundleSigns := [(b.round.toNat, cs)],
        sealedNext := next, installed := next, rounds := x.rounds.filter (fun r => decide (next ≤ r.number)),
        members := (b.members.filter (fun e => e.2 ≠ 3)).map (·.1), joining := none, gotShards := [], gotBundle := none })
      let q : JoinBody := { site := s.site, fedJob := (s.job j).fedJob, round := b.round, sig := 0 }
      let q := { q with sig := s.signature (joinBytes q) }
      if s.isLeadDevice j then
        publish s j (signedMessage (joinBytes q) q.sig) (fun v => decide (v = (s.job j).dxe.beacon next))
      else s

/-- The base that a waiting manifest needs, or a damaged live anchor, has been fetched (R266, R271, R280). -/
def takeBase (s : State) (j : Nat) (a m : Sparse (BitVec 32)) (others : List (BitVec 32 × BitVec 256)) : State :=
  let x := (s.job j).dxe
  let w := (x.round x.sealedNext).bind (·.waiting)
  let sealed := (x.bundles.find? (fun b => decide (b.1 + 1 = x.installed))).map (·.2.2)
  let want := sealed.getD ((w.map (·.baseDigest)).getD x.liveDigest)
  if siteDigest s j a others ≠ some want then s
  else
    let lines := (s.areaUe j).filter (fun l => !s.areaFree j [0, 2] l)
    let s := (s.modDxe j (fun x => { x with anchor := a, mom := m, liveDigest := want, refetch := none, gotShards := [] })).healed lines
    match w with
    | some w => if decide (x.sealedNext = x.installed) && decide (w.baseDigest = want) then acceptManifest s j w else s
    | none => s

/-- The anchor that a sealed round gives has been fetched: it becomes the next copies (R271). -/
def takeAnchor (s : State) (j : Nat) (a m : Sparse (BitVec 32)) (others : List (BitVec 32 × BitVec 256)) : State :=
  let x := (s.job j).dxe
  let r := x.target
  match (x.round r).bind (·.sealedDigest) with
  | none => s
  | some d =>
    if siteDigest s j a others ≠ some d then s
    else
      let lines := (s.areaUe j).filter (fun l => !s.areaFree j [1, 3] l)
      (s.modDxe j (fun x =>
        { (x.modRound r (fun y => { y with stage := .ready, ownDigest := some d, copies := x.shards.map (·.1) })) with
          anchorNext := a, momNext := m, refetch := none, gotShards := [] })).healed lines

/-- REFETCH_DONE: what was fetched from a site, the base or the anchor that a round gives, has come for every held shard; with the shard digests of the site's other devices it verifies
against the digest it must have, and is taken (R266, R271, R280, R281). -/
def execRefetchDone (j : Fin 4) (site : BitVec 16) (base : Bool) (others : List (BitVec 32 × BitVec 256)) (s : State) : Res :=
  s.whenRuns <|
  let x := (s.job j).dxe
  match fetchedTables x with
  | none => .next s
  | some (a, m) =>
    if !(s.job j).running then .next s
    else match x.joining, x.refetch with
      | some v, _ => .next (match x.gotBundle with
        | some b => if v = site ∧ x.gotRound = b.1.round.toNat + 1 then syncArea (finishJoin s j a m others b.1 b.2) j else s
        | none => s)
      | none, some w =>
        if w ≠ (site, base) then .next s
        else .next (syncArea (if base then takeBase s j a m others else takeAnchor s j a m others) j)
      | none, none => .next s

/-! ## Installation (R258, R272, R273) -/

/-- The merged weights and residual changes of a shard under R272. -/
def mergeShard (s : State) (j k base : Nat) (sh : BitVec 32 × Nat × Nat) (m : ManifestBody) : List (Nat × Nat) × List (Nat × Nat) :=
  let x := (s.job j).dxe
  let cs := (x.own.filter (fun c => ownSettled s j m c.1)).map (fun c => (ownIncluded s m c.1, ownValues c.2 sh.1))
  let one (i : Nat) : (Nat × Nat) × (Nat × Nat) :=
    let e := k * x.shardElems + i
    let a := weightAt base sh i
    let t := sub32 (s.word32 a) (look x.anchor e 0).toNat
    let r := cs.foldl (fun (q : Nat × Nat) c =>
      let h := (look c.2 i 0).toNat
      (sub32 q.1 h, if c.1 then q.2 else add32 q.2 h)) (t, (look x.resid e 0).toNat)
    ((a, add32 (look x.anchorNext e 0).toNat r.1), (e, r.2))
  let all := (List.range x.shardElems).map one
  (all.map (·.1), all.map (·.2))

/-- Write element i of elements of w bits from an address. -/
def State.setElem (s : State) (base w i v : Nat) : State :=
  let a := base + i * w / 8
  let lo := i * w % 8
  let n := (lo + w + 7) / 8
  s.setMem a (toLE n (withBits (leNat (s.mem a n)) lo (lo + w - 1) v))

/-- The working copies of the merged weights: cvt_sr with the weight-update tag, at the step number in STEP_NUMBER (R158, R258,
R272). -/
def writeWorking (s : State) (j : Nat) (pend : Bool) : State :=
  let base (r : Region) : Nat := if pend then r.pend else r.live
  (s.job j).dxe.shards.foldl (fun s sh => (List.range (s.job j).dxe.shardElems).foldl (fun s i =>
    match Config.workingOf j sh.2.1 (sh.2.2 + i) with
    | some (k, e, fmt, tensor, n) => match (s.regions j)[k]? with
      | some r =>
        let w := fp32 (s.word32 (weightAt (base (s.shardRegion j sh)) sh i))
        s.setElem (base r) (fmtBits fmt) e (cvtSr fmt (s.fld NUM_SEED_seed j) (s.step j) tensor.toNat n w)
      | none => s
    | none => s) s) s

/-- Copy a region's live copy over an unwritten pending copy and mark it written (R147). -/
def takeLive (s : State) (j k : Nat) : State :=
  match (s.regions j)[k]? with
  | none => s
  | some r =>
    if r.flags.testBit 1 then s
    else (s.setMem r.pend (s.mem r.live r.size)).putRegion j k { r with flags := r.flags ||| 2 }

/-- Apply R272 to the pending copies (at a commit) or to the live copies in place (R258): weights merged,
residual corrected, next copies live, settled contributions released, the round INSTALLED. -/
def installRound (s : State) (j : Nat) (pend : Bool) : State :=
  let x := (s.job j).dxe
  match (x.round x.target).bind (·.manifest) with
  | none => s
  | some m =>
    let ks := (((s.regions j).zipIdx).filter (fun p => decide (p.1.kind = 0 ∨ p.1.kind = 3))).map (·.2)
    let s := if pend ∧ !(s.job j).att.armed then ks.foldl (fun s k => takeLive s j k) s else s
    let res := (x.shards.zipIdx).map (fun p =>
      let r := s.shardRegion j p.1
      mergeShard s j p.2 (if pend then r.pend else r.live) p.1 m)
    let s := (res.flatMap (·.1)).foldl (fun s w => s.setMem w.1 (toLE 4 w.2)) s
    let s := writeWorking s j pend
    let s := if pend then ks.foldl (fun s k => match (s.regions j)[k]? with
        | some r => digestWrite s j r.pend r.size
        | none => s) s else s
    let next := x.target + 1
    let held (b : Block) : Bool := x.own.any (fun c => decide (c.1 = b.round.toNat) && !ownSettled s j m c.1)
    let s : State := { s with lanes := s.lanes.filter (fun l => decide (l.1 ≠ j) || held l.2.2) }
    syncArea (s.modDxe j (fun y => { y with
      anchor := y.anchorNext, mom := y.momNext, liveDigest := ((x.round x.target).bind (·.sealedDigest)).getD y.liveDigest,
      resid := (res.flatMap (·.2)).foldl (fun q e => store q e.1 (BitVec.ofNat 32 e.2) 0) y.resid,
      own := y.own.filter (fun c => !ownSettled s j m c.1), rounds := y.rounds.filter (fun r => decide (next ≤ r.number)),
      peers := y.peers.map (Peer.only held), installed := next, skipTo := none })) j

/-- The next round's close would exceed S_max + 2 own outstanding contributions (R258): the step now due is
the first of a new round. -/
def closeExceeds (s : State) (j : Nat) : Bool :=
  (s.job j).dxe.active && (s.closable j).isSome && decide ((s.job j).dxe.closed ≠ s.closable j) &&
    decide (s.sMax j + 2 < (s.job j).dxe.own.length + 1)

/-- INSTALLATION_ACT: the combined anchor-ready flag of a held job is known; when it is set the device installs
in place; once the close no longer exceeds the limit the job goes on (R258). -/
def execInstallationAct (j : Fin 4) (ready : Bool) (s : State) : Res :=
  s.whenRuns <|
  let x := s.job j
  if x.running ∧ x.holdAct ∧ x.phase = .repairing ∧ ready ∧ x.anchorReady then
    let s := installRound s j false
    let s := s.modLed j (fun l => { l with flags := l.flags ||| 1 })
    if closeExceeds s j then .next s
    else
      let s := s.modJob j (fun x => { x with holdAct := false })
      .next (if x.att.rejoinDue ∨ !x.att.damage.isEmpty ∨ !x.dig.replacing.isEmpty then s
        else reopen s j)
  else .next s

/-! ## The start of a federated job (R282, R283) -/

/-- The raw size of one contribution's coded groups: the least bytes of the round-state area (R282): every
block of a shard holds as many fully kept groups as fit. -/
def rawContribution (fp4 : Bool) (k shards elems : Nat) : Nat :=
  let g := if fp4 then 3 + k + (k + 1) / 2 else 3 + 2 * k
  let groups := elems / 256
  shards * (groups * g + 32 * ((groups + 4064 / g - 1) / (4064 / g)))

/-- The configuration block is well formed (R282). -/
def dxeConfigOk (s : State) (j mask : Nat) : Bool :=
  let base := s.fld DXE_CTRL_dxe_base j
  let f (o n : Nat) : Nat := leNat (s.mem (base + o) n)
  let shards := f 8 4
  let partners := f 12 4
  let sites := f 16 2
  let elems := f 20 4
  let parts := [(0, 64), (f 24 8, 16 * shards), (f 32 8, 64 * partners), (f 40 8, 64 * sites), (f 48 8, f 56 8)]
  let fp4 := decide (s.fld DXE_CTRL_vfmt j = 1)
  let need := 20 * (shards * elems) + (s.sMax j + 2) * rawContribution fp4 (s.fld DXE_CTRL_topk j) shards elems + 2 ^ 24
  let sh (k o n : Nat) : Nat := f (f 24 8 + 16 * k + o) n
  let pa (k o n : Nat) : Nat := f (f 32 8 + 64 * k + o) n
  let si (k o n : Nat) : Nat := f (f 40 8 + 64 * k + o) n
  let own := s.fld FAB_COORD_site
  let rising (l : List Nat) : Bool := (l.zip (l.drop 1)).all (fun p => decide (p.1 < p.2))
  let pathOk (o : Nat → Nat → Nat) : Bool := decide (o 48 4 < 2 ^ 20) && decide (1 ≤ o 52 2) && decide (o 52 2 ≤ 4094) && decide (o 54 2 = 0) &&
    decide (o 56 4 < 2 ^ 20) && decide (1 ≤ o 60 2) && decide (o 60 2 ≤ 4094) && decide (o 62 2 = 0)
  let ks := List.range shards
  let ps := List.range partners
  let ss := List.range sites
  decide (f 0 4 = 1) && decide (f 4 1 ≤ 1) && decide (f 5 3 = 0) && decide (f 18 2 = 0) &&
    decide (1 ≤ shards) && decide (shards ≤ 65536) && decide (partners ≤ 16777216) && decide (1 ≤ sites) && decide (sites ≤ 1024) &&
    decide (0 < elems) && decide (elems % 256 = 0) && decide (f 24 8 % 64 = 0) && decide (f 32 8 % 64 = 0) && decide (f 40 8 % 64 = 0) &&
    decide (f 48 8 % 2048 = 0) && decide (need ≤ f 56 8) &&
    parts.all (fun p => decide (p.2 = 0) || inQuarters mask (base + p.1) p.2) && disjoint parts &&
    rising (ks.map (fun k => sh k 0 4)) && ks.all (fun k =>
      decide (sh k 0 4 < 2 ^ s.fld DXE_CTRL_fed_shards j) && decide (sh k 6 2 = 0) &&
        (match (s.regions j)[sh k 4 2]? with
          | some r => decide (r.kind = 0) && decide (4 * (sh k 8 8 + elems) ≤ r.size)
          | none => false)) &&
    rising (ps.map (fun k => pa k 0 4 * 65536 + pa k 4 2)) && ps.all (fun k => decide (pa k 7 1 = 0) && decide (pa k 12 4 = 0) && pathOk (pa k)) &&
    rising (ss.map (fun k => si k 0 2)) && ss.all (fun k => decide (si k 3 1 ≤ 1) && decide (si k 8 8 = 0) && pathOk (si k)) &&
    ss.any (fun k => decide (si k 0 2 = own)) &&
    ks.all (fun k => ss.all (fun v => decide (si v 0 2 = own) ||
      ps.any (fun p => decide (pa p 0 4 = sh k 0 4) && decide (pa p 4 2 = si v 0 2))))

def Path.fresh : Path := { samples := [], estimate := 0, silent := false, seq := 0 }

def Peer.fresh (dev : BitVec 32) (page : Nat) : Peer :=
  { dev := dev, page := page, primary := Path.fresh, secondary := Path.fresh, second := false, backlog := [], sendQ := [], coded := [],
    outQ := [], unacked := [], txTables := [], rxTables := [], ackDue := [], gaps := [], refused := [] }

/-- The shard digests of A_0: of held shards from the live weights, of the others as they are (R283, DESIGN CHOICE, log entry 18). -/
def firstDigest (s : State) (j : Nat) : BitVec 256 :=
  let x := (s.job j).dxe
  let others := ((List.range (2 ^ s.fld DXE_CTRL_fed_shards j)).map (BitVec.ofNat 32)).map (fun n => (n, Config.otherShard j n))
  (siteDigest s j x.anchor others).getD 0

/-- The engine from its configuration block: fresh, or resumed from the state area (R283). -/
def dxeLoad (s : State) (j : Nat) (resume : Bool) : State :=
  if s.fld DXE_CTRL_enable j = 0 then s.modJob j (fun x => { x with dxe := Dxe.reset })
  else
    let base := s.fld DXE_CTRL_dxe_base j
    let f (o n : Nat) : Nat := leNat (s.mem (base + o) n)
    let sh := (List.range (f 8 4)).map (fun k =>
      let o := f 24 8 + 16 * k
      (BitVec.ofNat 32 (f o 4), f (o + 4) 2, f (o + 8) 8))
    let pa := (List.range (f 12 4)).map (fun k =>
      let o := f 32 8 + 64 * k
      (BitVec.ofNat 32 (f o 4), BitVec.ofNat 16 (f (o + 4) 2), BitVec.ofNat 32 (f (o + 8) 4), f (o + 6) 1))
    let si := (List.range (f 16 2)).map (fun k =>
      let o := f 40 8 + 64 * k
      (BitVec.ofNat 16 (f o 2), f (o + 3) 1))
    let elems := f 20 4
    let peers := (pa.map (fun p => (p.2.2.1, p.2.2.2))).eraseDups.map (fun p => Peer.fresh p.1 p.2)
    let n := sh.length * elems
    let table (g : Nat → BitVec 32) : Sparse (BitVec 32) := (List.range n).foldl (fun m i => store m i (g i) 0) []
    let weight (i : Nat) : BitVec 32 := match sh[i / elems]? with
      | some q => BitVec.ofNat 32 (s.word32 (weightAt (s.shardRegion j q).live q (i % elems)))
      | none => 0
    let x : Dxe := { Dxe.reset with
      active := true, shards := sh, shardElems := elems, partners := pa.map (fun p => (p.1, p.2.1, p.2.2.1)), peers := peers,
      members := (si.filter (fun v => decide (v.2 % 2 = 1))).map (·.1), anchor := table weight,
      closeGroups := List.range (groupCount (s.ddims j) (quadList (s.job j).extent)) }
    let x := if resume then s.areaBundles j (s.areaTables j x) else x
    let x := match x.bundles.getLast? with
      | some b => { x with members := (b.2.1.members.filter (fun e => e.2 ≠ 3)).map (·.1), sealedNext := b.1 + 1, installed := b.1 + 1,
                           liveDigest := b.2.2,
                           settled := x.bundles.flatMap (fun c => c.2.1.contribs.map (fun e => (e.site, e.round.toNat))) }
      | none => x
    let s : State := s.modJob j (fun y => { y with dxe := x })
    let s := if x.bundles.isEmpty then s.modDxe j (fun x => { x with liveDigest := firstDigest s j }) else s
    syncArea { s with lanes := s.lanes.filter (fun l => decide (l.1 ≠ j)) } j

/-- The engine at the start of a job (R282, R283). -/
def dxeStart (s : State) (j : Nat) : State :=
  dxeLoad s j (decide (rd s.dram (s.fld DXE_CTRL_dxe_base j + 4) = 1))

end Sys2Proof.Machine
end

