-- ==== Sys2Proof/Machine/DxeNet.lean ====
section
/-! DEFINITION. Partner streams of the delta exchange engine: paths, tables, blocks coded, sent, received, acknowledged and asked for
again (R256, R274 to R279, R292 to R299, R307, R316). -/
namespace Sys2Proof.Machine

/-! ## Datagrams of a stream (R297, R307) -/

/-- Tables a sender may use: not retiring. -/
def Peer.usable (p : Peer) : List TxTable := p.txTables.filter (fun t => !t.retiring)

/-- The table that codes a block: the new table of its round, or the newest acknowledged one, or none
(R294). -/
def Peer.tableFor (p : Peer) (b : Block) : Option TableBody :=
  match p.usable.find? (fun t => decide (t.body.round = b.round)) with
  | some t => some t.body
  | none => ((p.usable.filter (·.acked)).getLast?).map (·.body)

/-- A canonical block coded for a stream (R297). -/
def Peer.code (p : Peer) (b : Block) : Block :=
  match decodeBody none b with
  | some gs => wireForm (p.tableFor b) gs b
  | none => b

/-- The canonical content of an own block by identity (R297). -/
def Dxe.ownBlock (x : Dxe) (id : BitVec 32 × BitVec 64 × BitVec 32) : Option Block :=
  (x.own.flatMap (·.2)).find? (fun b => decide (blockIdent b = id))

/-- The blocks of the next DELTA datagram: in order, at most 9,098 bytes, and no more than fit a number of bytes. -/
def takeDatagram : Nat → List Block → List Block
  | _, [] => []
  | room, b :: r => if blockSize b ≤ room then b :: takeDatagram (room - blockSize b) r else []

/-- Blocks leave in datagrams; the first argument bounds their number. -/
def sendBlocks : Nat → State → Nat → BitVec 32 → List Block → State
  | 0, s, _, _, _ => s
  | n + 1, s, j, dev, bs =>
    match takeDatagram 9098 bs with
    | [] => s
    | d => sendBlocks n (s.sendFor j (.blocks dev d)) j dev (bs.drop d.length)

/-- Send blocks again by identity, coded anew (R296, R297). Those of a contribution that is no longer outstanding are not held:
the partner is told so (R273, Table HST-7). -/
def resendBlocks (s : State) (j : Nat) (dev : BitVec 32) (ids : List (BitVec 32 × BitVec 64 × BitVec 32)) : State :=
  match (s.job j).dxe.peer dev with
  | none => s
  | some p =>
    let bs := (ids.filterMap (s.job j).dxe.ownBlock).map p.code
    let lost := ids.filter (fun i => ((s.job j).dxe.ownBlock i).isNone)
    let old := p.unacked.filter (fun b => !bs.any (fun c => decide (blockIdent c = blockIdent b)))
    let s := sendBlocks (bs.length + 1) (s.modPeer j dev (fun p => { p with unacked := old ++ bs })) j dev bs
    (lost.map (·.2.1)).eraseDups.foldl (fun s r => nackBlocks s j dev 3 0 (lost.filter (fun i => decide (i.2.1 = r)))) s

/-- A retire of a table (Table DXC-2). -/
def retireOf (t : TableBody) : TableBody := { t with retire := true, round := 0, gapLens := [], valLens := [] }

/-- Re-send every DELTA and TABLE that is not acknowledged (R275, R316). -/
def resendAll (s : State) (j : Nat) (dev : BitVec 32) : State :=
  match (s.job j).dxe.peer dev with
  | none => s
  | some p =>
    let s := (p.txTables.filter (fun t => !t.acked || t.retiring)).foldl (fun s t =>
      s.sendFor j (.table dev (if t.retiring then retireOf t.body else t.body))) s
    resendBlocks s j dev (p.unacked.map blockIdent)

/-! ## Paths (R274, R275) -/

/-- A path becomes the active one: its estimator is reset, and the reset counts (R274, R276). -/
def activate (s : State) (j : Nat) (dev : BitVec 32) (second : Bool) : State :=
  (s.modPeer j dev (fun p => ({ p with second := second }).setPath second ((p.path second).fresh' s.locked))).count DXE_STATUS_resets 1 j

/-- Traffic moves to the other path: counted, and what is not acknowledged is sent again (R275). -/
def failover (s : State) (j : Nat) (dev : BitVec 32) (second : Bool) : State :=
  resendAll ((activate s j dev second).count DXE_STATUS_failovers 1 j) j dev

/-- PATH_SILENCE: no HEART for 3 ms on a path of a partner table entry (R275). -/
def execPathSilence (j : Fin 4) (entry : BitVec 12) (secondary : Bool) (s : State) : Res :=
  s.whenRuns <|
  match (s.job j).dxe.partners[entry.toNat]? with
  | none => .next s
  | some q =>
    match (s.job j).dxe.peer q.2.2 with
    | none => .next s
    | some p =>
      let s := s.modPeer j p.dev (fun p => p.setPath secondary { p.path secondary with silent := true })
      .next (if p.second = secondary then failover s j p.dev (!secondary) else s)

/-- PATH_RETURN: the primary has been heard for 10 s while the secondary is active (R275). -/
def execPathReturn (j : Fin 4) (entry : BitVec 12) (s : State) : Res :=
  s.whenRuns <|
  match (s.job j).dxe.partners[entry.toNat]? with
  | none => .next s
  | some q =>
    match (s.job j).dxe.peer q.2.2 with
    | none => .next s
    | some p =>
      if p.second ∧ !p.primary.silent then
        .next (activate s j p.dev false)
      else .next s

/-- HEART_SEND: one HEART on each path to every partner device exchanged with (R274). -/
def execHeartSend (j : Fin 4) (s : State) : Res :=
  s.whenRuns <|
  if s.halted blkDxe then .next s else
  if (s.job j).running ∧ (s.job j).dxe.active then
    .next ((s.job j).dxe.peers.foldl (fun s p =>
      match s.shardsWith j p.dev with
      | [] => s
      | sh :: _ =>
        [false, true].foldl (fun s second =>
          let q := p.path second
          let h : HeartBody :=
            { seq := BitVec.ofNat 32 q.seq, txTime := BitVec.ofNat 64 s.clock.siteTime, secondary := second,
              hearsPrimary := !p.primary.silent, hearsSecondary := !p.secondary.silent, exchange := true, shard := sh }
          (s.modPeer j p.dev (fun p => p.setPath second { p.path second with seq := q.seq + 1 })).sendFor j (.heart p.dev h)) s) s)
  else .next s

/-- The duty for a shard at a partner site is now another device's: blocks of the shard that the device before had not
acknowledged wait for the new one, and the tables of a stream that brings no shard any longer count as retired (R256, R294,
R295). -/
def moveShard (s : State) (j : Nat) (shard old new : BitVec 32) : State :=
  match (s.job j).dxe.peer old with
  | none => s
  | some p =>
    let here (b : Block) : Bool := decide (b.shard = shard)
    let lanes := (s.lanes.filter (fun l => decide (l.1 = j) && decide (l.2.1 = old) && here l.2.2)).map (·.2.2)
    let ids := ((p.unacked ++ p.outQ ++ p.coded ++ lanes ++ p.sendQ ++ p.backlog).filter here).map blockIdent
    let bs := ((s.job j).dxe.own.flatMap (·.2)).filter (fun b => ids.contains (blockIdent b))
    let s : State := { s with lanes := s.lanes.filter (fun l => !(decide (l.1 = j) && decide (l.2.1 = old) && here l.2.2)) }
    let s := s.modPeer j old (Peer.only (fun b => !here b))
    let s := s.modPeer j new (fun q => Peer.fill { q with backlog := q.backlog ++ bs })
    let s := if (s.job j).dxe.partners.any (fun q => decide (q.2.2 = old)) then s
      else s.modPeer j old (fun p => { p with txTables := [], rxTables := p.rxTables.map (fun t => { t with retired := true }) })
    fillLanes 8 (freeTables s j)

/-- A HEART arrives: a delay sample, the partner's duty for the shard, and what the partner hears (R256, R274, R275). -/
def takeHeart (s : State) (j : Nat) (dev : BitVec 32) (h : HeartBody) : State :=
  match (s.job j).dxe.peer dev with
  | none => s
  | some p =>
    let r := (p.path h.secondary).sample h.seq.toNat (s.clock.siteTime - h.txTime.toNat) s.locked
    let s := s.modPeer j dev (fun p => p.setPath h.secondary r.1)
    let s := if r.2 then s.count DXE_STATUS_resets 1 j else s
    let before := (s.job j).dxe.partners.find? (fun q => decide (q.1 = h.shard) && decide (q.2.1 = siteOf dev))
    let s := match before with
      | some q =>
        if !h.exchange || decide (q.2.2 = dev) then s
        else moveShard (s.modDxe j (fun x => { x with
          partners := x.partners.map (fun q => if q.1 = h.shard ∧ q.2.1 = siteOf dev then (q.1, q.2.1, dev) else q) })) j h.shard q.2.2 dev
      | none => s
    let hears := if p.second then h.hearsSecondary else h.hearsPrimary
    if hears then s else failover s j dev (!p.second)

/-! ## Window (R279) -/

/-- Bytes of a TABLE message that is not acknowledged. -/
def TxTable.bytes (t : TxTable) : Nat := if t.retiring then 16 else if t.acked then 0 else if t.body.fp4 then 152 else 272

/-- Bytes of DELTA and TABLE sent and not acknowledged, over all partner paths. -/
def Dxe.inFlight (x : Dxe) : Nat := (x.peers.map (fun p => (p.unacked.map blockSize).sum + (p.txTables.map TxTable.bytes).sum)).sum

/-- The room that the window leaves. -/
def State.windowRoom (s : State) (j : Nat) : Nat := s.fld DXE_WINDOW_window_bytes j * 2 ^ 26 - (s.job j).dxe.inFlight

/-! ## Tables (R293 to R295) -/

/-- TABLE_BUILD: after the close of the round the DXE builds the round's table for a stream from its raw blocks and sends it at
once, under the lowest free id; without one, or without room in the window, it does not (R279, R293, R294). -/
def execTableBuild (j : Fin 4) (peer : BitVec 32) (round : BitVec 64) (s : State) : Res :=
  s.whenRuns <|
  if s.halted blkDxe then .next s else
  let x := (s.job j).dxe
  match x.peer peer, x.closed with
  | some p, some r =>
    let mine := ((x.own.filter (fun c => decide (c.1 = r))).flatMap (·.2)).filter (fun b => (s.shardsWith j peer).contains b.shard)
    let ids := ((List.range 8).map (BitVec.ofNat 3)).filter (fun i => !p.txTables.any (fun q => decide (q.body.id = i)))
    match ids with
    | [] => .next s
    | i :: _ =>
      let t := buildTable (decide (s.fld DXE_CTRL_vfmt j = 1)) i round ((mine.filterMap (decodeBody none)).flatten)
      let q : TxTable := ⟨t, false, false⟩
      if BitVec.ofNat 64 r ≠ round ∨ !(s.job j).running ∨ !x.active ∨ !tableOk t ∨ p.txTables.any (fun q => decide (q.body.round = t.round)) ∨ s.windowRoom j < q.bytes then .next s
      else .next ((s.modPeer j peer (fun p => { p with txTables := p.txTables ++ [q] })).sendFor j (.table peer t))
  | _, _ => .next s

/-- The entry of a TABLE acknowledgement (Table HST-6). -/
def tableEntry (t : TableBody) : AckEntry :=
  { a := BitVec.ofNat 32 (t.id.toNat * 2 ^ 24 + (128 * ofBool t.retire + 16 * ofBool t.fp4) * 2 ^ 16),
    b := if t.retire then 0 else t.round.setWidth 32, c := 0 }

/-- A TABLE arrives: stored and acknowledged, acknowledged again, or discarded and counted (R295). -/
def takeTable (s : State) (j : Nat) (dev : BitVec 32) (t : TableBody) : State :=
  match (s.job j).dxe.peer dev with
  | none => s
  | some p =>
    let ack (s : State) : State := s.sendFor j (.ack dev false { cls := clsTable, reason := 0, ref := 0, entries := [tableEntry t] })
    if !tableOk t then s.count DXE_STATUS_protocol 1 j
    else match p.rxTables.find? (fun q => decide (q.body.id = t.id)) with
      | none => ack (s.modPeer j dev (fun p => { p with rxTables := p.rxTables ++ [⟨t, false, false⟩] }))
      | some q => if q.body = t then ack s else s.count DXE_STATUS_protocol 1 j

/-- A retire arrives: the table is retired, and freed and acknowledged once no stored block references it; the
retire of a table not held is acknowledged again (R295). -/
def takeRetire (s : State) (j : Nat) (dev : BitVec 32) (t : TableBody) : State :=
  match (s.job j).dxe.peer dev with
  | none => s
  | some p =>
    if p.rxTables.any (fun q => decide (q.body.id = t.id)) then
      freeTables (s.modPeer j dev (fun p => { p with
        rxTables := modAll (fun q => decide (q.body.id = t.id)) (fun q => { q with retired := true, asked := true }) p.rxTables })) j
    else s.sendFor j (.ack dev false { cls := clsTable, reason := 0, ref := 0, entries := [tableEntry { t with retire := true }] })

/-! ## Sending (R14, R279, R299, R307) -/

/-- The DXE releases a shard's blocks in block order: coded blocks leave for the host port once no earlier one of their round and
shard is in a lane or waits coded; the first argument bounds their number. -/
def Peer.release : Nat → List Block → Peer → Peer
  | 0, _, p => p
  | n + 1, lanes, p =>
    match p.coded.find? (fun c => !(lanes ++ p.coded).any (fun b =>
      decide (b.round = c.round) && decide (b.shard = c.shard) && decide (b.block.toNat < c.block.toNat))) with
    | none => p
    | some c => Peer.release n lanes { p with coded := p.coded.erase c, outQ := p.outQ ++ [c] }

/-- BLOCK_ENCODE_DONE: the lane finishes its block, which is coded for its stream and released in block order; the lane takes the
next (R297, R299). -/
def execBlockEncodeDone (j : Fin 4) (peer : BitVec 32) (s : State) (k : Fin 8 := 0) : Res :=
  s.whenRuns <|
  if s.halted blkDxe then .next s else
  match s.lanes[k.val]? with
  | none => .next s
  | some l =>
    if l.1 ≠ j.val ∨ l.2.1 ≠ peer then .next s
    else
      let s : State := { s with lanes := s.lanes.eraseIdx k.val }
      let lanes := (s.lanes.filter (fun m => decide (m.1 = j.val) && decide (m.2.1 = peer))).map (·.2.2)
      .next (fillLanes 8 (s.modPeer j peer (fun p =>
        let q := { p with coded := p.coded ++ [p.code l.2.2] }
        Peer.release (q.coded.length + 1) lanes q)))

/-- The next datagram of a stream: what of it the window has room for. -/
def State.nextDatagram (s : State) (j : Nat) (p : Peer) : List Block := takeDatagram (min 9098 (s.windowRoom j)) p.outQ

/-- BLOCK_SEND: the window has room, it is the job's turn at the host port, and the next datagram leaves (R14, R279). -/
def execBlockSend (j : Fin 4) (peer : BitVec 32) (s : State) : Res :=
  s.whenRuns <|
  if s.halted blkDxe then .next s else
  match (s.job j).dxe.peer peer with
  | none => .next s
  | some p =>
    let bs := s.nextDatagram j p
    let waits := s.runningJobs.filter (fun k => (s.job k).dxe.peers.any (fun q => !(s.nextDatagram k q).isEmpty))
    if bs.isEmpty ∨ !s.hasTurn blkHost j waits then .next s
    else
      .next (((s.tookTurn blkHost j).modPeer j peer (fun p => { p with outQ := p.outQ.drop bs.length, unacked := p.unacked ++ bs })).sendFor j
        (.blocks peer bs))

/-- BLOCK_RESEND_TIMEOUT: blocks and tables unacknowledged too long are sent again (R316). -/
def execBlockResendTimeout (j : Fin 4) (peer : BitVec 32) (s : State) : Res :=
  s.whenRuns <|
  if s.halted blkDxe then .next s else
  if (s.job j).running then .next (resendAll s j peer) else .next s

/-! ## Receiving (R277 to R279, R296, R298) -/

/-- The rounds that a receiver takes blocks of: from the oldest unsettled, or an older one of which it still needs blocks, to one
beyond the newest open (Table DXC-3, check 2; R273). -/
def State.openRounds (s : State) (j : Nat) : Nat × Nat :=
  let x := (s.job j).dxe
  let needed := (x.bundles.flatMap (·.2.1.contribs)).filter (fun c => x.needs c.site c.round.toNat)
  ((needed.map (·.round.toNat)).foldl min (x.sealedNext - s.sMax j), (x.rounds.map (·.number)).foldl max x.sealedNext + 1)

/-- Bytes of the receive store. -/
def Dxe.storeBytes (x : Dxe) : Nat := (x.store.map (fun p => blockSize p.2)).sum

/-- A block of a stream goes through the checks of Table DXC-3 and into the store (R278, R279, R298). -/
def takeBlock (s : State) (j : Nat) (dev : BitVec 32) (b : Block) : State :=
  let x := (s.job j).dxe
  match x.peer dev with
  | none => s
  | some p =>
    let corrupt := s.count DXE_STATUS_corrupt 1 j
    let dropped := s.count DXE_STATUS_discarded 1 j
    let r := b.round.toNat
    let w := s.openRounds j
    let table := p.rxTables.find? (fun t => decide (t.body.id = b.tableId) && !t.retired)
    let again (s : State) : State := s.modPeer j dev (fun p => { p with ackDue := p.ackDue ++ [blockIdent b] })
    if !blockFormOk b then corrupt
    else if r < w.1 ∨ w.2 < r then dropped
    else if !(s.shardsWith j dev).contains b.shard then dropped
    else if x.shardElems / 256 < b.firstGroup.toNat + b.groups.toNat then corrupt
    else if x.accepted.contains (siteOf dev, blockIdent b) then again (s.count DXE_STATUS_duplicates 1 j)
    else if !x.wants (s.sMax j) (siteOf dev) r then dropped
    else if !b.raw ∧ table.isNone then
      nackBlocks (s.count DXE_STATUS_unknown_table 1 j) j dev 2 b.tableId.toNat [blockIdent b]
    else match decodeBody (table.map (·.body)) b with
      | none => corrupt
      | some _ =>
        if x.store.any (fun q => decide (siteOf q.1 = siteOf dev) && decide (q.2.shard = b.shard) && decide (q.2.round = b.round) && blocksOverlap q.2 b) then corrupt
        else if s.fld DXE_WINDOW_store_bytes j * 2 ^ 26 < x.storeBytes + blockSize b ∧ (x.rounds.map (·.number)).foldl max 0 ≤ r then
          s.modPeer j dev (fun p => { p with refused := p.refused.filter (· ≠ blockIdent b) ++ [blockIdent b] })
        else
          let s := s.modDxe j (fun x => (x.modRound r (fun y => y.atLeast .collecting)))
          let s := s.modDxe j (fun x => { x with store := x.store ++ [(dev, b)], accepted := x.accepted ++ [(siteOf dev, blockIdent b)] })
          again ((syncArea s j).modPeer j dev (fun p => { p with gaps := p.gaps.filter (· ≠ blockIdent b), refused := p.refused.filter (· ≠ blockIdent b) }))

/-- The blocks of a DELTA message; a message that does not end with its last block counts its rest as corrupt
(R307). -/
def takeBlocks (s : State) (j : Nat) (dev : BitVec 32) (bs : List Block) (whole : Bool) : State :=
  let s := bs.foldl (fun s b => takeBlock s j dev b) s
  if whole then s else s.count DXE_STATUS_corrupt 1 j

/-- ACK_COALESCE_EXPIRY: the acknowledgements due leave, round by round, ranges coalesced; blocks refused by a full store are
asked for once there is room (R279, R316). -/
def execAckCoalesceExpiry (j : Fin 4) (peer : BitVec 32) (s : State) : Res :=
  s.whenRuns <|
  if s.halted blkDxe then .next s else
  match (s.job j).dxe.peer peer with
  | none => .next s
  | some p =>
    let rounds := (p.ackDue.map (fun i => i.2.1)).eraseDups
    let entries (r : BitVec 64) : List AckEntry := rangeEntries 0 (p.ackDue.filter (fun i => i.2.1 = r))
    let s := rounds.foldl (fun s r => s.sendFor j (.ack peer false ⟨clsDelta, 0, r, entries r⟩)) s
    let s := s.modPeer j peer (fun p => { p with ackDue := [] })
    let room := decide ((s.job j).dxe.storeBytes + 4096 ≤ s.fld DXE_WINDOW_store_bytes j * 2 ^ 26)
    if room ∧ !p.refused.isEmpty then
      let rs := (p.refused.map (fun i => i.2.1)).eraseDups
      .next ((rs.foldl (fun s r => nackBlocks s j peer 1 0 (p.refused.filter (fun i => i.2.1 = r))) s).modPeer j peer (fun p =>
        { p with refused := [], gaps := p.gaps ++ p.refused }))
    else .next s

/-- GAP_TIMEOUT: missing blocks of a shard stream are asked for (R277). -/
def execGapTimeout (j : Fin 4) (shard : BitVec 32) (round : BitVec 64) (blocks : List (BitVec 32)) (peer : BitVec 32) (s : State) : Res :=
  s.whenRuns <|
  if s.halted blkDxe then .next s else
  let x := (s.job j).dxe
  let ids := (blocks.map (fun b => (shard, round, b))).filter (fun i => !x.accepted.contains (siteOf peer, i))
  if !(s.job j).running ∨ (x.peer peer).isNone ∨ !x.wants (s.sMax j) (siteOf peer) round.toNat ∨ !(s.shardsWith j peer).contains shard then .next s
  else .next (askBlocks s j peer ids)

/-- NACK_RESEND: what has not come is asked for again, until it comes or is settled (R277). -/
def execNackResend (j : Fin 4) (shard : BitVec 32) (round : BitVec 64) (peer : BitVec 32) (s : State) : Res :=
  s.whenRuns <|
  if s.halted blkDxe then .next s else
  let x := (s.job j).dxe
  match x.peer peer with
  | none => .next s
  | some p =>
    if !x.wants (s.sMax j) (siteOf peer) round.toNat then
      .next (s.modPeer j peer (fun p => { p with gaps := p.gaps.filter (fun i => !(decide (i.1 = shard) && decide (i.2.1 = round))) }))
    else .next (nackBlocks s j peer 1 0 (p.gaps.filter (fun i => decide (i.1 = shard) && decide (i.2.1 = round))))

/-! ## Acknowledgements received (R273, R294, R316) -/

/-- The identities that a DELTA entry names: a range of blocks of a shard. -/
def entryIds (round : BitVec 64) (e : AckEntry) : List (BitVec 32 × BitVec 64 × BitVec 32) :=
  (List.range (bits e.c.toNat 16 31)).map (fun k => (e.a, round, BitVec.ofNat 32 (e.b.toNat + k)))

/-- An acknowledgement of blocks: they are in flight no longer. -/
def ackDelta (s : State) (j : Nat) (dev : BitVec 32) (b : AckBody) : State :=
  let ids := b.entries.flatMap (entryIds b.ref)
  s.modPeer j dev (fun p => { p with unacked := p.unacked.filter (fun c => !ids.contains (blockIdent c)) })

/-- A TABLE acknowledgement: the table may be used by every block, and older tables are retired, as far as the window has room
for their retires; the acknowledgement of a retire frees the id (R279, R294). -/
def ackTable (s : State) (j : Nat) (dev : BitVec 32) (e : AckEntry) : State :=
  let id := BitVec.ofNat 3 (bits e.a.toNat 24 26)
  match (s.job j).dxe.peer dev with
  | none => s
  | some p =>
    if e.a.toNat.testBit 23 then
      s.modPeer j dev (fun p => { p with txTables := p.txTables.filter (fun t => !(t.retiring && decide (t.body.id = id))) })
    else match p.txTables.find? (fun t => decide (t.body.id = id) && !t.retiring) with
      | none => s
      | some t =>
        let s := s.modPeer j dev (fun p => { p with txTables := modFirst (fun q => decide (q.body.id = id)) (fun q => { q with acked := true }) p.txTables })
        let older := (p.txTables.filter (fun q => !q.retiring && decide (q.body.round.toNat < t.body.round.toNat))).take (s.windowRoom j / 16)
        let s := s.modPeer j dev (fun p => { p with txTables := p.txTables.map (fun q =>
          if older.any (fun o => decide (o.body.id = q.body.id)) then { q with retiring := true } else q) })
        older.foldl (fun s q => s.sendFor j (.table dev (retireOf q.body))) s

/-- The anchor of the latest sealed round is fetched, and installed as a single round with the rounds that it skips, once blocks of a
round yet to be installed can be had no longer (R273). -/
def skipRounds (s : State) (j : Nat) : State :=
  let x := (s.job j).dxe
  let last := x.sealedNext - 1
  if x.refetch.isSome ∨ x.sealedNext ≤ x.installed then s
  else match (x.round last).bind (·.manifest) with
    | some m => startRefetch (s.modDxe j (fun x => { x with skipTo := some last })) j m.issuer false last
    | none => s

/-- A NACK of blocks: they are sent again, after their table when it was unknown and is still held; blocks that cannot be had any
longer end the wait for them (R273, R277, R296). -/
def nackDelta (s : State) (j : Nat) (dev : BitVec 32) (b : AckBody) : State :=
  let ids := b.entries.flatMap (entryIds b.ref)
  let s := if b.reason = 2 then
      b.entries.foldl (fun s e =>
        match ((s.job j).dxe.peer dev).bind (fun p => p.usable.find? (fun t => decide (t.body.id.toNat = bits e.c.toNat 8 10))) with
        | some t => s.sendFor j (.table dev t.body)
        | none => s) s
    else s
  if b.reason = 3 then
    let s := s.modPeer j dev (fun p => { p with gaps := p.gaps.filter (fun g => !ids.contains g) })
    if (s.job j).dxe.needs (siteOf dev) b.ref.toNat then skipRounds s j else s
  else resendBlocks s j dev ids

/-! ## Associations of a job's devices, and duties that pass (R244, R255, R282, R324) -/

/-- A peer's association of a kind in a page. -/
def State.assocOf (s : State) (kind : BitVec 8) (page : Nat) (peer : BitVec 32) : Option Assoc :=
  s.sec.assocs.find? (fun a => decide (a.kind = kind) && decide (a.page = page) && decide (a.peer = peer))

/-- An entry of the partner or site-lead table: site, page, device, serial. -/
structure Listed where
  site : BitVec 16
  page : Nat
  device : BitVec 32
  serial : BitVec 128
  deriving DecidableEq, Repr

/-- The partner table of a job. -/
def partnerTable (s : State) (j : Nat) : List Listed :=
  if s.fld DXE_CTRL_enable j = 0 then []
  else (List.range (min 16777216 (s.dxeWord j 12 4))).map (fun k =>
    let o := s.dxeWord j 32 8 + 64 * k
    ⟨BitVec.ofNat 16 (s.dxeWord j (o + 4) 2), s.dxeWord j (o + 6) 1, BitVec.ofNat 32 (s.dxeWord j (o + 8) 4),
      BitVec.ofNat 128 (beNat (s.mem (s.fld DXE_CTRL_dxe_base j + o + 16) 16))⟩)

/-- The site-lead table of a job. -/
def siteTable (s : State) (j : Nat) : List Listed :=
  if s.fld DXE_CTRL_enable j = 0 then []
  else (List.range (min 1024 (s.dxeWord j 16 2))).map (fun k =>
    let o := s.dxeWord j 40 8 + 64 * k
    ⟨BitVec.ofNat 16 (s.dxeWord j o 2), s.dxeWord j (o + 2) 1, BitVec.ofNat 32 (s.dxeWord j (o + 4) 4),
      BitVec.ofNat 128 (beNat (s.mem (s.fld DXE_CTRL_dxe_base j + o + 16) 16))⟩)

/-- A handshake begins with a listed device of a higher index that has no association yet, and none on the way. -/
def beginShake (s : State) (kind : Nat) (e : Listed) : State :=
  let k := BitVec.ofNat 8 kind
  let begun := s.sec.shakes.any (fun h => h.initiator && decide (h.peer = e.device) && decide (h.init.kind = k) && decide (h.init.page.toNat = e.page))
  if s.origin < e.device.toNat ∧ (s.assocOf k e.page e.device).isNone ∧ !begun then startShake s kind e.page e.device else s

/-- The associations with partner devices begin. -/
def partnerShakes (s : State) (j : Nat) : State := (partnerTable s j).foldl (fun s e => beginShake s 2 e) s

/-- The associations of the site's lead with the leads of the other sites begin. -/
def leadShakes (s : State) (j : Nat) : State :=
  ((siteTable s j).filter (fun e => decide (e.site ≠ s.site))).foldl (fun s e => beginShake s 3 e) s

/-- The groups of a job have changed: duties for shards pass, and a device that is the site's lead now takes up its associations and
sends the RECEIPTs that are due (R244, R255, R260). -/
def dutiesPass (before s : State) (j : Nat) : State :=
  let s := dutyChange before s j
  if (s.job j).dxe.active && s.isLeadDevice j && !before.isLeadDevice j then
    ((s.job j).dxe.rounds.map (·.number)).foldl (fun s r => tryReceipt s j r) (leadShakes s j)
  else s

end Sys2Proof.Machine
end

