-- ==== Sys2Proof/Machine/Ticks.lean ====
section
/-! DEFINITION. What the frame tick does to tiles, the opening of an attempt and the start of frames (R16,
R17, R69, R99, R108, R111 to R114, R141, R174, R185, R247). -/
namespace Sys2Proof.Machine

/-- A tile still busy at the tick overruns (R111). -/
def overrunTile (s : State) (t : Nat) : State :=
  if (s.tile t).busy then
    let s := ((s.setFld TILE_OVERRUN_overrun_flag 1 t).count TILE_OVERRUN_overrun_count 1 t).modTile t (fun x => { x with held := true })
    match s.jobOfTile t with
    | some j => countOverrun s j (s.tile t).serves
    | none => s
  else s.modTile t (fun x => { x with held := false })

/-- The slew of the tick phase: at most 10 ns per tick, while both references are locked (R16). -/
def State.slew (s : State) : Int :=
  if s.fld PTP_STATUS_lock = 1 ∧ s.fld PPS_STATUS_lock = 1 then max (-10) (min 10 s.clock.phaseErr) else 0

/-- An instant of site time is a whole multiple of the period plus the phase (R390). -/
def State.aligned (s : State) (t : Nat) : Bool :=
  decide (((t : Int) - signed 32 (s.fld TICK_PHASE_phase)) % (s.period : Int) = 0)

/-- The first aligned instant after another. -/
def alignedAfter (s : State) (t : Nat) : Nat :=
  t + s.period - (((t : Int) - signed 32 (s.fld TICK_PHASE_phase)) % (s.period : Int)).toNat

/-- The frame tick: time goes on, busy tiles overrun, exception flags are gathered (Table ARC-2). A tick due to be
placed anew falls at the first aligned instant; any other follows the last one by the period and the slew, whatever
has been measured in between (R16, R390, R411). -/
def tickActions (s : State) : State :=
  let d := s.slew
  let next := if s.clock.realign then (alignedAfter s s.clock.siteTime : Int) else s.clock.tickAt + s.period + d
  let s := s.modClock (fun c => { c with
    siteTime := next.toNat, tickAt := next, uptime := c.uptime + s.period, phaseErr := if c.realign then 0 else c.phaseErr - d, realign := false,
    order := 1 })
  let s := s.setFld TICK_COUNT_count ((s.fld TICK_COUNT_count + 1) % 2 ^ 64)
  let s := s.forTiles (fun _ => true) overrunTile
  let s := s.runningJobs.foldl takeExcs s
  s.forTiles (fun _ => true) gatherBits

/-! ## The opening of an attempt -/

/-- The new region table of an armed attempt meets R137 and the overlap rule of R247, and its lines are
readable. -/
def reshardOk (s : State) (j : Nat) : Bool :=
  let a := s.fld CXE_EPOCH_next_table j
  let rs := regionsAt s a 1024
  let n := tableBytes rs.length
  let ring := (s.ledgerBase j, 4096 * s.ledgerEntries j)
  let place := (s.tableBase j, n)
  let fixed := if a = place.1 then [ring, place] else [ring, place, (a, n)]
  regionsOk (s.job j).mask.toNat fixed rs && (s.ueIn a n).isEmpty &&
    rs.all (fun r => (s.regions j).all (fun o => !overlaps r.pend r.size o.live o.size))

/-- The replica groups that contribute when an attempt opens: all that have not been lost (R156). -/
def contributorsAt (s : State) (j : Nat) : BitVec 256 :=
  let x := s.job j
  BitVec.ofNat 256 (maskOf ((List.range (groupCount (s.ddims j) (quadList x.extent))).filter (fun g => !x.excludedGroups.contains g)))

/-- An attempt opens with its first frame: an armed one once its table has passed; with too few groups the job
faults (R112, R141, R156, R247). -/
def openAttempt (s : State) (j : Nat) : State :=
  let armed := decide (s.fld CXE_EPOCH_arm j = 1) && !(s.regions j).isEmpty
  if (setBitsOf (contributorsAt s j).toNat 256).length < s.fld STEP_CTRL_min_groups j then jobFault s j 0x101
  else if armed && !reshardOk s j then jobFault s j 0x106
  else
    let s := s.modLed j (fun l => { Ledger.reset with flags := l.flags, mismatches := l.mismatches, tOpen := s.clock.siteTime, contributors := contributorsAt s j })
    let s := s.modAtt j (fun a => { a with started := true, epoch := BitVec.ofNat 32 (s.fld CXE_EPOCH_epoch j), armed := armed, table := s.fld CXE_EPOCH_next_table j })
    s.forTiles (s.job j).hasTile (fun s t => s.modTile t (fun x => { x with frame := 0, appends := 0 }))

/-- The opening of the first attempt of a step is held while entries of the log older than the lag have not
been written back (R185). -/
def glogHolds (s : State) (j : Nat) : Bool :=
  s.glogOn j && decide ((s.job j).attemptNo = 0) &&
    (s.job j).glog.any (fun e => e.committed && !e.done && decide (e.step.toNat + s.fld MEM_GLOG_SIZE_lag + 1 ≤ s.step j))

/-- Frame starts are limited to every second tick: by a hot stack, hot logic or the power limit (R21,
R174). -/
def State.throttled (s : State) (q : Nat) : Bool :=
  decide (s.fld MEM_STACK_STATUS_throttle q = 1) || (s.fld THERM_STATUS_throttled).testBit q ||
    decide (s.fld PWR_TELEM_throttle = 1)

/-- The microcode of a stack domain is due to be swapped: before frame 0 of the first attempt of the step that the
request names, or at the next tick when no job runs there (R376). Its frames are held until it has been. -/
def ucodeDue (s : State) (q : Nat) : Bool :=
  match (s.dom q).ucodeSwap, s.owner q with
  | some (some v), some j =>
    decide (v.2 < s.step j) && decide (s.step j % 65536 = v.1.toNat) && decide ((s.job j).attemptNo = 0) && !(s.job j).att.started
  | some none, some j => decide ((s.job j).attemptNo = 0) && !(s.job j).att.started
  | some _, none => true
  | none, _ => false

/-- A tile may start a frame at this tick; a group that has left the job starts none until it has rejoined
(R155, R359). -/
def mayStart (s : State) (t j : Nat) : Bool :=
  let x := s.tile t
  let n := s.fld TICK_COUNT_count
  decide (1 ≤ s.clock.order) && decide (s.clock.order ≤ 5) && decide (s.plat.dev = .run ∨ s.plat.dev = .drain) &&
    !x.busy && !x.held && !x.rejected && decide (x.lastStart ≠ n) && !(s.throttled (t / 256) && decide (x.lastStart + 1 = n)) &&
    !s.svc.remaps.any (fun r => decide (r.tile = t) && r.copied.isSome) && !ucodeDue s (t / 256) &&
    (List.range 3).any (fun c => s.ctxEnabled t c && decide (c = 0 ∨ s.isLead t)) &&
    !(s.job j).att.rejoinDue && !(s.job j).excludedGroups.contains (s.ownGroup j) &&
    (match (s.job j).phase with
      | .opened => (s.job j).att.started || (decide (s.plat.dev = .run) && !(s.job j).att.stopNext && !glogHolds s j)
      | .voting => true
      | .committing => true
      | _ => false)

/-- A context enabled on the tile starts at its next entry (R110, R114). -/
def startCtx (s : State) (t c : Nat) (x : Tile) : Tile :=
  if s.ctxEnabled t c ∧ (c = 0 ∨ s.isLead t) then x.modCtx c (fun y => { y with index := y.next, run := .running })
  else x.modCtx c (fun y => { y with run := .idle })

/-- FRAME_START: an idle tile whose frame is due starts it; with it an attempt may open (R108). -/
def execFrameStart (t : Fin 1024) (s : State) : Res :=
  match s.jobOfTile t with
  | none => .next s
  | some j =>
    if mayStart s t j then
      let s := if (s.job j).att.started then s else openAttempt s j
      if (s.job j).att.started then
        let s := s.modClock (fun c => { c with order := 5 })
        .next (s.modTile t (fun x =>
          let x := startCtx s t 2 (startCtx s t 1 (startCtx s t 0 x))
          { x with busy := true, rejected := false, serves := (s.job j).ledgerSeq, frame := x.frame + 1, lastStart := s.fld TICK_COUNT_count }))
      else .next s
    else .next s

end Sys2Proof.Machine
end

