-- ==== Sys2Proof/Machine/Clocking.lean ====
section
/-! DEFINITION. Supplies, clocks, power modes, time references, temperatures and the landing of staged
writes (R4, R16, R20, R21, R173, R174, R304, R370, R371, R390, R411, R421 to R434). -/
namespace Sys2Proof.Machine

/-! ## Power modes (R20, R423) -/

/-- The core clock in MHz, the DRAM clock in MHz and the nominal VDD_CORE in mV of a power mode. -/
def modeMHz (m : Nat) : Nat := if m = 0 then 1850 else if m = 1 then 1600 else 1350
def modeDram (m : Nat) : Nat := if m = 2 then 700 else 850
def modeMv (m : Nat) : Nat := if m = 0 then 780 else if m = 1 then 720 else 660

/-- VDD_CORE is commanded (R422). -/
def setVdd (s : State) (mv : Nat) : State := s.emit (.vddCore mv)

/-- The core clock moves to a mode. -/
def setMode (s : State) (m : Nat) : State := (s.setFld PWR_MODE_mode m).setFld CLK_CORE_CFG_core_mhz (modeMHz m)

/-- A staged write enters its block's queue; the 65th is ignored and raises cfg_reject (R370). -/
def stage (s : State) (x : Staged) : State × Bool :=
  if 64 ≤ (s.staged.filter (fun y => decide (y.block = x.block))).length then (s.cfgReject, false)
  else ({ s with staged := s.staged ++ [x] }, true)

/-- The PWR_MODE write enters the staging queue of CLK. -/
def stagePwr (s : State) (m : Nat) : State × Bool :=
  let r := stage s ⟨1, 0x1010, 0, 1, m⟩
  if r.2 then (r.1.modPlat (fun p => { p with pwr := .staged (BitVec.ofNat 2 m) }), true) else r

/-- The state of a stack's repair (MEM_REPAIR_STATUS). -/
def State.repairState (s : State) (q : Nat) : Nat := bits (s.reg 0x3018) (8 * q) (8 * q + 2)
def State.setRepairState (s : State) (q v : Nat) : State := s.setReg 0x3018 (withBits (s.reg 0x3018) (8 * q) (8 * q + 2) v)

/-- A change of bond rate cancels repairs in COPY and SWITCH_WAIT (R181). -/
def cancelRepairs (s : State) : State :=
  (List.range 4).foldl (fun s q =>
    if s.repairState q = 1 ∨ s.repairState q = 2 then
      (s.setRepairState q 0).modDom q (fun d => { d with repair := { d.repair with again := true, pending := [] } })
    else s) s

/-- A write of PWR_MODE (R20, R423): whether it is accepted. A change into or out of SITE is accepted only in
READY, which it leaves for TRAIN at once. A faster mode waits for its voltage. While such a change is under way, a write
that names its target changes nothing, and any other is refused (DEDUCED, log entry 107). -/
def writePwr (s : State) (m : Nat) : State × Bool :=
  let now := s.fld PWR_MODE_mode
  let site := decide (m = 2) != decide (now = 2)
  if s.plat.train.retrain.isSome then
    (if s.plat.train.retrain = some (BitVec.ofNat 2 m) ∧ m < 3 then (s, true) else (s.cfgReject, false))
  else if 3 ≤ m ∨ (site ∧ s.plat.dev ≠ .ready) then (s.cfgReject, false)
  else
    let s : State := { s with staged := s.staged.filter (fun x => decide (x.block ≠ 1)) }
    let s := if site then (cancelRepairs (s.modPlat (fun p => { p with train := { p.train with retrain := some (BitVec.ofNat 2 m) } }))).enter .train else s
    if m < now then (setVdd (s.modPlat (fun p => { p with pwr := .rising (BitVec.ofNat 2 m) })) (modeMv m), true)
    else stagePwr s m

/-- PWR_MODE_WRITE: the host or the board changes the power mode (R20, R423). -/
def execPwrModeWrite (v : BitVec 64) (s : State) : Res := .next (writePwr s (v.toNat % 4)).1

/-- VDD_CORE_SETTLED: the regulator reports the commanded voltage within tolerance: a write waiting for it is
staged (R423). -/
def execVddCoreSettled (s : State) : Res :=
  match s.plat.pwr with
  | .rising m => .next (stagePwr (s.modPlat (fun p => { p with vddCore := modeMv m.toNat })) m.toNat).1
  | .falling => .next (s.modPlat (fun p => { p with vddCore := modeMv (s.fld PWR_MODE_mode), pwr := .none }))
  | _ => .next s

/-- The power mode whose nominal a voltage is. -/
def modeOf (mv : Nat) : Nat := if mv = 780 then 0 else if mv = 720 then 1 else 2

/-- REGULATOR_TIMEOUT: no tolerance within 2 ms: the previous voltage returns, the write is discarded; a device
that left READY for the change returns there in the previous mode (R20, R423). -/
def execRegulatorTimeout (s : State) : Res :=
  let back (s : State) : State :=
    let s := (setVdd s s.plat.vddCore).modPlat (fun p => { p with pwr := .none })
    match s.plat.train.retrain with
    | some _ =>
      let s := setMode s (modeOf s.plat.vddCore)
      let s := s.modPlat (fun p => { p with train := { p.train with retrain := none } })
      if s.plat.dev = .train then s.enter .ready else s
    | none => s
  match s.plat.pwr with
  | .rising _ => .next (back s).cfgReject
  | .falling => .next (back s).cfgReject
  | _ => .next s

/-- BOND_RATE_RETRAIN_DONE: memory runs at the new bond rate: the device returns to READY (R20), and firmware
restarts cancelled repairs when auto_repair is set (R181). -/
def execBondRateRetrainDone (s : State) : Res :=
  match s.plat.train.retrain with
  | some m =>
    if s.plat.dev = .train ∧ s.fld PWR_MODE_mode = m.toNat then
      let s := s.modPlat (fun p => { p with train := { p.train with retrain := none } })
      let s := s.setFld CLK_CORE_CFG_dram_mhz (modeDram m.toNat)
      let go := decide (s.fld MEM_REPAIR_CTRL_auto_repair = 1)
      let s := (List.range 4).foldl (fun s q =>
        if (s.dom q).repair.again then
          (if go then s.setRepairState q 1 else s).modDom q (fun d => { d with repair := { d.repair with again := false } })
        else s) s
      .next (s.enter .ready)
    else .next s
  | none => .next s

/-! ## The landing of staged writes (R17, R370, R371) -/

/-- Every tile of the device is idle. -/
def allIdle (s : State) : Bool := s.tiles.all (fun p => !p.2.busy)

/-- The tick starts frame 0 of an attempt of a job: the attempt is due and some tile of the job may start. -/
def startsAttempt (s : State) (j : Nat) : Bool :=
  decide ((s.job j).phase = .opened) && !(s.job j).att.started && (s.job j).tiles.any (fun t => mayStart s t j)

/-- The block that owns a staged write is idle at the tick (Table SVC-2); a wedged block keeps its writes. -/
def stageIdle (s : State) (x : Staged) : Bool :=
  let j := x.key % 0x1000 / 0x100
  if x.block = 1 then allIdle s
  else if (x.block = 8 ∧ s.halted blkCxe) ∨ (x.block = 9 ∧ s.halted blkDxe) then false
  else if !(s.job j).running then true
  else if (s.regions j).isEmpty then s.tiles.all (fun p => !(s.job j).hasTile p.1 || !p.2.busy)
  else startsAttempt s j

/-- A staged write lands. PWR_MODE moves the core clock; into a slower mode the voltage then falls (R423). -/
def landStaged (s : State) (x : Staged) : State :=
  let s : State := { s with staged := s.staged.erase x }
  if x.block = 1 then
    let s := setMode s x.value
    if modeMv x.value < s.plat.vddCore then setVdd (s.modPlat (fun p => { p with pwr := .falling })) (modeMv x.value)
    else s.modPlat (fun p => { p with pwr := .none })
  else s.setReg x.key (withBits (s.reg x.key) x.lo x.hi x.value)

/-- The staged writes whose blocks are idle land in write order. -/
def landAll (s : State) : State := s.staged.foldl (fun s x => if stageIdle s x then landStaged s x else s) s

/-- STAGED_WRITE_LAND: the tick's staged writes land, before maps are switched and frames start (Table
ARC-2). -/
def execStagedWriteLand (s : State) : Res :=
  if 1 ≤ s.clock.order ∧ s.clock.order ≤ 2 then .next ((landAll s).modClock (fun c => { c with order := 2 })) else .next s

/-! ## Time (R16, R304, R390, R411, R429) -/

/-- A value of TICK_PERIOD is not reserved (Table REG-4). -/
def periodOk (period : Nat) : Bool := decide (4 ≤ period) && decide (period ≤ 128)

/-- TICK_PERIOD and TICK_PHASE hold values that are not reserved: the phase is smaller than the period in force (Table
REG-4). -/
def tickOk (period : Nat) (phase : Int) : Bool := periodOk period && decide (phase.natAbs < 1000 * period)

/-- A write of TICK_PERIOD or TICK_PHASE: whether it is accepted. Accepted in READY it takes effect at once,
and the next tick is placed anew (R406, R411). -/
def writeTick (s : State) (phase image : Bool) (v : Nat) : State × Bool :=
  let key := if phase then 0x2008 else 0x2000
  let new := if phase then v % 2 ^ 32 else v % 256 + bits v 32 51 * 2 ^ 32
  let period := if phase then s.fld TICK_PERIOD_period else v % 256
  let ph := signed 32 v
  if (phase ∧ period * 1000 ≤ ph.natAbs) ∨ (!phase ∧ (!periodOk period ∨ 600000 < bits v 32 51)) then (s.cfgReject, false)
  else if new = s.reg key then (s, true)
  else if s.plat.dev = .ready ∨ image then ((s.setReg key new).modClock (fun c => { c with realign := true, phaseErr := 0 }), true)
  else (s.cfgReject, false)

/-- TICK_WRITE (R411). -/
def execTickWrite (phase : Bool) (v : BitVec 64) (s : State) : Res := .next (writeTick s phase false v.toNat).1

/-- FIRST_TICK: both references are locked and the first tick falls at an aligned instant; TICK_COUNT is 0
(R390). -/
def execFirstTick (time : BitVec 64) (s : State) : Res :=
  if s.plat.dev = .train ∧ !s.clock.ticking ∧ s.fld PTP_STATUS_lock = 1 ∧ s.fld PPS_STATUS_lock = 1 ∧ s.aligned time.toNat then
    .next ((s.setFld TICK_COUNT_count 0).modClock (fun c => { c with
      siteTime := time.toNat, tickAt := time.toNat, ticking := true, freeRun := false, realign := false, phaseErr := 0, order := 0 }))
  else .next s

/-- PTP_WAIT_EXPIRY: ptp_wait has passed without lock: the first tick falls, free-running (R390). -/
def execPtpWaitExpiry (s : State) : Res :=
  if s.plat.dev = .train ∧ !s.clock.ticking then
    .next ((s.setFld TICK_COUNT_count 0).modClock (fun c => { c with tickAt := c.siteTime, ticking := true, freeRun := true, realign := false, order := 0 }))
  else .next s

/-- A timestamp at the resolution of 2 ns (R304). -/
def stamp (t : BitVec 64) : Nat := t.toNat / 2 * 2

/-- A Delay_Req leaves in answer to a Sync whose departure is known (R304). -/
def askDelay (s : State) (seq : BitVec 16) (origin arrival : Nat) (m : PtpMessage) : State :=
  (s.emit (.delayReq (BitVec.ofNat 16 s.clock.delaySeq))).modClock (fun c => { c with
    meas := some ⟨seq, some origin, arrival, some (stamp m.departure)⟩, delaySeq := (c.delaySeq + 1) % 65536 })

/-- A measurement is complete: the offset from the master is half the difference of the two ways. Site time is
corrected by it; the ticks stay where they are, and what that leaves them off is for the slew (R16, R304, DEDUCED, log
entry 61). -/
def measured (s : State) (x : PtpMeas) (origin request received : Nat) (now : Nat) : State :=
  let off : Int := (((x.arrival : Int) - origin) - ((received : Int) - request)) / 2
  (s.setFld PTP_STATUS_offset (unsigned 32 off)).modClock (fun c => { c with
    siteTime := ((now : Int) - off).toNat, tickAt := c.tickAt - off, phaseErr := if c.ticking then c.phaseErr + off else c.phaseErr,
    meas := none })

/-- PTP_MESSAGE: a PTP message of the device's domain. A one-step Sync, or a two-step one with its Follow_Up, is answered
by a Delay_Req, whose answer completes the measurement (R304). -/
def execPtpMessage (m : PtpMessage) (s : State) : Res :=
  if s.hostUp ∧ m.domain.toNat = s.fld HST_IP_CFG_ptp_domain then
    match m.kind with
    | .sync false seq origin => .next (askDelay s seq origin.toNat (stamp m.arrival) m)
    | .sync true seq _ => .next (s.modClock (fun c => { c with meas := some ⟨seq, none, stamp m.arrival, none⟩ }))
    | .followUp seq origin =>
      match s.clock.meas with
      | some x => .next (if x.seq = seq ∧ x.origin = none then askDelay s seq origin.toNat x.arrival m else s)
      | none => .next s
    | .delayResp seq received =>
      match s.clock.meas with
      | some x => match x.origin, x.request with
        | some o, some r =>
          .next (if seq.toNat = (s.clock.delaySeq + 65535) % 65536 then measured s x o r received.toNat (stamp m.arrival) else s)
        | _, _ => .next s
      | none => .next s
  else .next s

/-- PTP_LOCK: references lock; the phase error then found is slewed away tick by tick (R16). -/
def execPtpLock (ptp pps : Bool) (phaseErr : Int) (s : State) : Res :=
  let s := if ptp then (s.setFld PTP_STATUS_lock 1).setFld PTP_STATUS_holdover 0 else s
  let s := if pps then s.setFld PPS_STATUS_lock 1 else s
  .next (if s.clock.ticking then s.modClock (fun c => { c with phaseErr := phaseErr }) else s)

/-- PTP_LOCK_LOST: a reference is lost; the device ticks on and reports it (R16). -/
def execPtpLockLost (ptp pps : Bool) (s : State) : Res :=
  let held := decide (s.fld PTP_STATUS_lock = 1)
  let s := if ptp then s.setFld PTP_STATUS_lock 0 else s
  let s := if ptp ∧ held then s.setFld PTP_STATUS_holdover 1 else s
  .next (if pps then s.setFld PPS_STATUS_lock 0 else s)

/-- PPS_EDGE: an edge is sampled; one more than 1 µs off is ignored, its error reported (R429). -/
def execPpsEdge (err : BitVec 32) (s : State) : Res :=
  let s := s.setFld PPS_STATUS_edge_err err.toNat
  .next (if err.toInt.natAbs ≤ 1000 then s.setFld PPS_STATUS_present 1 else s)

/-- PPS_ABSENT: no edge for 1.5 s (R429). -/
def execPpsAbsent (s : State) : Res := .next (s.setFld PPS_STATUS_present 0)

/-! ## Fatal monitors (R354, R421, R425, R428) -/

def srcLerhus : Nat := 2
def srcTile : Nat := 3
def srcMem : Nat := 4
def srcPort : Nat := 5
def srcHost : Nat := 8
def srcCipher : Nat := 9
def srcEngine : Nat := 10
def srcPower : Nat := 11
def srcClocks : Nat := 12

/-- REFCLK_LOSS: the reference is gone (R428). -/
def execRefclkLoss (s : State) : Res := .next (fatal (s.setFld CLK_STATUS_ref_ok 0) srcClocks 0x0A 7 0)

/-- The clock status word without a domain's lock (R366, Table REG-4). -/
def unlock (s : State) (d : Nat) : State :=
  if d = 0 then s.setFld CLK_STATUS_core_lock 0
  else if d ≤ 4 then s.setReg 0x1008 (withBits (s.reg 0x1008) (d + 1) (d + 1) 0)
  else if d = 5 then s.setReg 0x1008 (withBits (s.reg 0x1008) 6 6 0)
  else if d = 6 then s.setReg 0x1008 (withBits (s.reg 0x1008) 7 7 0)
  else if d = 8 then s.setReg 0x1008 (withBits (s.reg 0x1008) 8 8 0)
  else if 16 ≤ d ∧ d < 26 then s.setReg 0x1008 (withBits (s.reg 0x1008) (d - 7) (d - 7) 0)
  else s

/-- PLL_LOST: the PLL of a clock domain of R366 loses lock, a fatal fault (R349, R354). -/
def execPllLost (domain : BitVec 5) (s : State) : Res :=
  let d := domain.toNat
  if d ≤ 8 ∨ (16 ≤ d ∧ d < 26) then .next (fatal (if d = 7 then s.setFld CLK_STATUS_ref_ok 0 else unlock s d) srcClocks 0x0A d 0)
  else .next s

/-- SUPPLY_FAULT: a rail is out of its total tolerance for more than 10 µs. VBYP alone is never fatal: while it is
out, bypass_arm cannot be set (R421, R425). -/
def execSupplyFault (rail : Fin 10) (mv : BitVec 64) (s : State) : Res :=
  if rail.val = 9 then
    let ok := decide (4500 ≤ mv.toNat) && decide (mv.toNat ≤ 5500)
    .next (s.modPlat (fun p => { p with vbypOk := ok }))
  else .next (fatal s srcPower 0x09 rail mv.toNat)

/-- PMB_ALERT: the regulator reports a fault and Lerhus reads its STATUS_WORD (R422): no register holds it, and
R423 acts on the 2 ms limit. -/
def execPmbAlert (_status : BitVec 16) (s : State) : Res := .next s

/-- LOCKSTEP_MISMATCH: fatal; only the ROM monitor runs then (R354). -/
def execLockstepMismatch (pc : BitVec 64) (s : State) : Res :=
  if s.mayFail then .next ((fatal s srcLerhus 0x0B pc.toNat 0).modPlat (fun p => { p with monitorOnly := true })) else .next s

/-- BYPASS_ARM: bypass_arm takes the value written; a 1 is refused while VBYP is out of tolerance (R223, R425):
whether it is accepted. -/
def writeBypassArm (s : State) (arm : Bool) : State × Bool :=
  if arm ∧ !s.plat.vbypOk then (s.cfgReject, false) else (s.setFld FAB_BYPASS_STATUS_bypass_arm (ofBool arm), true)

/-- BYPASS_ARM_WRITE (R425). -/
def execBypassArmWrite (arm : Bool) (s : State) : Res := .next (writeBypassArm s arm).1

/-! ## Temperatures and power (R21, R173, R174, R434) -/

/-- The hottest of a list of readings and the lowest number that shows it. -/
def hottest (l : List Int) : Int × Nat :=
  match l with
  | [] => (0, 0)
  | x :: r => ((r.zipIdx).foldl (fun m p => if m.1 < p.1 then (p.1, p.2 + 1) else m) (x, 0))

/-- Degrees Celsius as 1/16 °C. -/
def degC (n : Int) : Int := 16 * n

/-- One stack's sample: its reading, refresh rate and throttle (Table MEM-3, R173, R174). The rate and the
throttle end after 100 consecutive cool samples. -/
def sampleStack (s : State) (q : Nat) (l : List Int) : State :=
  let h := hottest l
  let t := h.1
  let c := (s.dom q).cool
  let up (n : Nat) (cool : Bool) : Nat := if cool then min 100 (n + 1) else 0
  let c : Cool := { c85 := up c.c85 (decide (t ≤ degC 83)), c95 := up c.c95 (decide (t ≤ degC 93)), c105 := up c.c105 (decide (t < degC 103)) }
  let rate := s.fld MEM_REFRESH_STATE_rate q
  let level := if degC 95 < t then 2 else if degC 85 < t then 1 else 0
  let keep := if rate = 2 ∧ c.c95 < 100 then 2 else if 1 ≤ rate ∧ c.c85 < 100 then 1 else 0
  let old := s.fld MEM_STACK_STATUS_throttle q
  let throttle := if degC 105 < t then 1 else if c.c105 < 100 then old else 0
  let s := (s.modDom q (fun d => { d with cool := c })).setFld MEM_REFRESH_STATE_rate (max level keep) q
  let s := (s.setFld MEM_REFRESH_STATE_throttle throttle q).setFld MEM_STACK_STATUS_throttle throttle q
  (s.setFld MEM_TEMP_temp (unsigned 16 t) q).setFld MEM_TEMP_sensor h.2 q

/-- The stack domains throttled under R174, as a mask. -/
def stackThrottles (s : State) : Nat := maskOf ((List.range 4).filter (fun q => decide (s.fld MEM_STACK_STATUS_throttle q = 1)))

/-- The logic throttle is in force: held in `coolLogic`, which counts cool samples from 1 while it is
(R434). -/
def State.hotLogic (s : State) : Bool := decide (s.coolLogic ≠ 0)

/-- The argument of notice 7 (R317). -/
def throttleBits (s : State) : Nat := stackThrottles s + 16 * ofBool s.hotLogic

/-- THERM_ALERT_N (Table ELE-3). -/
def setTherm (s : State) (on : Bool) : State :=
  if s.plat.thermAlert = on then s else (s.modPlat (fun p => { p with thermAlert := on })).emit (.pin pinTherm on)

/-- The reading of a critical entry in thousandths of a degree. -/
def milliC (t : Int) : Nat := (t * 1000 / 16).toNat

/-- The first of the sensors at a critical limit, by the numbers of R366, with its reading: the hottest of all,
the lowest-numbered of those that share it. -/
def critical (x : TempSample) : Option (Nat × Int) :=
  let g := hottest x.logic
  let ds := [hottest x.stack0, hottest x.stack1, hottest x.stack2, hottest x.stack3].zipIdx
  let hits := (if degC 115 ≤ g.1 then [(g.2, g.1)] else []) ++
    (ds.filter (fun p => decide (degC 110 ≤ p.1.1))).map (fun p => (64 + 48 * p.2 + p.1.2, p.1.1))
  match hits with
  | [] => none
  | h :: r => some (r.foldl (fun m p => if m.2 < p.2 then p else m) h)

/-- TEMP_SAMPLE: the 1 ms sample (R173, R174, R434). -/
def execTempSample (x : TempSample) (s : State) : Res :=
  let off := match s.plat.dev with
    | .off | .reset | .frozen => true
    | _ => false
  if off then .next s
  else
    let before := throttleBits s
    let s := sampleStack (sampleStack (sampleStack (sampleStack s 0 x.stack0) 1 x.stack1) 2 x.stack2) 3 x.stack3
    let g := (hottest x.logic).1
    let d := (hottest [(hottest x.stack0).1, (hottest x.stack1).1, (hottest x.stack2).1, (hottest x.stack3).1]).1
    let n := if degC 108 < g then 1
      else if s.coolLogic = 0 then 0
      else if degC 104 ≤ g then 1
      else if 100 ≤ s.coolLogic then 0
      else s.coolLogic + 1
    let s : State := { s with coolLogic := n }
    let s := (s.setFld THERM_STATUS_logic_temp (unsigned 16 g)).setFld THERM_STATUS_dram_temp (unsigned 16 d)
    let s := s.setFld THERM_STATUS_throttled (if s.hotLogic then 15 else stackThrottles s)
    let after := throttleBits s
    let s := if after = before then s else s.notify 7 0xFF after
    match critical x with
    | some (u, t) => if s.mayFail then .next (setTherm (fatal s srcPower 0x08 u (milliC t)) true) else .next s
    | none => .next (setTherm s (decide (after ≠ 0) || (decide (s.plat.dev = .fault) && s.plat.thermAlert)))

/-- POWER_SAMPLE: the package's power averaged over 1 ms; above the limit frame starts are held (R21). -/
def execPowerSample (watts : BitVec 16) (s : State) : Res :=
  let w := watts.toNat
  let l := (w :: s.clock.power).take 1000
  let s := s.modClock (fun c => { c with power := l })
  let s := (s.setFld PWR_TELEM_power_w w).setFld PWR_TELEM_peak_w (l.foldl max 0)
  .next (s.setFld PWR_TELEM_throttle (ofBool (decide (s.fld PWR_LIMIT_watts < w))))

end Sys2Proof.Machine
end

