-- ==== Sys2Proof/Machine/Codec.lean ====
section
/-! DEFINITION. The gauze codec (R187 to R195): compressed blocks, codebooks, slots and the codec
commands. -/
namespace Sys2Proof.Machine

/-! ## Blocks (R188, R189) -/

/-- The format of a slot's elements. -/
def codecFmt (fp16 : Bool) : Fmt := if fp16 then fmtFP16 else fmtBF16

/-- Bytes of a compressed block in a compression mode: 1 is 2×, 2 is 4×. -/
def blockBytes (mode : Nat) : Nat := if mode = 1 then 64 else 32

/-- Nibbles that a compressed block holds. -/
def blockNibbles (mode : Nat) : Nat := if mode = 1 then 110 else 46

/-- The magnitude of the difference of two finite values. -/
def distX (a b : XVal) : Nat × Int := match (addX a b.negate).1 with
  | .fin _ m e => (m, e)
  | _ => (0, 0)

/-- The index of the entry nearest to a value; the lower index on a tie. -/
def nearest (f : Fmt) (entries : List (BitVec 16)) (v : XVal) : Nat :=
  ((entries.zipIdx).foldl (fun (b : Option (Nat × (Nat × Int))) p =>
    let d := distX v (f.decode p.1.toNat)
    match b with
    | none => some (p.2, d)
    | some x => if magLe x.2.1 x.2.2 d.1 d.2 then some x else some (p.2, d)) none).map (·.1) |>.getD 0

/-- How an element is stored: its index, or none when it is not. -/
def storeIndex (f : Fmt) (entries : List (BitVec 16)) (code : Nat) : Option Nat :=
  match f.decode code with
  | .nan => none
  | .inf neg => some (if neg then 0 else 15)
  | .fin n m e => if m = 0 then none else some (nearest f entries (.fin n m e))

/-- Elements that an encoder counts as non-finite. -/
def nonFinites (f : Fmt) (codes : List Nat) : Nat := (codes.filter (fun c => !(f.decode c).isFin)).length

/-- The elements kept: all, or in a full block those of largest magnitude, the lower element on a
tie. -/
def keptElems (limit : Nat) (codes : List Nat) (idx : List (Option Nat)) : List (Option Nat) :=
  let live := (codes.zip idx).zipIdx.filterMap (fun p => p.1.2.map (fun _ => (p.1.1 % 2 ^ 15, p.2)))
  ((codes.zip idx).zipIdx).map (fun p => match p.1.2 with
    | none => none
    | some i =>
      let m := p.1.1 % 2 ^ 15
      let rank := (live.filter (fun x => decide (m < x.1) || (decide (m = x.1) && decide (x.2 < p.2)))).length
      if rank < limit then some i else none)

/-- An encoded block and the number of elements dropped (R188, R189). -/
def encodeBlock (mode slot gen : Nat) (fp16 : Bool) (entries : List (BitVec 16)) (codes : List Nat) : Bytes × Nat :=
  let idx := codes.map (storeIndex (codecFmt fp16) entries)
  let kept := keptElems (blockNibbles mode) codes idx
  let dropped := (idx.filter Option.isSome).length - (kept.filter Option.isSome).length
  let map := maskOf ((kept.zipIdx).filterMap (fun p => p.1.map (fun _ => p.2)))
  let nib := packElems 4 (kept.filterMap id)
  let body := toLE 8 map ++ toLE 1 (slot * 16 + (if dropped = 0 then 0 else 8) + gen) ++ nib
  (body ++ List.replicate (blockBytes mode - body.length) 0, dropped)

/-- The slot and generation of a compressed block's header. -/
def blockHead (b : Bytes) : Nat × Nat := ((b.getD 8 0).toNat / 16, (b.getD 8 0).toNat % 8)

/-- A decoded block of 64 elements. -/
def decodeBlock (mode : Nat) (entries : List (BitVec 16)) (b : Bytes) : Bytes :=
  let map := leNat (b.take 8)
  (List.range 64).flatMap (fun e =>
    if map.testBit e then
      let n := (setBitsOf map e).length
      if n < blockNibbles mode then
        let y := (b.getD (9 + n / 2) 0).toNat
        toLE 2 (entries.getD (if n % 2 = 0 then y % 16 else y / 16) 0).toNat
      else toLE 2 (Config.codecExtra b e).toNat
    else [0, 0])

/-- The 16-bit elements of bytes. -/
def elems16 : Bytes → List Nat
  | a :: b :: r => (a.toNat + 256 * b.toNat) :: elems16 r
  | _ => []

/-! ## Codebooks (R190) -/

/-- The key that orders element codes by value. -/
def codeKey (c : Nat) : Nat := if 2 ^ 15 ≤ c then c ^^^ 0xFFFF else c ^^^ 0x8000

/-- The code of a key; a code that is Inf or NaN gives the largest finite value of its sign. -/
def keyCode (f : Fmt) (k : Nat) : Nat :=
  let c := if 2 ^ 15 ≤ k then k ^^^ 0x8000 else k ^^^ 0xFFFF
  if (f.decode c).isFin then c else f.maxCode (decide (2 ^ 15 ≤ c))

/-- The bin counts of the finite non-zero elements. -/
def binCounts (f : Fmt) (codes : List Nat) : Sparse Nat :=
  codes.foldl (fun m c =>
    let v := f.decode c
    if v.isFin && !v.isZero then store m (codeKey c / 64) (look m (codeKey c / 64) 0 + 1) 0 else m) []

/-- The bin in which the cumulative count first exceeds a number. -/
def binOver (m : Sparse Nat) (n : Nat) : Nat :=
  ((m.foldl (fun (st : Nat × Option Nat) p =>
    let c := st.1 + p.2
    (c, match st.2 with
      | some b => some b
      | none => if n < c then some p.1 else none)) (0, none)).2).getD 0

/-- The 16 entries built from a source's elements. -/
def buildEntries (fp16 : Bool) (codes : List Nat) : List (BitVec 16) :=
  let f := codecFmt fp16
  let m := binCounts f codes
  let n := (m.map (·.2)).sum
  (List.range 16).map (fun i =>
    if n = 0 then 0 else BitVec.ofNat 16 (keyCode f (64 * binOver m ((2 * i + 1) * n / 32) + 32)))

/-! ## Slots (R191) -/

/-- A codec counter of a job counts on: 0 is counter 1 of R195. -/
def State.codecCount (s : State) (j k n : Nat) : State :=
  s.modJob j (fun x => { x with counters := store x.counters k (look x.counters k 0 + BitVec.ofNat 64 n) 0 })

/-! ## Commands (R192) -/

/-- The tile that put a descriptor is told of its completion (R104); a failure sets async_err. -/
def requestDone (s : State) (who : Desc) (tag : BitVec 32) (status : Nat) : State :=
  let s := s.modTile who.tile (fun x => { x with done := x.done ++ [(tag, decide (status ≠ stOk))] })
  if status = stOk then s else asyncFail s who.tile who.ctx who.index status

/-- A little-endian field of a descriptor. -/
def dfield (b : Bytes) (o n : Nat) : Nat := leNat ((b.drop o).take n)

/-- The completion tag of a codec command. -/
def codecTag (b : Bytes) : BitVec 32 := BitVec.ofNat 32 (dfield b 4 4)

/-- The source rows of a BUILD. -/
def buildRows (b : Bytes) : List (Nat × Nat) :=
  (List.range (dfield b 20 4)).map (fun r => ((dfield b 8 8 + r * dfield b 24 8) % 2 ^ 64, dfield b 16 4))

/-- A BUILD names no reserved value and its source and result lie in the job's memory (R190, R192). -/
def buildOk (mask : Nat) (b : Bytes) : Bool :=
  decide (dfield b 0 1 = 1) && decide (dfield b 1 1 < 2) && (decide (dfield b 2 1 = 6) || decide (dfield b 2 1 = 7)) &&
    decide (dfield b 16 4 % 128 = 0) &&
    decide (dfield b 48 16 = 0) && inJob mask (dfield b 32 8) 64 &&
    (buildRows b).all (fun r => decide (r.2 = 0) || inJob mask r.1 r.2)

/-- CODEC_BUILD: the build engine takes a BUILD from its domain's queue (R190, R191). It waits while no
slot is free or the engine is at work; a command with a reserved value is not executed. -/
def execCodecBuild (q : Fin 4) (s : State) : Res :=
  s.whenRuns <|
  if s.halted (blkCodec + q.val) then .next s else
  match s.owner q, (s.dom q).codecQ with
  | some j, d :: rest =>
    let b := d.bytes
    let pop (s : State) : State := s.modDom q (fun x => { x with codecQ := rest })
    if dfield b 0 1 = 2 then .next s
    else if !buildOk (s.job j).mask.toNat b then .next (requestDone (pop s) d (codecTag b) stJob)
    else if (List.range 16).any (fun k => decide (((s.job j).slot k).st = .building) && decide (((s.job j).slot k).dom = q)) then
      .next s
    else match (s.job j).freeSlots with
      | [] => .next s
      | k :: _ =>
        let fp16 := decide (dfield b 2 1 = 7)
        let reads := (buildRows b).map (fun r => s.readAt r.1 r.2)
        let bad := (reads.flatMap (·.2)).eraseDups
        let slot (c : CodeSlot) : CodeSlot :=
          { c with st := .building, gen := (c.gen + 1) % 8, queued := 0, stored := 0, fp16 := fp16,
                   persist := decide (dfield b 1 1 = 1) || (s.regions j).isEmpty,
                   entries := buildEntries fp16 (elems16 (reads.flatMap (·.1))), cmd := d, dom := q,
                   status := if bad.isEmpty then stOk else stMemUe }
        .next (memUe ((pop s).modSlot j k slot) j bad)
  | _, _ => .next s

/-- CODEC_BUILD_DONE: the codebook stands in every controller, the slot is HELD, the result is written
and the tile is told (R190, R191). -/
def execCodecBuildDone (j : Fin 4) (slot : Fin 16) (s : State) : Res :=
  s.whenRuns <|
  if s.halted (blkCodec + ((s.job j).slot slot).dom) then .next s else
  let c := (s.job j).slot slot
  if (s.job j).running ∧ c.st = .building then
    let b := c.cmd.bytes
    let body := [BitVec.ofNat 8 slot, BitVec.ofNat 8 c.gen] ++ List.replicate 6 0 ++
      c.entries.flatMap (fun e => toLE 2 e.toNat) ++ List.replicate 24 0
    let w := (s.modSlot j slot (fun c => { c with st := .held })).writeAt j (dfield b 32 8) body
    let s := memUe w.1 j w.2.2
    .next (requestDone s c.cmd (codecTag b) (if c.status = stOk then w.2.1 else c.status))
  else .next s

/-- CODEC_RELEASE: a RELEASE takes its count from a slot's stored count (R191). -/
def execCodecRelease (q : Fin 4) (s : State) : Res :=
  s.whenRuns <|
  if s.halted (blkCodec + q.val) then .next s else
  match s.owner q, (s.dom q).codecQ with
  | some j, d :: rest =>
    let b := d.bytes
    if dfield b 0 1 ≠ 2 then .next s
    else
      let s := s.modDom q (fun x => { x with codecQ := rest })
      let k := dfield b 3 1
      let flags := dfield b 1 1
      if (flags ≠ 0 ∧ flags ≠ 2) ∨ 16 ≤ k ∨ dfield b 48 16 ≠ 0 then
        .next (requestDone s d (codecTag b) stJob)
      else
        let n := dfield b 40 8
        let under := decide (((s.job j).slot k).stored < n)
        let s := s.modSlot j k (fun c => CodeSlot.settle { c with
          stored := c.stored - n, st := if c.st = .held ∧ flags = 2 then .closing else c.st })
        let s := if under then s.codecCount j 5 1 else s
        .next (requestDone s d (codecTag b) stOk)
  | _, _ => .next s

/-! ## Encoding and decoding in a transfer (R193 to R195) -/

/-- Encode the raw blocks of a row into the slot's form, with the counters. -/
def encodeRow (s : State) (j mode slot : Nat) (raw : Bytes) : Bytes × State :=
  (pieces 128 (raw.length + 1) raw).foldl (fun r b =>
    let c := (r.2.job j).slot slot
    let codes := elems16 b
    let e := encodeBlock mode slot c.gen c.fp16 c.entries codes
    let s := r.2.codecCount j 0 1
    let s := if e.2 = 0 then s else (s.codecCount j 1 1).codecCount j 2 e.2
    let s := s.codecCount j 3 (nonFinites (codecFmt c.fp16) codes)
    (r.1 ++ e.1, s.modSlot j slot (fun c => { c with stored := c.stored + 1, queued := c.queued - 1 }))) ([], s)

/-- Decode the blocks of a row: the raw bytes, whether a block's codebook was gone, and the counters. -/
def decodeRow (s : State) (j mode : Nat) (coded : Bytes) : Bytes × Bool × State :=
  (pieces (blockBytes mode) (coded.length + 1) coded).foldl (fun r b =>
    let h := blockHead b
    let c := (r.2.2.job j).slot h.1
    if c.st = .free ∨ c.gen ≠ h.2 then
      (r.1 ++ List.replicate 128 0, true, r.2.2.codecCount j 4 1)
    else (r.1 ++ decodeBlock mode c.entries b, r.2.1, r.2.2)) ([], false, s)

end Sys2Proof.Machine
end

