-- ==== Sys2Proof/Machine/Transfer.lean ====
section
/-! DEFINITION. DMA transfers, device queues, and the issue of puts and gets (R124, R125, R169, R170, R193,
R202 to R208). -/
namespace Sys2Proof.Machine

/-! ## DIN and DOUT -/

/-- The raw row length: all of s_len, or its low bits with codec set (R193). -/
def Dma.rowLen (d : Dma) : Nat := if d.codec then d.len.toNat % 2 ^ 18 else d.len.toNat

/-- The scratchpad and memory side of each row (R124). -/
def Dma.rowsAt (d : Dma) : List (Nat × Nat) :=
  (List.range d.rows).map (fun r =>
    ((d.spad.toNat + r * d.spitch.toNat) % 2 ^ 64, (d.mem.toNat + r * d.mpitch.toNat) % 2 ^ 64))

/-- Bytes on the memory side of a row. -/
def Dma.memLen (d : Dma) (mode : Nat) : Nat := if d.codec then d.rowLen / (if mode = 1 then 2 else 4) else d.rowLen

/-- One row's memory side is what R169, R170 and R187 permit: the rejection if not. -/
def memReject (mask : Nat) (d : Dma) (mode a : Nat) : Option Nat :=
  let n := d.memLen mode
  match placeOf a n with
  | .queue =>
    let o := queueOff a
    if !mask.testBit (queueDom a) || d.codec then some rejAddr
    else if 0x3040 < o + n then some rejAddr
    else if !d.out then none
    else if 0x3000 < o + n then some rejAddr
    else if n ≠ 64 then some rejRange
    else if o % 64 ≠ 0 then some rejAddr
    else none
  | .dram => if inQuarters mask a n then none else some rejAddr
  | .spad => if !d.codec && inJob mask a n then none else some rejAddr
  | _ => some rejAddr

/-- The rejection of a DIN or DOUT, if it breaks a rule (R124, R187, R193). -/
def dmaReject (mask mode : Nat) (d : Dma) : Option Nat :=
  let n := d.rowLen
  let rows := d.rowsAt
  if d.codec ∧ mode = 0 then some rejRange
  else if d.codec ∧ (n % 128 ≠ 0 ∨ bits d.len.toNat 18 59 ≠ 0 ∨ (!d.out ∧ bits d.len.toNat 60 63 ≠ 0)) then some rejRange
  else if d.imem ∧ (d.spad.toNat % 16 ≠ 0 ∨ n % 16 ≠ 0 ∨ d.spitch.toNat % 16 ≠ 0) then some rejAlign
  else if n = 0 ∨ 262144 < d.rows * n then some rejRange
  else if d.imem ∧ rows.any (fun r => decide (65536 < r.1 + n)) then some rejAddr
  else if !d.imem ∧ rows.any (fun r => !spadOk r.1 n) then some rejRange
  else if d.codec ∧ rows.any (fun r => decide (r.2 % blockBytes mode ≠ 0)) then some rejAlign
  else rows.findSome? (fun r => memReject mask d mode r.2)

/-- Issue a DIN or DOUT: an engine runs up to 16 transfers (R124). A codec DOUT queues its blocks with
its slot (R191). -/
def issueDma (out : Bool) (i : At) (f : LayR) (s : State) : Issue :=
  let j := (s.jobOfTile i.tile).getD 0
  let mode := s.fld MEM_CODEC_CFG_mode j
  let d : Dma :=
    { out := out, spad := s.sreg i f.fa, mem := s.sreg i f.fb, len := s.sreg i f.fc, mpitch := s.sreg i f.fd,
      spitch := s.sreg i f.fe, rows := auxBits f 10 25 + 1, codec := f.aux.getLsbD 1, imem := f.aux.getLsbD 0, blocks := 0 }
  let u : Uses := { a := true, b := true, c := true, d := true, e := true, aux := if out then 0x3FFFFE2 else 0x3FFFFE3 }
  if !unusedZero f u then .reject rejOpcode
  else if s.sregBusy i [f.fa, f.fb, f.fc, f.fd, f.fe] then .hold
  else match dmaReject (s.job j).mask.toNat mode d with
    | some code => .reject code
    | none =>
      let x := s.tile i.tile
      let same := x.asyncs.filter (fun a => match a.kind with
        | .dma e => decide (e.out = out)
        | _ => false)
      if 16 ≤ same.length then .hold
      else
        let slot := bits d.len.toNat 60 63
        let blocks := if out ∧ d.codec ∧ ((s.job j).slot slot).st = .held then d.rows * (d.rowLen / 128) else 0
        let s := if blocks = 0 then s else s.modSlot j slot (fun c => { c with queued := c.queued + blocks })
        let a : Async :=
          { id := x.asyncId, ctx := i.ctx, index := (x.ctx i.ctx).index, kind := .dma { d with blocks := blocks },
            event := auxBits f 5 9, done := 0, status := stOk, part := 0, buf := [] }
        .go (s.modTile i.tile (fun x => { x with asyncs := x.asyncs ++ [a] }))

/-- DIN starts an inbound transfer (R124). -/
def execDin (i : At) (f : LayR) (s : State) : Res := issue (.din i f) i s (issueDma false i f)
/-- DOUT starts an outbound transfer (R124). -/
def execDout (i : At) (f : LayR) (s : State) : Res := issue (.dout i f) i s (issueDma true i f)

/-! ## Device queues (R170) -/

/-- A queue of a stack domain's window, by offset: 0 lookup, 1 append, 2 codec. -/
def Domain.queue (x : Domain) (k : Nat) : List Desc :=
  if k = 0 then x.lookupQ else if k = 1 then x.appendQ else x.codecQ

def Domain.putQueue (x : Domain) (k : Nat) (d : Desc) : Domain :=
  if k = 0 then { x with lookupQ := x.lookupQ ++ [d] }
  else if k = 1 then { x with appendQ := x.appendQ ++ [d] }
  else { x with codecQ := x.codecQ ++ [d] }

/-- A row of 64 bytes enters a device queue if there is room. -/
def enterRow (s : State) (t : Nat) (a : Async) (r : Nat × Nat) : Option State :=
  let q := queueDom r.2
  let k := queueOff r.2 / 0x1000
  if 256 ≤ ((s.dom q).queue k).length then none
  else some (s.modDom q (fun x => x.putQueue k ⟨t, a.ctx, a.index, rdN (s.tile t).spad r.1 64⟩))

/-! ## Completion (R124, O-DONE) -/

/-- How far a transfer has come: the state, the transfer, and uncorrectable lines met. -/
structure Moved where
  s : State
  a : Async
  bad : List Nat

/-- The first failure stands as the status of the transfer. -/
def Moved.fail (m : Moved) (st : Nat) : Moved :=
  if m.a.status = stOk then { m with a := { m.a with status := st } } else m

/-- The accesses of a row's scratchpad side: one for each line; instruction memory takes a row, and a device queue a
descriptor, whole (R48, R170, R442). -/
def Dma.accesses (d : Dma) (r : Nat × Nat) : List (Nat × Nat) :=
  if d.imem ∨ (d.out ∧ placeOf r.2 d.rowLen = .queue) then [(r.1, d.rowLen)] else linePieces r.1 d.rowLen

/-- An access of a row inbound: with the first one the row has come from memory and through the codec. -/
def accessIn (t j mode : Nat) (d : Dma) (r p : Nat × Nat) (m : Moved) : Moved :=
  let m := if m.a.part = 0 then
      let got := m.s.readAt r.2 (d.memLen mode)
      let dec := if d.codec then decodeRow m.s j mode got.1 else (got.1, false, m.s)
      let m := { m with s := dec.2.2, a := { m.a with buf := dec.1 }, bad := m.bad ++ got.2 }
      let m := if got.2.isEmpty then m else m.fail stMemUe
      if dec.2.1 then m.fail stJob else m
    else m
  let bs := (m.a.buf.drop (p.1 - r.1)).take p.2
  { m with s := m.s.modTile t (fun x =>
      if d.imem then { x with imem := wrN x.imem p.1 bs } else { x with spad := wrN x.spad p.1 bs }) }

/-! ## The encoders' queues (R194) -/

/-- Blocks that wait at a channel's encoder. -/
def State.encAt (s : State) (p : Nat) : Nat := ((s.dom (p / 66)).encQ.filter (fun b => decide (b.chan = p))).length

/-- The encoder of a channel takes a block from its queue: its compressed block is written, and a failure stands as the
status of the transfer that brought it. -/
def encodeNext (s : State) (b : EncBlock) : State :=
  let e := encodeRow s b.job b.mode b.slot b.raw
  let w := e.2.writeAt b.job b.addr e.1
  let s := memUe w.1 b.job w.2.2
  if w.2.1 = stOk then s
  else s.modTile b.tile (fun x => { x with
    asyncs := modFirst (fun a => decide (a.id = b.async)) (fun a => if a.status = stOk then { a with status := w.2.1 } else a) x.asyncs })

/-- The encoders work off the blocks that wait, in order, but for those of channels that make no progress. -/
def drainEncoders (s : State) : State :=
  (List.range 4).foldl (fun s q =>
    let stuck (b : EncBlock) : Bool := s.halted (1056 + b.chan)
    let go := (s.dom q).encQ.filter (fun b => !stuck b)
    go.foldl encodeNext (s.modDom q (fun x => { x with encQ := x.encQ.filter stuck }))) s

/-- The raw blocks of a row that a codec DOUT has read, each with its channel. -/
def rowBlocks (s : State) (t j mode : Nat) (d : Dma) (a : Async) (r : Nat × Nat) : List EncBlock :=
  ((pieces 128 (a.buf.length + 1) a.buf).zipIdx).map (fun p =>
    let place := r.2 + p.2 * blockBytes mode
    let c := s.channelOf (s.job j).mask.toNat place
    { chan := 66 * c.1 + c.2, tile := t, async := a.id, job := j, slot := bits d.len.toNat 60 63, mode := mode, addr := place, raw := p.1 })

/-- Blocks enter the queues of their channels if every one of them has room for 256 in all. -/
def enterBlocks (s : State) (l : List EncBlock) : Option State :=
  if (l.map (·.chan)).eraseDups.all (fun p => decide (s.encAt p + (l.filter (fun b => decide (b.chan = p))).length ≤ 256)) then
    some (l.foldl (fun s b => s.modDom (b.chan / 66) (fun x => { x with encQ := x.encQ ++ [b] })) s)
  else none

/-- An access of a row outbound: with the last one the row goes into memory, or to the encoders once they have room. -/
def accessOut (t j mode : Nat) (d : Dma) (r p : Nat × Nat) (last : Bool) (m : Moved) : Option Moved :=
  let m := { m with a := { m.a with buf := m.a.buf ++ rdN (m.s.tile t).spad p.1 p.2 } }
  if !last then some m
  else if d.codec then (enterBlocks m.s (rowBlocks m.s t j mode d m.a r)).map (fun s => { m with s := s })
  else
    let w := m.s.writeAt j r.2 m.a.buf
    let m := { m with s := w.1, bad := m.bad ++ w.2.2 }
    some (if w.2.1 = stOk then m else m.fail w.2.1)

/-- The next access of a transfer is granted; a row into a full device queue waits (R170). -/
def moveOne (t j mode : Nat) (d : Dma) (m : Moved) : Moved :=
  match d.rowsAt[m.a.done]? with
  | none => m
  | some r =>
    let ps := d.accesses r
    let last := decide (ps.length ≤ m.a.part + 1)
    let step (m : Moved) : Moved :=
      { m with a := if last then { m.a with done := m.a.done + 1, part := 0, buf := [] } else { m.a with part := m.a.part + 1 } }
    match ps[m.a.part]? with
    | none => m
    | some p =>
      if d.out ∧ placeOf r.2 d.rowLen = .queue then
        match enterRow m.s t m.a r with
        | some s => step { m with s := s }
        | none => m
      else if d.out then match accessOut t j mode d r p last m with
        | some n => step n
        | none => m
      else step (accessIn t j mode d r p m)

/-- The accesses of all rows of a transfer. -/
def Dma.total (d : Dma) : Nat := ((d.rowsAt).map (fun r => (d.accesses r).length)).sum

/-- Blocks of a transfer wait at an encoder. -/
def State.encoding (s : State) (t id : Nat) : Bool :=
  (List.range 4).any (fun q => (s.dom q).encQ.any (fun b => decide (b.tile = t) && decide (b.async = id)))

/-- That many further accesses of a transfer are granted, row after row, as far as they can go; once all rows have
moved, and been encoded, the transfer completes and its event counts. What stood at the encoders before has left them
(DESIGN CHOICE, log entry 10). -/
def moveRows (s : State) (t j : Nat) (a : Async) (d : Dma) (n : Nat) : State :=
  let mode := s.fld MEM_CODEC_CFG_mode j
  let s := if d.out && d.codec then drainEncoders s else s
  let a := ((s.tile t).asyncs.find? (fun b => decide (b.id = a.id))).getD a
  let m := (List.range (min n d.total)).foldl (fun m _ => moveOne t j mode d m) { s := s, a := a, bad := [] }
  let s := memUe m.s j m.bad.eraseDups
  let s := s.modTile t (fun x => { x with asyncs := modFirst (fun b => decide (b.id = a.id)) (fun _ => m.a) x.asyncs })
  let s := if m.a.done = d.rows ∧ d.out ∧ d.codec then drainEncoders s else s
  if m.a.done = d.rows ∧ !s.encoding t a.id then
    let st := (((s.tile t).asyncs.find? (fun b => decide (b.id = a.id))).map (·.status)).getD m.a.status
    let s := if d.out ∧ d.codec then s.modSlot j (bits d.len.toNat 60 63) CodeSlot.settle else s
    asyncDone s t a.id st
  else s

/-- A row that remains lies in a channel whose controller makes no progress (R171). -/
def State.rowsStopped (s : State) (j : Nat) (a : Async) (d : Dma) : Bool :=
  (d.rowsAt.drop a.done).any (fun r => s.channelStopped (s.job j).mask.toNat r.2 (d.memLen (s.fld MEM_CODEC_CFG_mode j)))

/-- DMA_COMPLETE: by now that many further scratchpad accesses of a transfer have been granted; once all rows have
moved its data is visible and its event counts (R124, R130, R442, DESIGN CHOICE, log entry 10). A codec DOUT whose slot
was not HELD fails (R193); a transfer waits for a channel that makes no progress. -/
def execDmaComplete (t : Fin 1024) (id : Nat) (s : State) (n : Nat := 1) : Res :=
  if s.halted (s.phys t) then .next s else
  match (s.tile t).asyncs.find? (fun a => a.id = id), s.jobOfTile t with
  | some a, some j =>
    match a.kind with
    | .dma d =>
      if s.rowsStopped j a d then .next s
      else s.whenRuns (.next (if d.out ∧ d.codec ∧ d.blocks = 0 then asyncDone s t id stJob else moveRows s t j a d n))
    | _ => .next s
  | _, _ => .next s

/-- QUEUE_ROOM: waiting rows of a DOUT enter the queue that has gained room (R170). -/
def execQueueRoom (t : Fin 1024) (id : Nat) (s : State) : Res :=
  if s.halted (s.phys t) then .next s else
  match (s.tile t).asyncs.find? (fun a => a.id = id), s.jobOfTile t with
  | some a, some j => match a.kind with
    | .dma d =>
      if d.out ∧ !d.codec ∧ d.rowsAt.any (fun r => decide (placeOf r.2 d.rowLen = .queue)) then
        s.whenRuns (.next (moveRows s t j a d d.total))
      else .next s
    | _ => .next s
  | _, _ => .next s

/-! ## Puts and gets (R125, R202 to R210) -/

/-- The site, device and local address of a global address (R203). -/
def gSite (a : Nat) : Nat := bits a 54 63
def gDev (a : Nat) : Nat := bits a 42 53
def gLocal (a : Nat) : Nat := a % 2 ^ 42

/-- A device index that packets of a job may go to: of its slice, or a service endpoint (R204). -/
def State.reachable (s : State) (j dev : Nat) : Bool :=
  (s.job j).inSlice s.dims dev || s.plat.endpoints.any (fun e => decide (e.index.toNat = dev))

/-- A transfer is refused at the source (R204). -/
def State.noRoute (s : State) (j g n : Nat) : Bool :=
  decide (gSite g ≠ s.fld FAB_COORD_site) || !s.reachable j (gDev g) || decide (2 ^ 42 < gLocal g + n)

/-- The pieces of a range split at 4 KiB boundaries: offset and length (R206). -/
def splitAt4K (a : Nat) (n : Nat) : List (Nat × Nat) :=
  (List.range ((a + n - 1) / 4096 + 1 - a / 4096)).map (fun k =>
    let lo := max a (4096 * (a / 4096 + k))
    let hi := min (a + n) (4096 * (a / 4096 + k + 1))
    (lo - a, hi - lo))

/-- The flags byte of a packet: ordering class and notify (Table FAB-3). -/
def pktFlags (cls : Nat) (notify : Bool) : BitVec 8 := BitVec.ofNat 8 (cls * 64 + ofBool notify * 32)

/-- The packets of a PUT (R206). -/
def putPackets (s : State) (x : Xfer) : List Packet :=
  let ps := splitAt4K x.dstAddr.toNat x.len
  (ps.zipIdx).map (fun p =>
    { op := 1, flags := pktFlags x.cls x.notify.isSome, jobTag := (s.job x.job).tag,
      src := BitVec.ofNat 12 s.self, dst := x.dst, streamSeq := BitVec.ofNat 32 x.seq,
      xferId := BitVec.ofNat 16 x.id, pktIndex := BitVec.ofNat 16 p.2, pktCount := BitVec.ofNat 16 ps.length,
      notify := match x.notify with
        | some (t, e) => BitVec.ofNat 16 (t.toNat * 32 + e.toNat)
        | none => 0
      dstAddr := BitVec.ofNat 64 (x.dstAddr.toNat + p.1.1), payload := (x.data.drop p.1.1).take p.1.2 })

/-- The GET_REQ packet of a GET (R206). -/
def getPacket (s : State) (x : Xfer) : Packet :=
  { op := 2, flags := pktFlags x.cls false, jobTag := (s.job x.job).tag, src := BitVec.ofNat 12 s.self, dst := x.dst,
    streamSeq := BitVec.ofNat 32 x.seq, xferId := BitVec.ofNat 16 x.id, pktIndex := 0, pktCount := 1, notify := 0,
    dstAddr := x.srcAddr, payload := toBE 8 x.len ++ toBE 8 x.dstAddr.toNat }

/-- The packets of a LOG_ENTRY transfer: at most two, split at byte 4,096 (R209). -/
def logPackets (s : State) (x : Xfer) : List Packet :=
  let ps := pieces 4096 2 x.data
  (ps.zipIdx).map (fun p =>
    { op := 5, flags := pktFlags 2 false, jobTag := (s.job x.job).tag, src := BitVec.ofNat 12 s.self, dst := x.dst,
      streamSeq := BitVec.ofNat 32 x.seq, xferId := BitVec.ofNat 16 x.id, pktIndex := BitVec.ofNat 16 p.2,
      pktCount := BitVec.ofNat 16 ps.length, notify := 0, dstAddr := 0, payload := p.1 })

/-- Send the packets of a transfer, or send them again. -/
def sendXfer (s : State) (x : Xfer) : State :=
  if x.log then (logPackets s x).foldl (fun s k => sendPacket s k) s
  else if x.get then sendPacket s (getPacket s x)
  else (putPackets s x).foldl (fun s k => sendPacket s k) s

/-- The next number of a stream of this device, and the state with it taken (R210). -/
def State.takeSeq (s : State) (j cls : Nat) : Nat × State :=
  let n := ((s.router.seqs.find? (fun p => p.1 = j ∧ p.2.1 = cls)).map (·.2.2)).getD 0
  (n, s.modRouter (fun r => { r with
    seqs := (j, cls, (n + 1) % 2 ^ 32) :: r.seqs.filter (fun p => !(decide (p.1 = j) && decide (p.2.1 = cls))) }))

/-- Start a transfer that this device sources: it is numbered and its packets leave. -/
def startXfer (s : State) (x : Xfer) : State :=
  let q := s.takeSeq x.job x.cls
  let x := { x with id := s.router.xferNext % 2 ^ 16, seq := q.1 }
  sendXfer (q.2.modRouter (fun r => { r with xfers := r.xfers ++ [x], xferNext := r.xferNext + 1 })) x

/-- Issue a PUT or GET (R125): at most 64 of a tile are in flight. -/
def issuePutGet (get : Bool) (i : At) (f : LayR) (s : State) : Issue :=
  let notify := !get && f.aux.getLsbD 7
  let aux := if get then 0x7F else if notify then 0x7FFFFF else 0xFF
  if !unusedZero f { a := true, b := true, c := true, aux := aux } then .reject rejOpcode
  else if s.sregBusy i [f.fa, f.fb, f.fc] then .hold
  else
    let j := (s.jobOfTile i.tile).getD 0
    let local' := (s.sreg i f.fa).toNat
    let g := (s.sreg i f.fb).toNat
    let n := (s.sreg i f.fc).toNat
    let cls := auxBits f 0 1
    let x := s.tile i.tile
    let flying := x.asyncs.filter (fun a => match a.kind with
      | .put _ => true
      | .get => true
      | _ => false)
    if n = 0 ∨ 2 ^ 26 < n then .reject rejRange
    else if !inJob (s.job j).mask.toNat local' n then .reject rejAddr
    else if 64 ≤ flying.length then .hold
    else
      let a : Async :=
        { id := x.asyncId, ctx := i.ctx, index := (x.ctx i.ctx).index, kind := if get then .get else .put cls,
          event := auxBits f 2 6, done := 0, status := stOk, part := 0, buf := [] }
      let s := s.modTile i.tile (fun x => { x with asyncs := x.asyncs ++ [a] })
      if s.noRoute j g n then .go (asyncDone s i.tile a.id stRoute)
      else
        let src := if get then ([], []) else s.readAt local' n
        let y : Xfer :=
          { id := 0, job := j, tile := i.tile, async := a.id, event := a.event, log := false, get := get, cls := cls,
            seq := 0, dst := BitVec.ofNat 12 (gDev g),
            dstAddr := BitVec.ofNat 64 (if get then local' else gLocal g),
            srcAddr := BitVec.ofNat 64 (if get then gLocal g else local'), len := n,
            notify := if notify then some (BitVec.ofNat 10 (auxBits f 13 22), BitVec.ofNat 5 (auxBits f 8 12)) else none,
            data := src.1, got := [], resend := false, fullWait := false, status := if src.2.isEmpty then stOk else stMemUe, dom := 0, tag := 0 }
        .go (memUe (startXfer s y) j src.2)

/-- PUT starts a transfer to a global address (R125). -/
def execPut (i : At) (f : LayR) (s : State) : Res := issue (.put i f) i s (issuePutGet false i f)
/-- GET starts a transfer from a global address (R125). -/
def execGet (i : At) (f : LayR) (s : State) : Res := issue (.get i f) i s (issuePutGet true i f)

end Sys2Proof.Machine
end

