-- ==== Sys2Proof/Machine/Glog.lean ====
section
/-! DEFINITION. The gradient log (R153, R183 to R186, R209): appends, entries at the owner, application in log
order and write-back. -/
namespace Sys2Proof.Machine

/-- A log table descriptor (Table MEM-7). -/
structure LogTable where
  state : Nat
  acc : Nat
  rows : Nat
  d : Nat
  program : Nat
  fmt : Nat
  nlr : Nat
  eps2 : Nat
  owners : Nat
  list : Nat
  rsv : Nat
  deriving DecidableEq, Repr

/-- A descriptor from its 64 bytes. -/
def logTable (b : Bytes) : LogTable :=
  { state := dfield b 0 8, acc := dfield b 8 8, rows := dfield b 16 4, d := dfield b 20 2, program := dfield b 22 1,
    fmt := dfield b 23 1, nlr := dfield b 24 4, eps2 := dfield b 28 4, owners := dfield b 32 2, list := dfield b 40 8,
    rsv := dfield b 34 6 + dfield b 48 16 }

/-- The 64 bytes of a table's descriptor. -/
def State.logTableBytes (s : State) (k : Nat) : Bytes := s.mem (s.glogBase + 64 * k) 64

/-- Bytes of an element of a 16- or 32-bit float format. -/
def floatBytes (fmt : Nat) : Nat := if fmt = 8 then 4 else 2

/-- The values of a table descriptor are not reserved. -/
def LogTable.ok (t : LogTable) : Bool :=
  decide (16 ≤ t.d) && decide (t.d ≤ 1024) && decide (t.d % 16 = 0) && decide (t.program ≤ 1) &&
    (decide (t.fmt = 6) || decide (t.fmt = 7) || decide (t.fmt = 8)) && decide (1 ≤ t.owners) && decide (t.owners ≤ 4096) &&
    decide (t.rsv = 0)

/-! ## Appending (R184) -/

/-- An append descriptor names no reserved value and its lists lie in the job's memory (Table MEM-8). -/
def appendOk (s : State) (j : Nat) (b : Bytes) : Bool :=
  let t := logTable (s.logTableBytes (dfield b 20 2))
  let n := dfield b 16 4
  let mask := (s.job j).mask.toNat
  s.glogOn j && decide (1 ≤ n) && decide (n ≤ 65536) && decide (dfield b 20 2 < 256) && decide (dfield b 22 2 = 0) &&
    decide (dfield b 32 32 = 0) && t.ok && inJob mask (dfield b 0 8) (8 * n) && inJob mask t.list (4 * t.owners) &&
    (List.range n).all (fun p => inJob mask (dfield b 8 8 + p * dfield b 24 4) (t.d * floatBytes t.fmt))

/-- The entry of index position p, without the padding of the ring. -/
def appendEntry (s : State) (j : Nat) (who : Desc) (seq row p : Nat) (grad : Bytes) : GEntry :=
  { step := BitVec.ofNat 64 (s.step j), table := dfield who.bytes 20 2, row := BitVec.ofNat 64 row, origin := BitVec.ofNat 22 s.origin,
    tile := who.tile, seq := seq, position := p, grad := grad, committed := false, done := false }

/-- An append entry's transfer is over: its descriptor completes with its last entry (R184, R209). -/
def appendLanded (s : State) (q : Nat) (tag : BitVec 32) (who : Nat) (ok : Bool) : State :=
  match (s.dom q).appends.find? (fun a => decide (a.tag = tag) && decide (a.who.tile = who)) with
  | none => s
  | some a =>
    let hit (b : Append) : Bool := decide (b.tag = tag) && decide (b.who.tile = who)
    let a := { a with left := a.left - 1, failed := a.failed || !ok }
    if a.left = 0 then
      let s := s.modDom q (fun d => { d with appends := d.appends.eraseP hit })
      requestDone s a.who a.tag (if a.failed then stAddr else stOk)
    else s.modDom q (fun d => { d with appends := modFirst hit (fun _ => a) d.appends })

/-- GLOG_APPEND: an append descriptor is taken from the queue, its entries leave for their owners (R184,
R209). -/
def execGlogAppend (q : Fin 4) (s : State) : Res :=
  s.whenRuns <|
  match s.owner q, (s.dom q).appendQ with
  | some j, d :: rest =>
    let b := d.bytes
    let tag := BitVec.ofNat 32 (dfield b 28 4)
    let seq := (s.tile d.tile).appends
    let s := (s.modDom q (fun x => { x with appendQ := rest })).modTile d.tile (fun x => { x with appends := x.appends + 1 })
    if !appendOk s j b then .next (requestDone s d tag stJob)
    else
      let t := logTable (s.logTableBytes (dfield b 20 2))
      let n := dfield b 16 4
      let idx := s.readAt (dfield b 0 8) (8 * n)
      let owners := s.readAt t.list (4 * t.owners)
      let rows := (List.range n).map (fun p => (p, leNat ((idx.1.drop (8 * p)).take 8)))
      let live := rows.filter (fun r => decide (r.2 < t.rows))
      let grads := live.map (fun r => (r, s.readAt (dfield b 8 8 + r.1 * dfield b 24 4) (t.d * floatBytes t.fmt)))
      let bad := (idx.2 ++ owners.2 ++ s.ueIn (s.glogBase + 64 * dfield b 20 2) 64 ++ grads.flatMap (fun g => g.2.2)).eraseDups
      let oob (p : Nat) : Exc := { kind := excLookup, frame := tag.toNat, tile := 0, index := 0, row := p, array := 0, column := 0 }
      let s := s.modLed j (fun l => (rows.filter (fun r => !decide (r.2 < t.rows))).foldl (fun l r => l.note (oob r.1)) l)
      if !bad.isEmpty then .next (requestDone (memUe s j bad) d tag stMemUe)
      else if live.isEmpty then .next (requestDone s d tag stOk)
      else
        let s := s.modDom q (fun x => { x with appends := x.appends ++ [⟨d, tag, live.length, false⟩] })
        .next (grads.foldl (fun s g =>
          let dev := leNat ((owners.1.drop (4 * (g.1.2 % t.owners))).take 4)
          let e := appendEntry s j d seq g.1.2 g.1.1 g.2.1
          if dev / 4096 ≠ s.fld FAB_COORD_site ∨ !s.reachable j (dev % 4096) then appendLanded s q tag d.tile false
          else
            startXfer s
              { id := 0, job := j, tile := d.tile, async := 0, event := 0, log := true, get := false, cls := 2, seq := 0,
                dst := BitVec.ofNat 12 dev, dstAddr := 0, srcAddr := 0, len := 32 + g.2.1.length, notify := none,
                data := e.bytes.take (32 + g.2.1.length), got := [], resend := false, fullWait := false, status := stOk, dom := q, tag := tag }) s)
  | _, _ => .next s

/-! ## The ring at the owner (R183, R209) -/

/-- Bytes of the ring. -/
def State.ringSize (s : State) : Nat := s.glogSize - 65536

/-- Bytes that a list of entries occupies. -/
def ringBytes (l : List GEntry) : Nat := (l.map GEntry.size).sum

/-- Write bytes at a running position of the ring. -/
def ringWrite (s : State) (pos : Nat) (bs : Bytes) : State :=
  let n := s.ringSize
  let a := pos % n
  let base := s.glogBase + 65536
  (s.setMem (base + a) (bs.take (n - a))).setMem base (bs.drop (n - a))

/-- Bytes at a running position of the ring. -/
def ringRead (s : State) (pos k : Nat) : Bytes :=
  let n := s.ringSize
  let a := pos % n
  let base := s.glogBase + 65536
  s.mem (base + a) (min k (n - a)) ++ s.mem base (k - (n - a))

/-- A log entry from its 32 bytes of head and its gradient (Table MEM-9). -/
def entryOf (b : Bytes) (committed : Bool) : GEntry :=
  { step := BitVec.ofNat 64 (dfield b 0 8), row := BitVec.ofNat 64 (dfield b 8 8), table := dfield b 16 2,
    origin := BitVec.ofNat 22 (dfield b 20 4), tile := dfield b 24 2, seq := dfield b 26 2, position := dfield b 28 4,
    grad := (b.drop 32).take (dfield b 18 2), committed := committed, done := false }

/-- An entry lands at its owner's provisional tail: the status of its transfer (R209). An entry that the
provisional ones alone leave no room for aborts the attempt with GLOG_FULL (R153). -/
def logLand (s : State) (j : Nat) (b : Bytes) : State × Nat :=
  if !s.glogOn j ∨ 256 ≤ dfield b 16 2 ∨ b.length ≠ 32 + dfield b 18 2 then (s, stAddr)
  else
    let e := entryOf b false
    let x := s.job j
    if ringBytes x.glog + e.size ≤ s.ringSize then
      let s := ringWrite s (x.gHead + ringBytes x.glog) e.bytes
      (glogSync (s.modJob j (fun x => { x with glog := x.glog ++ [e] })) j, stOk)
    else if s.ringSize < ringBytes (x.glog.filter (fun e => !e.committed)) + e.size then (raiseAbort s j reasonGlogFull 0, stFull)
    else (s, stFull)

/-! ## Application (R185, R186) -/

/-- The lag L. -/
def State.glogLag (s : State) : Nat := s.fld MEM_GLOG_SIZE_lag

/-- An entry may be applied: committed, and the first attempt of step t + L has opened. -/
def State.due (s : State) (j : Nat) (e : GEntry) : Bool :=
  let x := s.job j
  let t := e.step.toNat + s.glogLag
  e.committed && !e.done &&
    (decide (t < s.step j) || (decide (t = s.step j) && (x.att.started || decide (x.attemptNo ≠ 0))))

/-- Log order (R185). -/
def GEntry.before (a b : GEntry) : Bool :=
  let k (e : GEntry) : List Nat := [e.step.toNat, e.table, e.row.toNat, e.origin.toNat, e.tile, e.seq, e.position]
  decide (k a < k b)

def insertEntry (e : GEntry) : List GEntry → List GEntry
  | [] => [e]
  | x :: r => if e.before x then e :: x :: r else x :: insertEntry e r

/-- Entries in log order. -/
def logOrder (l : List GEntry) : List GEntry := l.foldl (fun a e => insertEntry e a) []

/-- Whether an entry is of a step, table and row. -/
def GEntry.isOf (e : GEntry) (step table row : Nat) : Bool :=
  decide (e.step.toNat = step) && decide (e.table = table) && decide (e.row.toNat = row)

/-- rsqrt32 of R158. -/
def rsqrt32 (a : Nat) : Nat := fmtFP32.rne (fnOne32 3 (fp32 a)).1

/-- One entry applied to a row by the reference of R186. -/
def applyEntry (t : LogTable) (wa : List Nat × Nat) (grad : Bytes) : List Nat × Nat :=
  let k := floatBytes t.fmt
  let g := ((pieces k (grad.length + 1) grad).map leNat).map (fun c => fmtFP32.rne (decodeFmt t.fmt false c))
  if t.program = 0 then ((wa.1.zip g).map (fun p => fma32 t.nlr p.2 p.1), wa.2)
  else
    let s := g.foldl (fun s v => fma32 v v s) 0
    let a := fma32 (ratio32 1 t.d) s wa.2
    let q := mul32 t.nlr (rsqrt32 (add32 a t.eps2))
    ((wa.1.zip g).map (fun p => fma32 q p.2 p.1), a)

/-- A global address on this device. -/
def State.ownAddr (s : State) (g : Nat) : Bool := decide (gSite g = s.fld FAB_COORD_site) && decide (gDev g = s.self)

/-- Where an entry stands in the ring: its running position. -/
def entryPos (x : Job) (e : GEntry) : Nat := x.gHead + ringBytes (x.glog.takeWhile (fun y => !decide (y = e)))

/-- Uncorrectable lines of an entry in the ring. -/
def entryUe (s : State) (j : Nat) (e : GEntry) : List Nat :=
  let n := s.ringSize
  let a := entryPos (s.job j) e % n
  let base := s.glogBase + 65536
  s.ueIn (base + a) (min e.size (n - a)) ++ s.ueIn base (e.size - (n - a))

/-- A read of committed entries met uncorrectable lines: they are kept for repair from a peer and the attempt
aborts with MEM_UE (R149, R177). -/
def glogUe (s : State) (j : Nat) (lines : List Nat) : State :=
  memUe (s.modAtt j (fun a => { a with damage := lines.foldl (fun d l => addTo l d) a.damage })) j lines

/-- The tables as they stood when the entries of a step were begun. -/
def tablesAt (s : State) (j t : Nat) : List (Nat × Bytes) :=
  match (s.job j).gTables with
  | some (u, l) => if u = t then l else []
  | none => []

/-- The lookup engine that applies a row: that of the job's stack domain in slot row mod m (R185). -/
def rowEngine (x : Job) (row : Nat) : Nat := x.domains.getD (row % x.domains.length) 0

/-- GLOG_APPLY: the entries of the next row in log order, of one step, are applied to its weights `w` and
accumulator `acc`, which for a row in local DRAM are those that stand there (R185, R186). Rows of an engine that makes no
progress wait. -/
def execGlogApply (j : Fin 4) (w : List (BitVec 32)) (acc : BitVec 32) (s : State) : Res :=
  s.whenRuns <|
  let x := s.job j
  let busy (e : GEntry) : Bool := x.applying.any (fun r => decide (r.table = e.table) && decide (r.row = e.row.toNat)) ||
    s.halted (blkLookup + rowEngine x e.row.toNat)
  match logOrder (x.glog.filter (fun e => s.due j e && !busy e)) with
  | [] => .next s
  | e :: r =>
    let step := e.step.toNat
    let row := e.row.toNat
    if !x.running ∨ x.applying.any (fun y => decide (y.step < step)) ∨ x.glog.any (fun y => s.due j y && decide (y.step.toNat < step)) then .next s
    else
      let mine := (e :: r).filter (fun y => y.isOf step e.table row)
      let place := s.glogBase + 64 * e.table
      let desc := if (assoc (tablesAt s j step) e.table).isSome then [] else s.ueIn place 64
      let bad := (desc ++ mine.flatMap (entryUe s j)).eraseDups
      if !bad.isEmpty then .next (glogUe s j bad)
      else
        let held := tablesAt s j step
        let tb := (assoc held e.table).getD (s.logTableBytes e.table)
        let t := logTable tb
        let wa := t.state + 4 * t.d * row
        let aa := t.acc + 4 * row
        let wr := s.readAt (gLocal wa) (4 * t.d)
        let ar := s.readAt (gLocal aa) 4
        let w0 := if s.ownAddr wa then ((pieces 4 (t.d + 1) wr.1).map leNat) else w.map BitVec.toNat
        let a0 := if s.ownAddr aa then leNat ar.1 else acc.toNat
        let lost := ((if s.ownAddr wa then wr.2 else []) ++ (if t.program = 1 ∧ s.ownAddr aa then ar.2 else [])).eraseDups
        if w0.length ≠ t.d then .next s
        else
          let out := mine.foldl (fun wa e => applyEntry t wa e.grad) (w0, a0)
          let s := s.modJob j (fun x => { x with
            gTables := some (step, if (assoc held e.table).isSome then held else held ++ [(e.table, tb)]),
            applying := x.applying ++ [⟨step, e.table, row, out.1.map (BitVec.ofNat 32), BitVec.ofNat 32 out.2⟩] })
          .next (memUe s j lost)

/-- Applied entries leave the ring at its head. -/
def dropDone (s : State) (j : Nat) : State :=
  let l := (s.job j).glog
  let gone := l.takeWhile (·.done)
  glogSync (s.modJob j (fun x => { x with glog := l.drop gone.length, gHead := x.gHead + ringBytes gone })) j

/-- Write a word or a row at a global address: here, or by a transfer of the device. -/
def rowWrite (s : State) (j g : Nat) (bs : Bytes) : State :=
  if s.ownAddr g then
    let r := s.writeAt j (gLocal g) bs
    memUe r.1 j r.2.2
  else s.emit (.rowWrite (BitVec.ofNat 64 g) bs)

/-- GLOG_WRITEBACK_DONE: the oldest row under application is written back whole and its entries are applied
(R106, R185). -/
def execGlogWritebackDone (j : Fin 4) (s : State) : Res :=
  s.whenRuns <|
  match (s.job j).applying with
  | [] => .next s
  | r :: rest =>
    if s.halted (blkLookup + rowEngine (s.job j) r.row) then .next s else
    let t := logTable ((assoc (tablesAt s j r.step) r.table).getD (s.logTableBytes r.table))
    let s := s.modJob j (fun x => { x with
      applying := rest, glog := x.glog.map (fun e => if e.committed && e.isOf r.step r.table r.row then { e with done := true } else e) })
    let s := rowWrite s j (t.state + 4 * t.d * r.row) (r.w.flatMap (fun v => toLE 4 v.toNat))
    let s := if t.program = 1 then rowWrite s j (t.acc + 4 * r.row) (toLE 4 r.acc.toNat) else s
    .next (dropDone s j)

/-- The entries between two running positions of the ring, as memory holds them (R359). -/
def ringEntries (s : State) (committed : Bool) (pos stop : Nat) : Nat → List GEntry
  | 0 => []
  | fuel + 1 =>
    if stop ≤ pos then []
    else
      let e := entryOf (ringRead s pos (32 + dfield (ringRead s pos 32) 18 2)) committed
      e :: ringEntries s committed (pos + e.size) stop fuel

/-- The log as its region holds it, after a copy from a peer (R359). -/
def glogLoad (s : State) (j : Nat) : State :=
  if s.glogOn j then
    let w (o : Nat) : Nat := leNat (s.mem (s.glogBase + 16384 + o) 8)
    s.modJob j (fun x => { x with gHead := w 0, glog := ringEntries s true (w 0) (w 8) (s.ringSize / 64), applying := [], gTables := none })
  else s

end Sys2Proof.Machine
end

