-- ==== Sys2Proof/Machine/MemoryOps.lean ====
section
/-! DEFINITION. Channel repair, the patrol scrub, and the error counters of the stacks (R167, R175 to R181,
R352, R379). Physical channel c of stack q is numbered 66q + c. -/
namespace Sys2Proof.Machine

def State.setChanPhys (s : State) (q c p : Nat) : State :=
  s.setReg (chanKey q c) (withBits (s.reg (chanKey q c)) (8 * (c % 8)) (8 * (c % 8) + 7) p)

/-- The logical channel served by a physical one. -/
def State.chanLogical (s : State) (q p : Nat) : Option Nat := (List.range 64).find? (fun c => decide (s.chanPhys q c = p))

/-- A repair of a stack is under way. -/
def State.repairing (s : State) (q : Nat) : Bool := decide (s.repairState q = 1 ∨ s.repairState q = 2)

/-- A physical channel is a free spare: in no map, not failed, not freed for a test, and not the target of a
repair. -/
def State.chanFree (s : State) (q p : Nat) : Bool :=
  decide (p < 66) && (s.chanLogical q p).isNone && !s.spares.badChans.contains (66 * q + p) && !s.spares.testChans.contains (66 * q + p) &&
    !(s.repairing q && decide ((s.dom q).repair.spare = p))

/-- The free spare channels of a stack. -/
def State.freeChans (s : State) (q : Nat) : List Nat := (List.range 66).filter (s.chanFree q)

/-- SVC_BIST_RESULT reports a test (R419). -/
def setBist (s : State) (kind unit outcome : Nat) : State :=
  s.setReg 0xD018 (kind + outcome * 16 + unit * 256 + s.clock.siteTime / 1000000000 % 2 ^ 32 * 2 ^ 32)

/-- The entry of cause 0x0F for a channel: 0 started, 1 done, 2 failed (R367). -/
def repairEntry (s : State) (q p what : Nat) : State :=
  logEntry s 0 srcMem 0x0F (if what = 1 then 2 else 0) 0 (256 * q + p) what false

/-- Notice 6: a channel repair is done or has failed; no rule gives its argument (DESIGN CHOICE, log entry 2). -/
def repairNotice (s : State) : State := s.draw.2.notify 6 0xFF s.draw.1.toNat

/-- A repair starts in COPY (R178, R179). -/
def startRepair (s : State) (q c p : Nat) (test : Bool) : State :=
  let s := (s.setRepairState q 1).modDom q (fun d => { d with repair := { d.repair with
    chan := c, spare := p, pending := [], test := test, again := false, wanted := d.repair.wanted.filter (fun n => decide (n ≠ c)) } })
  let s := s.modSvc (fun v => { v with march := v.march.filter (fun n => decide (n ≠ 66 * q + p)) })
  repairEntry s q (s.chanPhys q c) 0

/-- A request for a repair: accepted when the spare is free and the stack has no repair under way, else ignored
with cfg_reject (R178). -/
def requestRepair (s : State) (q c p : Nat) : State × Bool :=
  if s.chanFree q p && !s.repairing q then (startRepair s q c p false, true) else (s.cfgReject, false)

/-- A write of MEM_REPAIR_CTRL: its fields land, and go requests the repair they name (R412). -/
def writeRepairCtrl (s : State) (v : Nat) : State × Bool :=
  if bits v 32 47 = 0 then (s.cfgReject, false)
  else
    let s := s.setReg 0x3010 (bits v 0 0 + bits v 8 9 * 2 ^ 8 + bits v 16 21 * 2 ^ 16 + bits v 24 24 * 2 ^ 24 + bits v 32 47 * 2 ^ 32)
    if bit v 63 then requestRepair s (bits v 8 9) (bits v 16 21) (64 + bits v 24 24) else (s, true)

/-- REPAIR_REQUEST (R178, R412). -/
def execRepairRequest (v : BitVec 64) (s : State) : Res := .next (writeRepairCtrl s v.toNat).1

/-- REPAIR_COPY_DONE: the copy is complete; with no line pending the repair waits for the switch (R180). A
pending line has cleared once it was written whole. -/
def execRepairCopyDone (q : Fin 4) (s : State) : Res :=
  let left := (s.dom q).repair.pending.filter s.ue.contains
  let s1 := s.modDom q (fun d => { d with repair := { d.repair with pending := left, since := s.clock.tickAt } })
  if s.repairState q = 1 then s.whenRuns (.next (if left.isEmpty then s1.setRepairState q 2 else s1)) else .next s

/-- A stack whose channel is beyond repair is withdrawn, cause 0x04 (R352). -/
def channelLost (s : State) (q p pending : Nat) (inj : Bool) : State := withdrawDomain s q srcMem 0x04 (256 * q + p) pending inj

/-- Committed entries of the gradient log that lie on a line. -/
def glogOnLine (s : State) (j line : Nat) : Bool :=
  s.glogOn j && (s.job j).glog.any (fun e =>
    let n := s.ringSize
    let a := entryPos (s.job j) e % n
    let base := s.glogBase + 65536
    e.committed && !e.done && (overlaps line 64 (base + a) (min e.size (n - a)) || overlaps line 64 base (e.size - (n - a))))

/-- The patrol scrub or a repair copy meets an uncorrectable line: counted; a job whose live copy or committed
log entry it damages aborts with MEM_UE (Table MEM-4). -/
def scrubUe (s : State) (line : Nat) : State :=
  let s : State := { s with ue := addTo line s.ue }
  let live (j : Nat) : Bool := (s.regions j).any (fun r => overlaps line 64 r.live r.size)
  let hit := s.runningJobs.filter (fun j => live j || glogOnLine s j line)
  if hit.isEmpty then s.count MEM_ECC_COUNT_uncorrectable
  else hit.foldl (fun s j => if live j then memUe s j [line] else glogUe s j [line]) s

/-- A channel meets a condition of R176: firmware repairs it onto the lowest free spare, or reports it; with no
free spare the stack domain is withdrawn (R176, R352). While the stack is under repair the condition waits. -/
def wantRepair (s : State) (q c : Nat) (inj : Bool) : State :=
  if s.fld MEM_REPAIR_CTRL_auto_repair = 0 then (s.setFld MEM_STACK_STATUS_repair_wanted 1 q).setFld MEM_STACK_STATUS_want_chan c q
  else if s.withdrawn q then s
  else if s.repairing q then
    if (s.dom q).repair.chan = c then s
    else s.modDom q (fun d => { d with repair := { d.repair with wanted := addTo c d.repair.wanted } })
  else match s.freeChans q with
    | p :: _ => startRepair s q c p false
    | [] => channelLost s q (s.chanPhys q c) 0 inj

/-- A repair has ended: firmware starts the next that a condition of R176 waits for. -/
def nextRepair (s : State) (q : Nat) : State :=
  match (s.dom q).repair.wanted with
  | [] => s
  | c :: r => wantRepair (s.modDom q (fun d => { d with repair := { d.repair with wanted := r } })) q c false

/-- CHANNEL_SWITCH: at the next tick, before frames start, the map moves the logical channel onto the spare; the
old physical channel leaves service, or goes to its test (R17, R180, R379). -/
def execChannelSwitch (q : Fin 4) (s : State) : Res :=
  s.whenRuns <|
  if 1 ≤ s.clock.order ∧ s.clock.order ≤ 3 ∧ s.repairState q = 2 ∧ s.clock.tickAt ≠ (s.dom q).repair.since then
    let r := (s.dom q).repair
    let old := 66 * q + s.chanPhys q r.chan
    let s := ((s.setChanPhys q r.chan r.spare).setRepairState q 3).modClock (fun c => { c with order := 3 })
    let s := s.modSpares (fun x => if r.test then { x with testChans := addTo old x.testChans } else { x with badChans := addTo old x.badChans })
    .next (nextRepair (repairNotice (repairEntry s q (old % 66) 1)) q)
  else .next s

/-- REPAIR_FAILED: lines prove uncorrectable in the copy. They are pending; with more than 64 the repair ends
FAILED and the spare is released (R179); a channel whose repair has failed twice withdraws its stack domain
(R352). -/
def execRepairFailed (q : Fin 4) (lines : List (BitVec 42)) (s : State) : Res :=
  if s.repairState q = 1 ∧ s.blocksRun then
    let ls := (lines.map (fun l => 64 * (l.toNat / 64))).filter (fun l => decide (l < 4 * quarter))
    let s := ls.foldl scrubUe s
    let r := (s.dom q).repair
    let pend := ls.foldl (fun p l => addTo l p) (r.pending.filter s.ue.contains)
    let s := s.modDom q (fun d => { d with repair := { d.repair with pending := pend } })
    if pend.length ≤ 64 then .next s
    else
      let again := r.failures.contains r.chan
      let p := s.chanPhys q r.chan
      let s := (s.setRepairState q 4).modDom q (fun d => { d with repair := { d.repair with failures := addTo r.chan r.failures } })
      let s := repairNotice (repairEntry s q p 2)
      let s := if r.test then (setBist s 3 (66 * q + p) 2).modSvc (fun v => { v with bistBusy := false }) else s
      .next (nextRepair (if again then channelLost s q p pend.length false else s) q)
  else .next s

/-- REPAIR_THRESHOLD: corrected events of a channel exceed repair_threshold within 1 s (R176). -/
def execRepairThreshold (q : Fin 4) (chan : Fin 64) (s : State) : Res := s.whenRuns (.next (wantRepair s q chan false))

/-- BOND_GROUP_FAILURE: one bond group fails on 16 consecutive reads (R176). -/
def execBondGroupFailure (q : Fin 4) (chan : Fin 64) (s : State) : Res := s.whenRuns (.next (wantRepair s q chan false))

/-- PATROL_SCRUB: the scrub reads a line, or another reader does and finds more than data (R175 to R177). A line that is
uncorrectable stays so until it is written whole; a reader other than the scrub meets it with its own command. A command
retried counts in cmd_retries (DEDUCED, log entry 125). -/
def execPatrolScrub (line : BitVec 42) (r : LineRead) (s : State) (other : Bool := false) : Res :=
  let l := 64 * (line.toNat / 64)
  if (!other ∧ s.fld MEM_CTRL_patrol_en = 0) ∨ 4 * quarter ≤ l then .next s
  else s.whenRuns (.next (match r with
    | .retried => s.count MEM_ECC_COUNT_cmd_retries
    | .corrected => if s.ue.contains l then (if other then s else scrubUe s l) else s.count MEM_ECC_COUNT_corrected
    | .clean => if s.ue.contains l && !other then scrubUe s l else s
    | .uncorrectable => if other then { s with ue := addTo l s.ue } else scrubUe s l))

/-- MEM_ECC_COUNT is zeroed (R412). -/
def clearEcc (s : State) : State := s.setReg 0x3008 0

/-- ECC_CLEAR (R412). -/
def execEccClear (s : State) : Res := .next (clearEcc s)

end Sys2Proof.Machine
end

