-- ==== Sys2Proof/Machine/TrainStep.lean ====
section
/-! DEFINITION. The training step: the STEP and DXE instructions, decisions, the commit act, the close of an
aborted attempt, repairs and digest comparisons (R117, R126, R127, R135 to R165, R247 to R249, R252, R258,
R359). -/
namespace Sys2Proof.Machine

/-! ## The STEP and DXE instructions (R117, R126, R127) -/

/-- Issue an instruction of the STEP or DXE class: only context 2 of a lead tile may. -/
def issueStep (op : Instr) (i : At) (s : State) (formOk : Bool) (regs : List (BitVec 5)) (act : State → Nat → Issue) : Res :=
  issue op i s (fun s =>
    if !formOk then .reject rejOpcode
    else if !(s.isLead i.tile && decide (i.ctx = 2)) then .reject rejContext
    else if s.sregBusy i regs then .hold
    else act s ((s.jobOfTile i.tile).getD 0))

/-- SCOMMIT requests the commit of the step being computed and waits for the outcome (R126). -/
def execScommit (i : At) (f : LayR) (s : State) : Res :=
  issueStep (.scommit i f) i s (unusedZero f { a := true, b := true }) [f.fa, f.fb] (fun s j =>
    if (s.sreg i f.fb).toNat ≠ s.step j then .reject rejStep
    else .go (s.modTile i.tile (fun x => x.modCtx i.ctx (fun y => { y with run := .scommit f.fa.toNat }))))

/-- SABORT aborts the step with a program reason (R148). -/
def execSabort (i : At) (f : LayR) (s : State) : Res :=
  issueStep (.sabort i f) i s (unusedZero f { b := true, aux := 0xFF }) [f.fb] (fun s j =>
    if (s.sreg i f.fb).toNat ≠ s.step j then .reject rejStep
    else .go (raiseAbort s j reasonProgram (auxBits f 0 7)))

/-- DCLOSE declares a round closable (R127). With the exchange disabled it completes with an error (R252); for
a round that is closed already it completes at once. -/
def execDclose (i : At) (f : LayR) (s : State) : Res :=
  issueStep (.dclose i f) i s (unusedZero f { b := true, aux := 0x1F }) [f.fb] (fun s j =>
    let x := s.tile i.tile
    let r := s.sreg i f.fb
    let on := decide (s.fld DXE_CTRL_enable j = 1)
    if on ∧ s.closable j ≠ some r.toNat then .reject rejStep
    else
      let a : Async :=
        { id := x.asyncId, ctx := i.ctx, index := (x.ctx i.ctx).index, kind := .dclose r, event := auxBits f 0 4, done := 0, status := stOk, part := 0, buf := [] }
      let s := s.modTile i.tile (fun x => { x with asyncs := x.asyncs ++ [a] })
      if !on then .go (asyncDone s i.tile a.id stJob)
      else if (s.job j).dxe.closed = some r.toNat ∧ !(s.job j).dxe.liveReading then .go (asyncDone s i.tile a.id stOk)
      else .go (s.modAtt j (fun a => { a with dcloses := addTo i.tile a.dcloses })))

/-- What DSTAT reads: the current round, the last sealed round, or whether an anchor awaits installation. None
for a reserved selector; a round that does not exist yet is free (DESIGN CHOICE, log entry 2). -/
def dstat (s : State) (j sel : Nat) : Option (Word × State) :=
  let x := s.job j
  if sel = 0 then
    if s.step j < s.fld DXE_ROUND_s0 j then some s.draw else some (BitVec.ofNat 64 (s.roundNow j), s)
  else if sel = 1 then
    if x.dxe.sealedNext = 0 then some s.draw else some (BitVec.ofNat 64 (x.dxe.sealedNext - 1), s)
  else if sel = 2 then some (BitVec.ofNat 64 (ofBool x.anchorReady), s)
  else none

/-- DSTAT reads the exchange's progress. -/
def execDstat (i : At) (f : LayR) (s : State) : Res :=
  issueStep (.dstat i f) i s (unusedZero f { a := true, imm := immAll } && decide (f.imm.toNat < 3)) [f.fa] (fun s j =>
    match dstat s j f.imm.toNat with
    | none => .reject rejOpcode
    | some (v, s) => .go (s.putSreg i f.fa v))

/-! ## The vote (R143, R144) -/

/-- Every lead tile's context 2 waits in SCOMMIT. -/
def allScommit (s : State) (j : Nat) : Bool :=
  ((s.job j).tiles.filter s.isLead).all (fun t => match (s.tile t).ctx2.run with
    | .scommit _ => true
    | _ => false)

/-- No tile of a job has an asynchronous instruction in flight. -/
def noAsyncs (s : State) (j : Nat) : Bool := s.tiles.all (fun p => !(s.job j).hasTile p.1 || p.2.asyncs.isEmpty)

/-- The conditions of R143. -/
def voteReady (s : State) (j : Nat) : Bool :=
  let x := s.job j
  x.running && decide (x.phase = .opened) && x.att.started && allScommit s j && noAsyncs s j &&
    x.colls.all (fun c => !c.bucket || decide (c.phase = .done)) && !x.dxe.liveReading && x.dig.open_.isEmpty

/-- VOTE_SEND: once every vote condition holds the device votes; its record goes on when those it is due have
come (R143, R144, R241). -/
def execVoteSend (j : Fin 4) (s : State) : Res :=
  s.whenRuns (if voteReady s j then
    let s := (s.modJob j (fun x => { x with phase := .voting })).modAtt j (fun a => { a with voted := true })
    .next (tryVote s j (s.job j).anchorReady)
  else .next s)

/-- VOTE_TIMEOUT: vote_timeout has run out in VOTING: the missing voters are reported as suspected lost, and the
attempt aborts (R148). -/
def execVoteTimeout (j : Fin 4) (missing : List (BitVec 12)) (s : State) : Res :=
  s.whenRuns (if (s.job j).phase = .voting then
    let s := missing.foldl (fun s d => s.notify 3 j (s.fld FAB_COORD_site * 4096 + d.toNat)) s
    .next (raiseAbort s j reasonVoteTimeout 0)
  else .next s)

/-- The host aborts an attempt that is OPEN or VOTING; at any other time nothing happens (R147). -/
def abortByHost (s : State) (j : Nat) : State :=
  match (s.job j).phase with
  | .opened | .voting => raiseAbort s j reasonHost 0
  | _ => s

/-- HOST_ABORT (R147). -/
def execHostAbort (j : Fin 4) (s : State) : Res := s.whenRuns (.next (abortByHost s j))

/-! ## The commit act (R147, R160, R161, R248) -/

/-- The regions that change copies: those written, or all in an armed attempt. -/
def changing (s : State) (j : Nat) : List (Region × Nat) :=
  ((s.tracked j).zipIdx).filter (fun p => (s.job j).att.armed || p.1.flags.testBit 1)

/-- Digest-flagged regions written in the attempt whose every line was written once, and those where a count
differs (R160). -/
def digestsOf (s : State) (j : Nat) : List Nat × List Nat :=
  let ks := (changing s j).filter (fun p => p.1.flags.testBit 0)
  let good (p : Region × Nat) : Bool := decide (look (s.job j).dig.lines p.2 0 = p.1.size / 128)
  ((ks.filter good).map (·.2), (ks.filter (fun p => !good p)).map (·.2))

/-- The new table of an armed attempt goes to the position of R137 (R248). -/
def adoptTable (s : State) (j : Nat) : State :=
  let a := (s.job j).att.table
  s.setMem (s.tableBase j) (s.mem a (tableBytes (regionsAt s a 1024).length))

/-- Exchange the copies of the changing regions, clear the device's flags, set last_step (R147, R248). -/
def swapCopies (s : State) (j step : Nat) : State :=
  let ks := (changing s j).map (·.2)
  ((s.regions j).zipIdx).foldl (fun s p =>
    let r := p.1
    s.putRegion j p.2 (if ks.contains p.2 then { r with live := r.pend, pend := r.live, flags := r.flags % 2, last := step % 2 ^ 32 }
      else { r with flags := r.flags % 2 })) s

/-! Digest comparison (R161, Table STP-5). -/

/-- A comparison of a region is over: the attempt's ledger entry says so. -/
def resolveDigest (s : State) (j k : Nat) : State :=
  (s.modJob j (fun x => { x with dig := { x.dig with
    open_ := x.dig.open_.filter (· ≠ k), peers := x.dig.peers.filter (fun p => decide (p.2.1 ≠ k)) } })).modLed j (fun l =>
      { l with flags := l.flags ||| 2 })

/-- The digest held by a strict majority of a list. -/
def majorDigest (l : List (BitVec 256)) : Option (BitVec 256) :=
  l.find? (fun d => decide (l.length < 2 * (l.filter (fun e => decide (e = d))).length))

/-- The write digests of a region: the own one first, then those of the other groups; none while one is
missing. -/
def digestsHeld (s : State) (j k : Nat) : Option (List (BitVec 256)) :=
  let x := s.job j
  let got (g : Nat) : Option (BitVec 256) := (x.dig.peers.find? (fun p => decide (p.1 = g) && decide (p.2.1 = k))).map (·.2.2)
  let others := s.otherGroups j
  if others.all (fun g => (got g).isSome) then some (look x.dig.kept k 0 :: others.filterMap got) else none

/-- Once every digest of a region due for comparison has come they are compared: equal ones end it, a mismatch counts, and
one that a strict majority shares with this device is over here (Table STP-5). Else the region is re-read. -/
def compareDigests (s : State) (j k : Nat) : State :=
  if !(s.job j).dig.open_.contains k then s
  else match digestsHeld s j k with
    | some (own :: rest) =>
      if rest.all (fun d => decide (d = own)) then resolveDigest s j k
      else
        let s := s.modLed j (fun l => { l with flags := l.flags ||| 4, mismatches := satTo 16 (l.mismatches + 1) })
        if majorDigest (own :: rest) = some own then resolveDigest s j k else s
    | _ => s

/-- Write digests of an interval's commit are kept and leave for every other contributing group; what had come from the
others before is compared (R161). -/
def sendDigests (s : State) (j step : Nat) (ks : List Nat) : State :=
  let n := s.fld STEP_DIGEST_CFG_interval j
  let acc := (s.job j).dig.acc
  let s := s.modJob j (fun x => { x with dig := { x.dig with acc := [], lines := [], kinds := [] } })
  if n = 0 ∨ step % n ≠ 0 then s
  else
    let others := s.otherGroups j
    let kept := ks.foldl (fun m k => store m k (look acc k 0) 0) []
    let s := s.modJob j (fun x => { x with dig := { x.dig with kept := kept, open_ := if others.isEmpty then [] else ks } })
    let s := others.foldl (fun s g => ks.foldl (fun s k => s.emit (.digest j g k (look acc k 0))) s) s
    ks.foldl (fun s k => compareDigests s j k) s

/-- The SCOMMITs of the job's contexts complete, writing 0 (R126, R147). -/
def completeCommits (s : State) (j : Nat) : State :=
  s.forTiles (s.job j).hasTile (fun s t => s.modTile t (fun x => match x.ctx2.run with
    | .scommit sd => { x with ctx2 := { (x.ctx2.setSreg sd 0) with run := .running } }
    | _ => x))

/-- Where a job goes once its commit is done (Table STP-2, R258, R359). -/
def afterCommit (s : State) (j : Nat) (stop : Bool) : State :=
  if stop ∨ s.plat.dev = .drain then stopJob s j
  else
    let hold := closeExceeds s j
    let s := if hold then s.count DXE_STATUS_close_waits 1 j else s
    s.modJob j (fun x => { x with
      holdAct := hold, phase := if hold || !x.rejoining.isEmpty then .repairing else .opened })

/-- The commit act. The ledger entry carries the step that commits. -/
def commitAct (s : State) (j : Nat) (anchor : Bool) : State :=
  let a := (s.job j).att
  let step := s.step j
  let s := takeExcs s j
  let s := if a.armed then adoptTable s j else s
  let s := if anchor then installRound s j true else s
  let s := markInvalid s j
  let digs := digestsOf s j
  let flips := (changing s j).length
  let s := swapCopies s j step
  let s := if a.armed then (s.setFld CXE_EPOCH_epoch ((s.fld CXE_EPOCH_epoch j + 1) % 2 ^ 32) j).setFld CXE_EPOCH_arm 0 j else s
  let flags := ofBool anchor + 8 * ofBool (!digs.2.isEmpty) + 16 * ofBool a.armed
  let s := writeLedger s j { outcome := 0, reason := 0, prog := 0, origin := 0, flags := flags, flips := flips }
  let s := s.setFld STEP_NUMBER_step ((step + 1) % 2 ^ 64) j
  let s := s.modJob j (fun x => { x with
    attemptNo := 0, led := Ledger.reset, colls := [], bucketNext := 0, sealedNext := 0, sealReports := [], divisors := [], logged := [],
    readyEarly := x.readyEarly.filter (fun p => decide (p.1.step.toNat ≠ step % 2 ^ 32)),
    glog := x.glog.map (fun e => { e with committed := true }),
    att := { Attempt.reset with rejoinDue := a.rejoinDue } })
  let s := sendDigests s j step digs.1
  let s := completeCommits (glogSync (endSlots s j false) j) j
  afterCommit s j (a.stopNext || a.stopCommit)

/-! ## Decisions (R239, R241) -/

/-- norm ≤ norm_limit² in FP64, the square exact; a norm that is not finite never meets a limit (R144, R146). -/
def normMeets (norm limit : Nat) : Bool :=
  let n := fp64 norm
  n.isFin && (match cmpX n (mulX (fp32 limit) (fp32 limit)).1 with
    | some .lt => true
    | some .eq => true
    | _ => false)

/-- The reason that a decision VOTE refuses with, the lowest of those it shows; 0 when it carries (R144). -/
def refusal (s : State) (j : Nat) (d : Decision) : Nat :=
  let limit := s.fld STEP_CTRL_norm_limit j
  let rs := (if d.veto = 0 then [] else [d.veto.toNat]) ++ (if d.flags.getLsbD 0 then [reasonLoss] else []) ++
    (if d.flags.getLsbD 1 then [reasonGrad] else []) ++ (if limit ≠ 0 ∧ !normMeets d.norm.toNat limit then [reasonNorm] else [])
  match rs with
  | [] => 0
  | x :: r => r.foldl min x

/-- The vote carried: the commit act, unless a round close still reads live state (R127, R147). -/
def carry (s : State) (j : Nat) (anchor : Bool) : State :=
  if (s.job j).dxe.liveReading then
    (s.modJob j (fun x => { x with phase := .committing })).modAtt j (fun a => { a with commitHeld := true })
  else commitAct s j anchor

/-- DECIDE VOTE applied (R144, R147, R241). A refusal for another device's SABORT carries no program reason: free. A rejoin that
the vote decides takes effect with the commit (R359). -/
def applyVote (s : State) (j : Nat) (d : Decision) : State :=
  let x := s.job j
  let why := refusal s j d
  if !x.att.started then s
  else match x.phase with
    | .opened | .voting =>
      let voted := decide (x.phase = .voting)
      let limit := if s.fld STEP_CTRL_norm_limit j = 0 then 0 else 64
      let s := if voted then s.modLed j (fun l => { l with tVote := s.clock.siteTime, normSq := d.norm, flags := l.flags ||| limit }) else s
      if why ≠ 0 then
        let p := if why = reasonProgram then (s.draw.1.toNat % 256, s.draw.2) else (0, s)
        beginAbort p.2 j why p.1 d.origin.toNat
      else if voted then
        carry (s.modJob j (fun x => { x with rejoining := (d.rejoin.map (·.toNat)).toList })) j (d.flags.getLsbD 2)
      else s
    | .aborting => if why = 0 then s else noteReason s j why 0 d.origin.toNat
    | _ => s

/-- Apply a decision by its kind: 1 SEAL, 2 EXCLUDE, 3 VOTE (Table COL-5). -/
def applyDecision (s : State) (j kind : Nat) (d : Decision) : State :=
  if kind = 1 then applySeal s j d else if kind = 2 then applyExclude s j d else applyVote s j d

/-- Apply the decisions held, in sequence order; the last 16 applied are kept. -/
def drainDecisions (s : State) (j : Nat) : Nat → State
  | 0 => s
  | fuel + 1 =>
    let a := (s.job j).att
    match a.decisions.find? (fun d => decide (d.1 = a.decided + 1)) with
    | none => s
    | some d =>
      let s := s.modAtt j (fun a => { a with
        decided := d.1, decisions := a.decisions.filter (fun e => decide (d.1 < e.1 + 16)) })
      drainDecisions (applyDecision s j d.2.1 d.2.2) j fuel

/-- A decision arrives: it is kept unless it has been applied, and what is next in sequence is applied. -/
def takeDecision (s : State) (j kind : Nat) (d : Decision) : State :=
  let a := (s.job j).att
  let n := d.number.toNat
  if !(s.job j).running ∨ n ≤ a.decided ∨ a.decisions.any (fun e => decide (e.1 = n)) then s
  else
    let s := s.modAtt j (fun a => { a with decisions := a.decisions ++ [(n, kind, d)] })
    drainDecisions s j (a.decisions.length + 1)

/-- A device of the group that rejoins enters REPAIRING with the commit of the vote that decides it (R359). -/
def takeRejoin (s : State) (j : Nat) (d : Decision) : State :=
  if (s.job j).running ∧ (s.job j).att.rejoinDue ∧ !(s.job j).att.started ∧ refusal s j d = 0 ∧ d.rejoin.map (·.toNat) = some (s.ownGroup j) then
    s.modJob j (fun x => { x with phase := .repairing, rejoining := [s.ownGroup j] })
  else s

/-- What had come for the attempt that is now the present one is taken (R239). -/
def replayEarly (s : State) (j : Nat) : State :=
  let l := (s.job j).early
  l.foldl (fun s i => match i with
      | .reportSeal _ r => inAttempt s j r.tag i (fun s => takeSealReport s j r)
      | .reportVote _ r => inAttempt s j r.tag i (fun s => takeVoteReport s j r)
      | .decideSeal _ d => inAttempt s j d.tag i (fun s => takeDecision s j 1 d)
      | .decideExclude _ d => inAttempt s j d.tag i (fun s => takeDecision s j 2 d)
      | .decideVote _ d => inAttempt s j d.tag i (fun s => takeDecision s j 3 d)
      | _ => s) (s.modJob j (fun x => { x with early := [] }))

/-- A decision of a kind arrives. -/
def decideArm (s : State) (j kind : Nat) (d : Decision) (op : Instr) : Res :=
  s.whenRuns (if s.halted blkCxe then .next s
    else .next (replayEarly (inAttempt s j d.tag op (fun s => takeDecision s j kind d)) j))

/-- DECIDE_SEAL: a bucket is sealed (R240). -/
def execDecideSeal (j : Fin 4) (d : Decision) (s : State) : Res := decideArm s j 1 d (.decideSeal j d)
/-- DECIDE_EXCLUDE: a replica group leaves the attempt (R243). -/
def execDecideExclude (j : Fin 4) (d : Decision) (s : State) : Res := decideArm s j 2 d (.decideExclude j d)
/-- DECIDE_VOTE: the attempt commits or aborts (R241). -/
def execDecideVote (j : Fin 4) (d : Decision) (s : State) : Res :=
  if (s.job j).att.rejoinDue ∧ !(s.job j).att.started then s.whenRuns (if s.halted blkCxe then .next s else .next (takeRejoin s j d))
  else decideArm s j 3 d (.decideVote j d)

/-- A new coordinator that has every APPLIED report applies what it holds, numbers on from the highest decision applied
anywhere, sends each device the decisions that it lacks, and then decides the losses (R244). -/
def finishGather (s : State) (j : Nat) : State :=
  let a := (s.job j).att
  let live := ((s.job j).devices s.dims).filter (fun v => s.liveDev j v && decide (v ≠ s.self))
  let of (v : Nat) : Option Report := a.applied.find? (fun r => decide (r.sender.toNat = v))
  if a.gathering ∧ live.all (fun v => (of v).isSome) then
    let top := (live.filterMap of).foldl (fun m r => max m r.applied.toNat) a.decided
    let s := drainDecisions (s.modAtt j (fun a => { a with issued := top, applied := [], gathering := false })) j (a.decisions.length + 1)
    let s := (live.filterMap of).foldl (fun s r =>
      ((s.job j).att.decisions.filter (fun d => decide (r.applied.toNat < d.1))).foldl (fun s d => sendDecide s j d.2.1 r.sender.toNat d.2.2) s) s
    let lost := (((s.job j).lostDevs.map (s.groupOfDev j)).eraseDups).filter (s.job j).contributes
    lost.foldl (fun s k => issueExclude s j k) s
  else s

/-- A decision that a peer holds is kept with the own ones. -/
def keepDecision (s : State) (j kind : Nat) (d : Decision) : State :=
  s.modAtt j (fun a =>
    if d.number.toNat ≤ a.decided ∨ a.decisions.any (fun e => decide (e.1 = d.number.toNat)) then a
    else { a with decisions := a.decisions ++ [(d.number.toNat, kind, d)] })

/-- REPORT_APPLIED: the highest decision that a device has applied, kept until the loss is known here too, with the last
decisions that the device holds; the way they come by is given by no rule (R244, DESIGN CHOICE, log entry 122). -/
def execReportApplied (j : Fin 4) (r : Report) (s : State) (held : List (Fin 4 × Decision) := []) : Res :=
  s.whenRuns (if s.halted blkCxe then .next s
    else if (s.job j).running ∧ s.tagOrder j r.tag = .eq then
      let s := s.modAtt j (fun a => { a with applied := a.applied.filter (fun q => decide (q.sender ≠ r.sender)) ++ [r] })
      .next (finishGather (held.foldl (fun s d => keepDecision s j d.1 d.2) s) j)
    else .next s)

/-- LIVE_READ_DONE: the round close has finished reading: each DCLOSE's event counts, a held commit goes on
(R127). -/
def execLiveReadDone (j : Fin 4) (s : State) : Res :=
  s.whenRuns <| if s.halted blkDxe then .next s else
  if (s.job j).dxe.liveReading then
    let s := s.modDxe j (fun x => { x with liveReading := false })
    let s := s.forTiles (s.job j).hasTile (fun s t =>
      (((s.tile t).asyncs.filter (fun a => match a.kind with
        | .dclose _ => true
        | _ => false)).map (·.id)).foldl (fun s id => asyncDone s t id stOk) s)
    let a := (s.job j).att
    if a.commitHeld then
      let anchor := match a.decisions.find? (fun d => decide (d.1 = a.decided)) with
        | some d => d.2.2.flags.getLsbD 2
        | none => false
      .next (replayEarly (commitAct (s.modAtt j (fun a => { a with commitHeld := false })) j anchor) j)
    else .next s
  else .next s

/-! ## The close of an aborted attempt (R113, R136, R149, R150) -/

/-- Every tile of a job is idle and what it issued has completed; collectives and closes are abandoned. -/
def jobQuiet (s : State) (j : Nat) : Bool :=
  s.tiles.all (fun p => !(s.job j).hasTile p.1 || (!p.2.busy && p.2.asyncs.all (fun a => match a.kind with
    | .launch => true
    | .dclose _ => true
    | _ => false)))

/-- A tile before the first frame of the next attempt (R113). -/
def replayTile (s : State) (t : Nat) : State :=
  let entry (c : Nat) : Nat := s.fld TILE_CTX_CTRL_replay_entry (4 * t + c)
  s.modTile t (fun x => { x with
    events := [], asyncs := [], rejected := false, ctx0 := { x.ctx0 with next := entry 0 }, ctx1 := { x.ctx1 with next := entry 1 },
    ctx2 := { x.ctx2 with next := entry 2 } })

/-- Nothing of a job is left to be repaired, copied or installed (Table STP-2). -/
def repaired (s : State) (j : Nat) : Bool :=
  let x := s.job j
  x.att.damage.isEmpty && x.dig.replacing.isEmpty && !x.waitAll && !x.holdAct && x.rejoining.isEmpty

/-- REPAIRING ends once nothing is left to do. -/
def endRepair (s : State) (j : Nat) : State :=
  if (s.job j).phase = .repairing ∧ repaired s j then reopen s j else s

/-- A tile of the job is being mapped out (R351). -/
def mapsOut (s : State) (j : Nat) : Bool := s.svc.remaps.any (fun r => !r.byOp && (s.job j).hasTile r.tile)

/-- ATTEMPT_OPEN: the aborted attempt has drained and no tile of the job is still to be mapped out: its ledger entry is written, counters are zeroed, barriers
released, and the next attempt may open at the replay entries, after any repair and every replacement of the job (R113,
R136, R149, R154, R162, R351). After a job fault the job stops (Table STP-2). -/
def execAttemptOpen (j : Fin 4) (s : State) : Res :=
  s.whenRuns <|
  let x := s.job j
  if !x.running then .next s
  else if x.phase = .aborting ∧ jobQuiet s j ∧ !mapsOut s j then
    let a := x.att
    let r := match a.reason with
      | some q => q.1.toNat
      | none => 0
    let s := logAbort (closeAttempt s j) j r a.injected
    let n := x.attemptNo + 1
    let s := s.modJob j (fun y => { y with
      attemptNo := n, divisors := [], barriers := [], holdAct := false, phase := .opened, waitAll := a.replace,
      readyEarly := y.readyEarly.filter (fun p => decide (p.1.attempt.toNat ≠ x.attemptNo % 2 ^ 16)),
      att := { Attempt.reset with damage := a.damage, rejoinDue := a.rejoinDue, stopCommit := a.stopCommit, lastReject := if r = reasonReject then a.newReject else [] } })
    if a.fault then .next (stopJob s j)
    else if s.fld STEP_CTRL_max_attempts j ≤ n then .next (jobFault s j r)
    else if s.plat.dev = .drain ∨ a.stopNext then .next (stopJob s j)
    else if !a.damage.isEmpty ∧ (s.otherGroups j).isEmpty then .next (jobFault s j reasonMemUe)
    else
      let s := x.tiles.foldl replayTile s
      let s := if a.damage.isEmpty && !a.replace then s else s.modJob j (fun y => { y with phase := .repairing })
      .next (replayEarly s j)
  else .next (endRepair s j)

/-- PEER_REPAIR_DONE: a damaged range has been copied from the peer group (R149). -/
def execPeerRepairDone (j : Fin 4) (addr : BitVec 42) (data : Bytes) (s : State) : Res :=
  let a := addr.toNat
  let covered (l : Nat) : Bool := decide (a ≤ l) && decide (l + 64 ≤ a + data.length)
  s.whenRuns <| if (s.job j).running ∧ (s.job j).phase = .repairing ∧ (s.job j).att.damage.any covered then
    let s := (s.setMem a data).modAtt j (fun a => { a with damage := a.damage.filter (fun l => !covered l) })
    .next (endRepair s j)
  else if (s.job j).running ∧ (s.job j).dxe.active ∧ (s.areaUe j).any covered then
    let s := s.setMem a data
    .next (s.modDxe j (s.areaTables j))
  else .next s

/-! ## Digest comparison (R161, R162) -/

/-- The own copy of a region is to be replaced: the open attempt aborts with DIGEST_REPAIR (R162). -/
def replaceOwn (s : State) (j k : Nat) : State :=
  let s := (resolveDigest s j k).modJob j (fun x => { x with dig := { x.dig with replacing := addTo k x.dig.replacing } })
  if (s.job j).phase = .opened ∧ !(s.job j).att.started then
    (sendVeto s j (voteRecord s j reasonDigest false)).modJob j (fun x => { x with phase := .repairing, waitAll := true })
  else raiseAbort s j reasonDigest 0

/-- DIGEST_RECEIVE: a peer's write digest of a region; it is kept, and once all have come they are compared (R161). -/
def execDigestReceive (j : Fin 4) (group : BitVec 8) (region : BitVec 16) (digest : BitVec 256) (s : State) : Res :=
  s.whenRuns <|
  let x := s.job j
  let g := group.toNat
  let k := region.toNat
  if !x.running ∨ x.dig.peers.any (fun p => decide (p.1 = g) && decide (p.2.1 = k)) then .next s
  else .next (compareDigests (s.modJob j (fun x => { x with dig := { x.dig with peers := x.dig.peers ++ [(g, k, digest)] } })) j k)

/-- An own copy is found divergent: its re-read differs from its write digest when the memory diverged, else the
computation did (Table STP-5). No field of the ledger entry holds it: the record is in the state (DESIGN CHOICE, log entry 22). -/
def noteDivergence (s : State) (j k : Nat) (memory : Bool) : State :=
  s.modJob j (fun x => { x with dig := { x.dig with kinds := x.dig.kinds.filter (fun p => decide (p.1 ≠ k)) ++ [(k, memory)] } })

/-- DIGEST_REREAD_DONE: the own re-read and, where no strict majority stands, whether each other group's
re-read agrees with its write digest, decide the replacement or the job fault (Table STP-5, DEDUCED, log entry 22). -/
def execDigestRereadDone (j : Fin 4) (region : BitVec 16) (own : BitVec 256) (agree : List (BitVec 8 × Bool)) (s : State) : Res :=
  s.whenRuns <|
  let x := s.job j
  let k := region.toNat
  let others := s.otherGroups j
  let okOf (g : Nat) : Option Bool := (agree.find? (fun p => decide (p.1.toNat = g))).map (·.2)
  if !x.running ∨ !x.dig.open_.contains k then .next s
  else match digestsHeld s j k with
    | some (w :: rest) =>
      if rest.all (fun d => decide (d = w)) then .next s
      else match majorDigest (w :: rest) with
        | some d => .next (if d = w then resolveDigest s j k else replaceOwn (noteDivergence s j k (decide (own ≠ w))) j k)
        | none =>
          if !others.all (fun g => (okOf g).isSome) then .next s
          else
            let mine := decide (own = w)
            let oks := others.map (fun g => (okOf g).getD false)
            let sound := (if mine then [w] else []) ++ ((rest.zip oks).filter (·.2)).map (·.1)
            if mine && oks.all id then .next (jobFault s j (if others.length = 1 then 0x102 else 0x103))
            else match majorDigest sound with
              | none => .next (jobFault s j 0x103)
              | some d => .next (if mine && decide (w = d) then resolveDigest s j k else replaceOwn (noteDivergence s j k (!mine)) j k)
    | _ => .next s

/-- DIGEST_REPLACEMENT_DONE: the region's live copy and the write digest have been taken from the peer; `all` says that every
replacement of the job is complete, by a way that no rule gives (R162, DESIGN CHOICE, log entry 123). -/
def execDigestReplacementDone (j : Fin 4) (region : BitVec 16) (data : Bytes) (digest : BitVec 256) (s : State) (all : Bool := true) : Res :=
  s.whenRuns <|
  let x := s.job j
  let k := region.toNat
  if !x.running ∨ x.phase ≠ .repairing then .next s
  else
    let s := match (s.regions j)[k]? with
      | some r =>
        if x.dig.replacing.contains k ∧ data.length = r.size then
          (s.setMem r.live data).modJob j (fun x => { x with dig := { x.dig with
            replacing := x.dig.replacing.filter (· ≠ k), kept := store x.dig.kept k digest 0 } })
        else s
      | none => s
    let s := if all && (s.job j).dig.replacing.isEmpty then s.modJob j (fun x => { x with waitAll := false }) else s
    .next (endRepair s j)

/-! ## Rejoin and layout epochs (R249, R359) -/

/-- The device that a device of a group that has left asks for its rejoin: the lowest in job-relative index of another
group, as far as it knows (R359, DESIGN CHOICE, log entry 116). -/
def State.rejoinTarget (s : State) (j : Nat) : Option Nat :=
  let x := s.job j
  (x.devices s.dims).find? (fun v => decide (s.groupOfDev j v ≠ s.ownGroup j) && !x.excludedGroups.contains (s.groupOfDev j v) && !x.lostDevs.contains v)

/-- The device's group is to rejoin at the next commit: the coordinator is asked (R359). -/
def askRejoin (s : State) (j : Nat) : State :=
  let s := (s.setFld STEP_CTRL_rejoin 1 j).modAtt j (fun a => { a with rejoinDue := true })
  let r : Report :=
    { sender := devNo s.self, tag := s.attTag j 0, rejoin := some (BitVec.ofNat 8 (s.ownGroup j)), applied := 0, bucket := 0, veto := 0,
      flags := 0, origin := 0, norm := 0 }
  match s.rejoinTarget j with
  | some v => if (s.job j).running then sendReport s j 2 v r else s
  | none => s

/-- REJOIN (R359). -/
def execRejoin (j : Fin 4) (s : State) : Res := s.whenRuns (.next (askRejoin s j))

/-- The layout epoch of a job without step regions advances (R249). -/
def advanceEpoch (s : State) (j : Nat) : State :=
  if (s.regions j).isEmpty then s.setFld CXE_EPOCH_epoch ((s.fld CXE_EPOCH_epoch j + 1) % 2 ^ 32) j else s

/-- EPOCH_ADVANCE (R249). -/
def execEpochAdvance (j : Fin 4) (s : State) : Res := s.whenRuns (.next (advanceEpoch s j))

end Sys2Proof.Machine
end

