-- ==== Sys2Proof/Machine/Link.lean ====
section
/-! DEFINITION. The links of the site fabric: frames and retry, lanes, training, identity, link states (R196 to
R201, R213, R216 to R220, R380, R387, R433). -/
namespace Sys2Proof.Machine

/-! ## Loss of a device and what is announced (R213, R214, R357) -/

/-- A device is lost to a job: duties that it had pass, and what its streams had begun here is dropped (R210, R255, R357). -/
def loseDev (s : State) (j dev : Nat) : State :=
  (dutiesPass s (finishGather (loseDevice s j dev) j) j).modRouter (fun r => { r with
    streams := r.streams.filter (fun x => !(decide (x.src.toNat = dev) && decide (x.job = j))) })

/-- The device at the far end of a torus port. -/
def State.farEnd (s : State) (p : Nat) : Nat :=
  (List.range ((s.port p).skips.length + 1)).foldl (fun d _ => indexOf s.dims (stepCoord s.dims (coordOf s.dims d) (s.portDir p))) s.self

/-- A link going down or coming up is announced to every device of each job slice that uses it (R213, R214). -/
def announce (s : State) (p far : Nat) (up : Bool) : State :=
  if p < 8 then
    s.runningJobs.foldl (fun s j =>
      if (s.job j).inSlice s.dims s.self && (s.job j).inSlice s.dims far then
        let port := BitVec.ofNat 8 p
        let time := BitVec.ofNat 64 s.clock.siteTime
        tellSlice s j (if up then .up (devNo s.self) port time else .down (devNo s.self) port time)
      else s) s
  else s

/-! ## Leaving UP (R213, R220) -/

/-- A port leaves UP: what its retry buffer holds is re-injected on detour, what waits to be sent is routed anew, and its
link is announced down (R213). A port in another state changes its state only. -/
def leave (s : State) (p : Nat) (st : LinkSt) : State :=
  let x := s.port p
  if x.st = .up then
    let far := s.farEnd p
    let s := clearPeer (s.modPort p (fun x => x.bare st)) p
    let s := x.retry.foldl (fun s r => routePacket s (onDetour r.2.2) none) s
    let s := x.waitQ.foldl (fun s w => routePacket s w.2.1 w.2.2) s
    announce s p far false
  else clearPeer (s.modPort p (fun x => x.bare st)) p

/-- CLK_STATUS shows whether the clock of a port is recovered: whether some lane has light and lock (Table REG-4). -/
def fabLock (s : State) (p : Nat) : State :=
  s.setReg 0x1008 (withBits (s.reg 0x1008) (9 + p) (9 + p) (ofBool (decide ((s.port p).light ≠ 0))))

/-- LINK_DOWN: a port in UP loses light or lock beyond what the spare covers (R213, R220). -/
def execLinkDown (p : Fin 10) (s : State) : Res :=
  s.whenRuns <|
  if (s.port p).st = .up then .next (fabLock (leave (s.modPort p (fun x => { x with light := 0 })) p .down) p) else .next s

/-- LIGHT_LOST: a port in TRAIN, IDENT or QUARANTINE goes DOWN (R220). -/
def execLightLost (p : Fin 10) (s : State) : Res :=
  s.whenRuns <|
  match (s.port p).st with
  | .train | .ident | .quarantine => .next (fabLock (leave (s.modPort p (fun x => { x with light := 0 })) p .down) p)
  | _ => .next s

/-! ## Frames (R198, R199, R200) -/

/-- A NAK names the next sequence number expected. -/
def sendNak (s : State) (p : Nat) : State := sendCtl s p (.nak (s.port p).rxSeq) 0xFF 0

/-- A sequence number is at most another. -/
def seqLe (a b : BitVec 32) : Bool := decide ((b - a).toNat < 2 ^ 31)

/-- The header of a good frame: the ack empties the retry buffer, the credit returns, and frames that waited
leave. -/
def takeHeader (s : State) (p : Nat) (h : LinkHead) : State :=
  let x := s.port p
  let kept := x.retry.filter (fun r => !seqLe r.1 h.ack)
  let vc := h.creditVc.toNat
  let left := look x.credits vc 0 - h.creditUnits.toNat
  flushPort (s.modPort p (fun x => { x with
    retry := kept, replays := if kept.length < x.retry.length then 0 else x.replays, credits := store x.credits vc left 0 })) p

/-- A frame arrives on a port that is UP: one that has not come whole is refused by NAK; one of another type than its
arm's, the reserved types among them, is discarded; else its header is taken (R198, R199). -/
def onFrame (s : State) (p : Nat) (h : LinkHead) (b : FrameBody) (take : State → State) : Res :=
  s.whenRuns <|
    if s.halted (blkPort + p) ∨ (s.port p).st ≠ .up then .next s
    else if !headGood h b then .next (sendNak s p)
    else if h.type.toNat ≠ frameType b then .next s
    else .next (take (takeHeader s p h))

/-- A frame of the identity exchange: it is taken in IDENT and QUARANTINE too, where one that has not come whole, or is of
another type, is discarded (R198, R216, R220). -/
def onIdentFrame (s : State) (p : Nat) (h : LinkHead) (b : FrameBody) (take : State → State) : Res :=
  match (s.port p).st with
  | .ident | .quarantine =>
    s.whenRuns (if s.halted (blkPort + p) ∨ !headGood h b ∨ h.type.toNat ≠ frameType b then .next s else .next (take s))
  | _ => onFrame s p h b take

/-- IDLE_FRAME (R198, R199). -/
def execIdleFrame (p : Fin 10) (h : LinkHead) (s : State) : Res := onFrame s p h .none id

/-- The packet ops of R205. -/
def opKnown (op : Nat) : Bool := (decide (1 ≤ op) && decide (op ≤ 6)) || (decide (0x10 ≤ op) && decide (op < 0x20))

/-- The packet of a DATA frame: accepted in sequence, refused by NAK after a gap, or discarded as a repeat; an accepted packet
goes to the router, or is counted when its op is none of R205 (R199, R205). -/
def takeData (s : State) (p : Nat) (h : LinkHead) (k : Packet) : State :=
  let x := s.port p
  if h.seq ≠ x.rxSeq then (if seqLe h.seq x.rxSeq then s else sendNak s p)
  else
    let s := idle (s.modPort p (fun x => { x with rxSeq := x.rxSeq + 1 })) p 0xFF 0
    let src := some (p, h.vc)
    if opKnown k.op.toNat then routePacket s k src else freeCredit (s.count FAB_PORT_STATUS_bad_op 1 p) k src

/-- DATA_FRAME (R199, R205). -/
def execDataFrame (p : Fin 10) (h : LinkHead) (k : Packet) (s : State) : Res :=
  if s.halted (blkRouter + p.val) then .next s else onFrame s p h (.data k) (fun s => takeData s p h k)

/-- Frames of the retry buffer are sent again from a sequence number on; after 8 replays without an advance of
the ack the link goes to TRAIN (R199). -/
def replay (s : State) (p : Nat) (sel : BitVec 32 → Bool) : State :=
  let x := s.port p
  if 8 ≤ x.replays then leave s p .train
  else
    let s := s.modPort p (fun x => { x with replays := x.replays + 1 })
    (x.retry.filter (fun r => sel r.1)).foldl (fun s r =>
      s.emit (.frame p (frameHead r.2.1.toNat r.1 x.ack 0xFF 0 (.data r.2.2)) (.data r.2.2))) s

/-- NAK (R199). -/
def execNak (p : Fin 10) (h : LinkHead) (next : BitVec 32) (s : State) : Res :=
  onFrame s p h (.nak next) (fun s => replay s p (seqLe next))

/-- RETRY_TIMEOUT: frames are outstanding and no ack has advanced for 20 µs (R199). -/
def execRetryTimeout (p : Fin 10) (s : State) : Res :=
  s.whenRuns <| if s.halted (blkPort + p.val) then .next s else
  if (s.port p).st = .up ∧ !(s.port p).retry.isEmpty then .next (replay s p (fun _ => true)) else .next s

/-! ## Lanes (R197, R380, R433) -/

/-- The lane map of a direction and its spare. -/
def mapFld (rx : Bool) : Fld := if rx then FAB_LANE_MAP_rx else FAB_LANE_MAP_tx
def spareFld (rx : Bool) : Fld := if rx then FAB_LANE_MAP_rx_spare else FAB_LANE_MAP_tx_spare

/-- The physical lane of a logical lane. -/
def State.lanePhys (s : State) (p : Nat) (rx : Bool) (l : Nat) : Nat := bits (s.fld (mapFld rx) p) (3 * l) (3 * l + 2)

/-- The logical lane on a physical lane. -/
def State.laneLogical (s : State) (p : Nat) (rx : Bool) (q : Nat) : Option Nat :=
  (List.range 4).find? (fun l => decide (s.lanePhys p rx l = q))

/-- Numbers of a lane and of a direction in the lists of Spares. -/
def laneNo (lane : Nat) (rx : Bool) : Nat := lane + 8 * ofBool rx
def rotNo (p : Nat) (rx : Bool) : Nat := p + 16 * ofBool rx

/-- A physical lane has failed in a direction. -/
def State.laneBad (s : State) (p lane : Nat) (rx : Bool) : Bool := s.spares.lanes.contains (p, laneNo lane rx)

/-- Move a logical lane onto the spare; its old lane becomes the spare. -/
def moveLane (s : State) (p : Nat) (rx : Bool) (l : Nat) : State :=
  let old := s.lanePhys p rx l
  let new := s.fld (spareFld rx) p
  (s.setFld (mapFld rx) (withBits (s.fld (mapFld rx) p) (3 * l) (3 * l + 2) new) p).setFld (spareFld rx) old p

/-- A LANE frame leaves; no rule gives the codeword of the switch (DESIGN CHOICE, log entry 2). -/
def sendLane (s : State) (p : Nat) (rx : Bool) (l new : Nat) : State :=
  if (s.port p).st = .up then
    sendCtl s.draw.2 p (.lane { logical := Fin.ofNat 4 l, physical := Fin.ofNat 5 new, rx := rx, codeword := s.draw.1 }) 0xFF 0
  else s

/-- The data lanes that a port can run: in each direction those of its five that have not failed, at most four; the link
runs on the lesser (R197). -/
def State.laneCount (s : State) (p : Nat) : Nat :=
  let good (rx : Bool) : Nat := min 4 ((List.range 5).filter (fun q => !s.laneBad p q rx)).length
  min (good false) (good true)

/-- A lane is marked failed and logged with cause 0x10; no rule gives the reason of a lane map-out (log entry
2). -/
def markLane (s : State) (p lane : Nat) (rx : Bool) (inj : Bool := false) : State :=
  let s := s.modSpares (fun x => { x with lanes := x.lanes ++ [(p, laneNo lane rx)] })
  let s := s.setFld FAB_PORT_STATUS_failed_lanes (s.fld FAB_PORT_STATUS_failed_lanes p ||| 2 ^ lane) p
  logEntry s.draw.2 0 srcPort 0x10 0 0 (8 * p + lane) s.draw.1.toNat inj

/-- A lane fails: it is mapped out onto the spare; with none the link retrains on the lanes that remain, or goes
DOWN with fewer than two (R197). -/
def failLane (s : State) (p lane : Nat) (rx : Bool) (inj : Bool := false) : State :=
  if s.laneBad p lane rx then s
  else
    let spare := s.fld (spareFld rx) p
    let free := !s.laneBad p spare rx
    let s := markLane s p lane rx inj
    match s.laneLogical p rx lane with
    | none => s
    | some l =>
      if free then (moveLane (sendLane s p rx l spare) p rx l).setFld FAB_PORT_STATUS_spare_used 1 p
      else
        let n := s.laneCount p
        let s := s.setFld FAB_PORT_STATUS_data_lanes n p
        match (s.port p).st with
        | .disabled | .down => s
        | _ => leave s p (if 2 ≤ n then .train else .down)

/-- LANE_FAILURE (R197). -/
def execLaneFailure (p : Fin 10) (lane : Fin 5) (rx : Bool) (s : State) : Res := s.whenRuns (.next (failLane s p lane rx))

/-- The far end names a lane and the spare it moves to. A switch of this end's transmit lanes is a map-out
that the far end asks for; one of its receive lanes may be a rotation, whose old lane is then under test (R197,
R380). -/
def takeLane (s : State) (p : Nat) (b : LaneBody) : State :=
  if s.fld (spareFld b.rx) p ≠ b.physical.val then s
  else
    let old := s.lanePhys p b.rx b.logical
    let s := moveLane s p b.rx b.logical
    if b.rx then s.modPort p (fun x => { x with testRx := some old })
    else (if s.laneBad p old false then s else markLane s p old false).setFld FAB_PORT_STATUS_spare_used 1 p

/-- LANE (R197, R380). -/
def execLane (p : Fin 10) (f : Framed LaneBody) (s : State) : Res := onFrame s p f.head (.lane f.body) (fun s => takeLane s p f.body)

/-- LANE_ROTATION: the transmitting end moves the logical lane of the next physical lane onto the spare, and
that lane carries PRBS31 (R380). -/
def execLaneRotation (p : Fin 10) (s : State) : Res :=
  s.whenRuns <|
  let spare := s.fld FAB_LANE_MAP_tx_spare p
  let q := (spare + 1) % 5
  if (s.port p).st ≠ .up ∨ (s.port p).testTx.isSome ∨ s.spares.rotStop.contains (rotNo p false) ∨ s.laneBad p spare false then .next s
  else match s.laneLogical p false q with
    | none => .next s
    | some l => .next ((moveLane (sendLane s p false l spare) p false l).modPort p (fun x => { x with testTx := some q }))

/-- PRBS_TEST_DONE: the lane under test stays as the spare, or is marked failed and rotation of its direction
stops (R380). -/
def execPrbsTestDone (p : Fin 10) (lane : Fin 5) (pass : Bool) (s : State) : Res :=
  s.whenRuns <|
  let done (s : State) (rx : Bool) : State :=
    let s := setBist s 5 (8 * p + lane) (if pass then 1 else 2)
    if pass ∨ s.laneBad p lane rx then s
    else (markLane s p lane rx).modSpares (fun x => { x with rotStop := addTo (rotNo p rx) x.rotStop })
  if (s.port p).testTx = some lane.val then .next (done (s.modPort p (fun x => { x with testTx := none })) false)
  else if (s.port p).testRx = some lane.val then .next (done (s.modPort p (fun x => { x with testRx := none })) true)
  else .next s

/-- The host link is down. -/
def hostDown (s : State) : State := (s.setFld HST_PORT_STATUS_link_up 0).setFld HST_PORT_STATUS_fec_lock 0

/-- LASER_FAULT: each fabric lane that the fibre feeds is mapped onto its spare; a host lane takes the host link
down. Cause 0x10 is written for each lane; a host lane has no number in it (R433, DESIGN CHOICE, log entry 2). -/
def execLaserFault (lanes : List (Fin 10 × Fin 5)) (host : Bool) (s : State) : Res :=
  s.whenRuns <|
  let s := lanes.foldl (fun s l => failLane s l.1 l.2 false) s
  if host then
    let a := s.draw
    let b := a.2.draw
    .next (hostDown (logEntry b.2 0 srcHost 0x10 0 0 a.1.toNat b.1.toNat false))
  else .next s

/-! ## Training (R220, R387) -/

/-- Physical lanes with light. -/
def Port.lit (x : Port) : Nat := (setBitsOf x.light.toNat 5).length

/-- A DOWN port with light and lock on at least two lanes enters TRAIN, once the links run and the optical
engines are calibrated. -/
def tryTrain (s : State) (p : Nat) : State :=
  let x := s.port p
  if x.st = .down ∧ !x.lightHold ∧ 2 ≤ x.lit ∧ s.plat.lsEn ∧ s.plat.train.opticalDone then leave s p .train else s

/-- LIGHT_AND_LOCK: with lock the clock of the port is recovered (R220, Table REG-4). -/
def execLightAndLock (p : Fin 10) (lanes : BitVec 5) (s : State) : Res :=
  s.whenRuns <|
  .next (tryTrain (fabLock (s.modPort p (fun x => { x with light := lanes })) p) p)

/-- OPTICAL_CAL_DONE: the fabric ports may train (R387, R389). -/
def execOpticalCalDone (s : State) : Res :=
  if s.plat.dev = .train then
    let s := s.modPlat (fun x => { x with train := { x.train with opticalDone := true } })
    .next ((List.range 10).foldl tryTrain s)
  else .next s

/-- The HELLO frame of a port. -/
def sendHello (s : State) (p : Nat) : State := sendCtl s p (.hello (s.port p).ownNonce) 0xFF 0

/-- LINK_TRAINED: lanes are deskewed, FEC locked, RTT measured: IDENT, and HELLO leaves (R216, R220). With fewer than two
data lanes the link goes DOWN (R197). -/
def execLinkTrained (p : Fin 10) (rtt : BitVec 20) (nonce : BitVec 128) (s : State) : Res :=
  s.whenRuns <| if (s.port p).st = .train then
    let n := min (s.laneCount p) (s.port p).lit
    let s := s.setFld FAB_PORT_STATUS_data_lanes n p
    if n < 2 then .next (leave s p .down)
    else
      let s := (s.setFld FAB_PORT_STATUS_rtt rtt.toNat p).setFld FAB_PORT_STATUS_q_reason 0 p
      .next (sendHello (s.modPort p (fun x => { (x.bare .ident) with ownNonce := nonce })) p)
  else .next s

/-- TRAIN_TIMEOUT: DOWN, with a hold of 100 ms (R220). -/
def execTrainTimeout (p : Fin 10) (s : State) : Res :=
  s.whenRuns <|
  if (s.port p).st = .train then .next (leave (s.modPort p (fun x => { x with lightHold := true })) p .down) else .next s

/-- DOWN_HOLD_EXPIRY (R220). -/
def execDownHoldExpiry (p : Fin 10) (s : State) : Res := s.whenRuns (.next (tryTrain (s.modPort p (fun x => { x with lightHold := false })) p))

/-! ## Identity (R216 to R219) -/

/-- The link protocol version of stepping B0. -/
def ownLpv : Nat := 6

/-- Four coordinates as a Quad. -/
def quadOf (l : List Nat) : Quad :=
  { x := BitVec.ofNat 8 (l.getD 0 0), y := BitVec.ofNat 8 (l.getD 1 0), z := BitVec.ofNat 8 (l.getD 2 0), w := BitVec.ofNat 8 (l.getD 3 0) }

/-- The expected peer of a torus port; a service port has none (DESIGN CHOICE, log entry 2). -/
def State.expected (s : State) (p : Nat) : Quad :=
  if p < 8 then quadOf (stepCoord s.dims s.coord p) else
    let v := (Config.freeValue s.free).toNat
    quadOf [bits v 0 7, bits v 8 15, bits v 16 23, bits v 24 31]

/-- The IDENT of a port (R216). -/
def ownIdent (s : State) (p : Nat) (peer : BitVec 128) : IdentBody :=
  let b : IdentBody :=
    { lpv := BitVec.ofNat 8 ownLpv, flags := BitVec.ofNat 8 (2 * s.fld FAB_BYPASS_STATUS_bypass_arm), port := BitVec.ofNat 8 p,
      serial := Config.serial, site := BitVec.ofNat 10 (s.fld FAB_COORD_site), coord := quadOf s.coord, expect := s.expected p,
      dims := quadOf s.dims, peerNonce := peer, ownNonce := (s.port p).ownNonce, pubkey := Config.ed448Public s.plat.idKey,
      certSig := Config.certSig, sig := 0 }
  { b with sig := Config.ed448Sign ctxIdent s.plat.idKey (identBytes b) }

/-- HELLO: the peer's nonce arrives and the port sends its IDENT (R216). -/
def takeHello (s : State) (p : Nat) (nonce : BitVec 128) : State :=
  match (s.port p).st with
  | .ident | .quarantine =>
    let s := s.modPort p (fun x => { x with peerNonce := some nonce })
    { (sendCtl s p (.ident (ownIdent s p nonce)) 0xFF 0) with free := s.free + 1 }
  | _ => s

/-- HELLO (R216). -/
def execHello (p : Fin 10) (f : Framed (BitVec 128)) (s : State) : Res :=
  onIdentFrame s p f.head (.hello f.body) (fun s => takeHello s p f.body)

/-- HELLO_REPEAT: each 1 ms without a received HELLO (R216). -/
def execHelloRepeat (p : Fin 10) (s : State) : Res :=
  s.whenRuns <| match (s.port p).st with
  | .ident | .quarantine => if (s.port p).peerNonce.isNone then .next (sendHello s p) else .next s
  | _ => .next s

/-- FAB_PEER_ID reports a peer (R217). -/
def setPeerId (s : State) (p : Nat) (b : IdentBody) : State :=
  let v := toBE 16 b.serial.toNat
  let s := (s.setFld FAB_PEER_ID_serial_lo (leNat (v.take 8)) p).setFld FAB_PEER_ID_serial_hi (leNat (v.drop 8)) p
  let s := (s.setFld FAB_PEER_ID_lpv b.lpv.toNat p).setFld FAB_PEER_ID_port b.port.toNat p
  (s.setFld FAB_PEER_ID_flags b.flags.toNat p).setFld FAB_PEER_ID_coord (leNat (quadBytes b.coord)) p

/-- Checks 1 to 3 of Table FAB-8: the reason of the first that fails. -/
def identFault (s : State) (p : Nat) (b : IdentBody) : Option Nat :=
  let cert := Config.ed448Verify ctxVendor Config.vendorKey (toBE 16 b.serial.toNat ++ toBE 57 b.pubkey.toNat) b.certSig
  let sig := Config.ed448Verify ctxIdent b.pubkey (identBytes b) b.sig
  if !cert ∨ !sig ∨ b.peerNonce ≠ (s.port p).ownNonce then some 1
  else if b.lpv.toNat + 1 < ownLpv ∨ ownLpv + 1 < b.lpv.toNat then some 2
  else if b.site.toNat ≠ s.fld FAB_COORD_site ∨ b.dims ≠ quadOf s.dims then some 3
  else none

/-- How check 4 of Table FAB-8 accepts a link. -/
inductive Join where
  | plain
  | bypassed (skips : List Nat)
  | adopted (dir : Nat)
  | refused
  deriving DecidableEq, Repr

/-- The devices met along a direction, nearest first, up to one round of the ring. -/
def alongRing (dims co : List Nat) (dir : Nat) : Nat → List (List Nat)
  | 0 => []
  | n + 1 => let c := stepCoord dims co dir; c :: alongRing dims c dir n

/-- R218: the peer lies further along the port's direction and expects the device before it. -/
def bypassJoin (s : State) (p : Nat) (b : IdentBody) : Option (List Nat) :=
  let ring := alongRing s.dims s.coord p (s.dims.getD (p / 2) 1 - 1)
  let peer := quadList b.coord
  if ring.contains peer ∧ ring.head? ≠ some peer ∧ quadList b.expect = stepCoord s.dims peer (opposite p) then
    some ((ring.takeWhile (fun c => !decide (c = peer))).map (indexOf s.dims))
  else none

/-- R219: the direction that a port adopts in LEARN: one whose neighbour the peer is and that no other UP port
serves. -/
def adoptJoin (s : State) (b : IdentBody) : Option Nat :=
  if s.fld FAB_TOPO_MODE_mode = 1 then
    (List.range 8).find? (fun e => decide (1 < s.dims.getD (e / 2) 1) && decide (quadList b.coord = stepCoord s.dims s.coord e) && (s.portOf e).isNone)
  else none

/-- Check 4 of Table FAB-8. The peer of a service port is a service endpoint (R222). -/
def joinOf (s : State) (p : Nat) (b : IdentBody) : Join :=
  if 8 ≤ p then (if b.flags.getLsbD 0 then .plain else .refused)
  else if b.coord = s.expected p ∧ b.expect = quadOf s.coord then .plain
  else match bypassJoin s p b with
    | some l => .bypassed l
    | none => match adoptJoin s b with
      | some e => .adopted e
      | none => .refused

/-- Bytes of a port's receive buffer (R201). -/
def State.bufBytes (s : State) (p : Nat) : Nat := 262144 * 2 ^ s.fld (FAB_CREDIT_CFG_buf p)

/-- The link goes UP: sequence numbers and credits start afresh, the link is announced, and the devices that a
bypassed link skips are lost to the jobs (R213, R217, R218, R357). The far buffer's shared part is taken from the
own setting. -/
def goUp (s : State) (p : Nat) : State :=
  let s := s.modPort p (fun x => { x with
    st := .up, txSeq := 0, rxSeq := 0, retry := [], waitQ := [], replays := 0, credits := [], shared := (s.bufBytes p - 15 * 8320) / 64 })
  let s := announce s p (s.farEnd p) true
  (s.port p).skips.foldl (fun s d => (s.runningJobs).foldl (fun s j => loseDev s j d) s) s

/-- A STATE frame: it accepts the peer's IDENT, or announces that the port goes down. -/
def sendState (s : State) (p : Nat) (accept : Bool) : State := sendCtl s p (.state accept) 0xFF 0

/-- A peer's IDENT is accepted; the link goes UP once both ends have accepted (R217). -/
def acceptPeer (s : State) (p : Nat) : State :=
  let s := sendState (s.modPort p (fun x => { x with accepted := true })) p true
  if (s.port p).peerAccepts then goUp s p else s

/-- A failed check puts the link in QUARANTINE: reported, told by notice 4, logged with cause 0x10 (R217, R317,
R366). -/
def quarantine (s : State) (p reason : Nat) : State :=
  let s := (leave s p .quarantine).setFld FAB_PORT_STATUS_q_reason reason p
  logEntry (s.notify 4 0xFF (256 * p + reason)) 0 srcPort 0x10 0 0 (8 * p) reason false

/-- IDENT: checked in the order of Table FAB-8 (R217 to R219). The host is told of an adoption by notice 4, with reason
0: no notice of Table HST-7 is its own (DESIGN CHOICE, log entry 73). -/
def takeIdent (s : State) (p : Nat) (b : IdentBody) : State :=
  if (s.port p).st ≠ .ident ∨ (s.port p).accepted then s
  else
    let s := setPeerId s p b
    match identFault s p b with
    | some r => quarantine s p r
    | none => match joinOf s p b with
      | .plain => acceptPeer s p
      | .bypassed l => acceptPeer ((s.setFld FAB_PORT_STATUS_skipped l.length p).modPort p (fun x => { x with skips := l })) p
      | .adopted e =>
        acceptPeer (((s.setFld FAB_PORT_STATUS_adopted 1 p).setFld FAB_PORT_STATUS_adopted_dir e p).notify 4 0xFF (256 * p)) p
      | .refused => quarantine s p 4

/-- IDENT (R217). -/
def execIdent (p : Fin 10) (f : Framed IdentBody) (s : State) : Res :=
  onIdentFrame s p f.head (.ident f.body) (fun s => takeIdent s p f.body)

/-- IDENT_TIMEOUT: no valid IDENT within 50 ms (R220). -/
def execIdentTimeout (p : Fin 10) (s : State) : Res :=
  s.whenRuns <|
  if (s.port p).st = .ident ∧ !(s.port p).accepted then .next (leave s p .down) else .next s

/-- STATE_FRAME: the peer accepts, or goes down (R217, R220). -/
def takeState (s : State) (p : Nat) (accept : Bool) : State :=
  match (s.port p).st with
  | .ident =>
    let s := s.modPort p (fun x => { x with peerAccepts := accept })
    if accept && (s.port p).accepted then goUp s p else s
  | .quarantine => s.modPort p (fun x => { x with peerAccepts := accept })
  | .up => if accept then s else leave s p .down
  | _ => s

/-- STATE_FRAME (R217, R220). -/
def execStateFrame (p : Fin 10) (f : Framed Bool) (s : State) : Res :=
  onIdentFrame s p f.head (.state f.body) (fun s => takeState s p f.body)

/-! ## Control of a port (R220) -/

/-- port_en is written: a port that is disabled says so to its peer when UP; a torus port whose dimension has size 1
stays DISABLED (R217). -/
def writePortEn (s : State) (p : Nat) (en : Bool) : State :=
  let s := s.setFld FAB_PORT_CTRL_port_en (ofBool en) p
  if en then
    if (s.port p).st = .disabled ∧ (8 ≤ p ∨ 1 < s.dims.getD (p / 2) 1) then tryTrain (s.modPort p (fun x => { x with st := .down })) p else s
  else
    let s := if (s.port p).st = .up then sendState s p false else s
    leave s p .disabled

/-- FAB_COORD is written: a torus port whose dimension has size 1 becomes DISABLED, and an enabled one whose dimension has
grown leaves DISABLED (R217, R221). -/
def refitPorts (s : State) : State :=
  (List.range 8).foldl (fun s p =>
    if s.dims.getD (p / 2) 1 ≤ 1 then (if (s.port p).st = .disabled then s else leave s p .disabled)
    else if s.fld FAB_PORT_CTRL_port_en p = 1 then writePortEn s p true else s) s

/-- PORT_ENABLE (R220). -/
def execPortEnable (p : Fin 10) (en : Bool) (s : State) : Res := .next (writePortEn s p en)

/-- quarantine_release moves a quarantined port to TRAIN. -/
def releaseQuarantine (s : State) (p : Nat) : State := if (s.port p).st = .quarantine then leave s p .train else s

/-- QUARANTINE_RELEASE (R220). -/
def execQuarantineRelease (p : Fin 10) (s : State) : Res := .next (releaseQuarantine s p)

end Sys2Proof.Machine
end

