-- ==== Sys2Proof/Machine/Service.lean ====
section
/-! DEFINITION. Service in place: remaps, tests of spares, firmware, microcode and configuration loads, handover,
fuses (R321, R351, R372 to R380, R392, R393, R397, R419). -/
namespace Sys2Proof.Machine

/-- The states in which service actions are permitted (Table SVC-1). -/
def State.inService (s : State) : Bool := decide (s.plat.dev = .ready ∨ s.plat.dev = .run ∨ s.plat.dev = .drain)

/-! ## The measurement M (R321) -/

/-- M is extended with an event; the log keeps the first 256. -/
def extendM (s : State) (code : Nat) (digest : BitVec 512) : State :=
  let l := s.lantern
  let m := Config.shake256 (toLE 64 l.meas.toNat ++ toLE 1 code ++ toLE 64 digest.toNat) 512
  let e := if l.events.length < 256 then l.events ++ [(BitVec.ofNat 8 code, l.eventCount, digest)] else l.events
  { s with lantern := { l with meas := m, events := e, eventCount := l.eventCount + 1 } }

/-! ## Spare tiles (R351, R377, R378, R389) -/

/-- The logical tile on a physical tile. -/
def State.tileOf (s : State) (p : Nat) : Option Nat := (List.range 1024).find? (fun t => decide (s.phys t = p))

/-- The stack domain of a physical tile. -/
def physDom (p : Nat) : Nat := p / 264

/-- A physical tile is a free spare: in no map, not failed, not under test, not the target of a remap. -/
def State.tileFree (s : State) (p : Nat) : Bool :=
  decide (p < 1056) && (s.tileOf p).isNone && !s.spares.badTiles.contains p && !s.spares.testTiles.contains p &&
    !s.svc.remaps.any (fun r => decide (r.spare = p))

/-- The free spare tiles of a stack domain. -/
def State.freeTiles (s : State) (q : Nat) : List Nat := ((List.range 264).map (264 * q + ·)).filter s.tileFree

/-- The entry of cause 0x0F for a tile: 0 started, 1 done, 2 failed (R367). -/
def tileEntry (s : State) (p what : Nat) (inj : Bool := false) : State :=
  logEntry s 0 srcTile 0x0F (if what = 1 then 2 else 0) 0 p what inj

/-- A remap of a logical tile onto a free spare begins; it waits for a tick at which the tile is idle (R377). -/
def startRemap (s : State) (t spare : Nat) (byOp : Bool) : State :=
  let s := s.modSvc (fun v => { v with remaps := v.remaps ++ [{ tile := t, spare := spare, copied := none, byOp := byOp }] })
  tileEntry (setBist s 2 (s.phys t) 0) (s.phys t) 0

/-- Op REMAP: refused with outcome 3 while an op runs, where service is not permitted, or with no free spare
(R377, R419). -/
def opRemap (s : State) (t : Nat) : State :=
  match s.freeTiles (t / 256) with
  | p :: _ =>
    if s.svc.bistBusy || !s.inService || s.svc.remaps.any (fun r => decide (r.tile = t)) then setBist s 2 (s.phys t) 3
    else startRemap (s.modSvc (fun v => { v with bistBusy := true })) t p true
  | [] => setBist s 2 (s.phys t) 3

/-- REMAP (R377). -/
def execRemap (t : Fin 1024) (s : State) : Res := .next (opRemap s t)

/-- A range lies in a tile's scratchpad, in part at least. -/
def onTile (t a n : Nat) : Bool := overlaps a n (spadBase + 0x40000 * t) 0x40000

/-- An asynchronous transfer names a tile's scratchpad or instruction memory. -/
def namesTile (s : State) (t : Nat) : Bool :=
  s.tiles.any (fun p => p.2.asyncs.any (fun a => match a.kind with
    | .dma d => decide (p.1 = t) || d.rowsAt.any (fun r => onTile t r.2 (d.memLen 1 + d.memLen 0))
    | _ => false)) ||
  s.router.xfers.any (fun x => !x.log && (if x.get then onTile t x.dstAddr.toNat x.len else onTile t x.srcAddr.toNat x.len))

/-- TILE_REMAP: at a tick with the tile idle and named by no transfer, its state is copied to the spare, and its
frame is held. The state is kept by logical tile, so the copy changes nothing that can be read (R377). -/
def execTileRemap (t : Fin 1024) (s : State) : Res :=
  s.whenRuns <|
  if 1 ≤ s.clock.order ∧ s.clock.order ≤ 3 ∧ !s.busy t ∧ !namesTile s t then
    .next (s.modSvc (fun v => { v with
      remaps := modFirst (fun r => decide (r.tile = t.val) && r.copied.isNone) (fun r => { r with copied := some (s.fld TICK_COUNT_count) }) v.remaps }))
  else .next s

/-- TILE_MAP_SWITCH: at the next tick TILE_MAP switches; the freed tile goes to its test, or is marked failed when
it was mapped out (R17, R351, R377, R378). -/
def execTileMapSwitch (t : Fin 1024) (s : State) : Res :=
  s.whenRuns <|
  match s.svc.remaps.find? (fun r => decide (r.tile = t.val) && r.copied.isSome) with
  | some r =>
    if 1 ≤ s.clock.order ∧ s.clock.order ≤ 3 ∧ !s.busy t ∧ r.copied ≠ some (s.fld TICK_COUNT_count) then
      let old := s.phys t
      let s := (s.setFld TILE_MAP_phys r.spare t).modClock (fun c => { c with order := 3 })
      let s := s.modSvc (fun v => { v with remaps := v.remaps.filter (fun x => decide (x ≠ r)) })
      let s := s.modSpares (fun x => if r.byOp then { x with testTiles := addTo old x.testTiles } else { x with badTiles := addTo old x.badTiles })
      .next (tileEntry (setBist s 2 old 1) old 1)
    else .next s
  | none => .next s

/-- REMAP_TIMEOUT: no qualifying tick within 10 s; the tile stays in place (R377). -/
def execRemapTimeout (t : Fin 1024) (s : State) : Res :=
  s.whenRuns <|
  match s.svc.remaps.find? (fun r => decide (r.tile = t.val) && r.copied.isNone) with
  | some r =>
    let s := s.modSvc (fun v => { v with remaps := v.remaps.filter (fun x => decide (x ≠ r)), bistBusy := v.bistBusy && !r.byOp })
    .next (tileEntry (setBist s 2 (s.phys t) 2) (s.phys t) 2)
  | none => .next s

/-- A test outcome of SVC_BIST_RESULT. -/
def outcome (pass : Bool) : Nat := if pass then 1 else 2

/-- TILE_BIST_DONE: the freed tile becomes a free spare or is marked failed (R378). -/
def execTileBistDone (p : Fin 1056) (pass : Bool) (s : State) : Res :=
  s.whenRuns <|
  if s.spares.testTiles.contains p.val then
    let s := s.modSpares (fun x => { x with testTiles := x.testTiles.filter (fun n => decide (n ≠ p.val)), badTiles := if pass then x.badTiles else addTo p.val x.badTiles })
    .next (setBist (s.modSvc (fun v => { v with bistBusy := false })) 1 p (outcome pass))
  else .next s

/-- A fault in a free spare tile: it is marked failed (R351). -/
def spareFault (s : State) (p cause : Nat) (inj : Bool) : State :=
  let s := s.modSpares (fun x => { x with badTiles := addTo p x.badTiles })
  tileEntry (s.fltStatus 0 srcTile cause) p 2 inj

/-- SPARE_TILE_TEST: a free spare has been tested (R378). -/
def execSpareTileTest (p : Fin 1056) (pass : Bool) (s : State) : Res :=
  s.whenRuns <|
  if s.tileFree p then
    let s := setBist s 1 p (outcome pass)
    .next (if pass then s else s.modSpares (fun x => { x with badTiles := addTo p.val x.badTiles }))
  else .next s

/-! ## Spare channels (R379) -/

/-- Op TEST_CHANNEL: the channel is repaired onto a free spare; refused with outcome 3 when the stack has none, or
a repair or an op runs (R379, R419). -/
def opTestChannel (s : State) (q c : Nat) : State :=
  let unit := 66 * q + s.chanPhys q c
  match s.freeChans q with
  | p :: _ =>
    if s.svc.bistBusy || s.repairing q || !s.inService then setBist s 3 unit 3
    else startRepair (setBist (s.modSvc (fun v => { v with bistBusy := true })) 3 unit 0) q c p true
  | [] => setBist s 3 unit 3

/-- TEST_CHANNEL (R379). -/
def execTestChannel (q : Fin 4) (chan : Fin 64) (s : State) : Res := .next (opTestChannel s q chan)

/-- SPARE_CHANNEL_TEST: the march test of a free spare channel begins (R379). -/
def execSpareChannelTest (q : Fin 4) (chan : Fin 66) (s : State) : Res :=
  s.whenRuns <|
  if s.chanFree q chan then
    let n := 66 * q.val + chan.val
    .next ((setBist s 4 n 0).modSvc (fun v => { v with march := addTo n v.march }))
  else .next s

/-- CHANNEL_MARCH_TEST_DONE: the channel becomes a free spare or is marked failed (R379). -/
def execChannelMarchTestDone (q : Fin 4) (chan : Fin 66) (pass : Bool) (s : State) : Res :=
  s.whenRuns <|
  let n := 66 * q.val + chan.val
  let fail (s : State) : State := if pass then s else s.modSpares (fun x => { x with badChans := addTo n x.badChans })
  if s.spares.testChans.contains n then
    let s := fail (s.modSpares (fun x => { x with testChans := x.testChans.filter (fun m => decide (m ≠ n)) }))
    .next (setBist (s.modSvc (fun v => { v with bistBusy := false })) 3 n (outcome pass))
  else if s.svc.march.contains n then
    .next (setBist (fail (s.modSvc (fun v => { v with march := v.march.filter (fun m => decide (m ≠ n)) }))) 4 n (outcome pass))
  else .next s

/-- BOND_RECENTRE: a channel re-centres its bond timing within refresh windows; no register reports it (R379). -/
def execBondRecentre (_q : Fin 4) (_chan : Fin 66) (s : State) : Res := .next s

/-! ## Ops of SVC_UPDATE_CTRL (R372 to R376, R397, R419) -/

/-- The status of the latest op. -/
def opStatus (s : State) (v : Nat) : State := s.setFld SVC_UPDATE_CTRL_status v

/-- The running op ends. -/
def opEnd (s : State) (v : Nat) : State := opStatus (s.modSvc (fun x => { x with op := 0 })) v

/-- An op starts to run. -/
def opRun (s : State) (op : Nat) : State := opStatus (s.modSvc (fun x => { x with op := op })) 1

/-- A firmware slot: false A, true B. -/
def Flash.slot (f : Flash) (b : Bool) : FwSlot := if b then f.slotB else f.slotA
def Flash.setSlot (f : Flash) (b : Bool) (x : FwSlot) : Flash := if b then { f with slotB := x } else { f with slotA := x }

/-- The flash changed. -/
def State.modFlash (s : State) (f : Flash → Flash) : State := s.modPlat (fun p => { p with flash := f p.flash })

/-- The microcode copies of a stack domain. -/
def Domain.ucode (d : Domain) (active : Bool) : FlashCopy := if d.ucodeActive = active then d.ucode1 else d.ucode0

/-- The inactive slot's firmware accepts the handover record of the running firmware (R373). -/
def handoverOk (s : State) : Bool :=
  let a := s.plat.flash.slot s.plat.running
  let b := s.plat.flash.slot (!s.plat.running)
  b.valid && decide (b.recMin.toNat ≤ a.recWrite.toNat) && decide (a.recWrite.toNat ≤ b.recMax.toNat)

/-- SWAP_UCODE: the swap of each domain of the mask is scheduled (R376). The op runs until the last has landed. -/
def scheduleSwap (s : State) : State :=
  let v := BitVec.ofNat 16 (s.fld SVC_UPDATE_CTRL_v)
  (setBitsOf (s.fld SVC_UPDATE_CTRL_mask) 4).foldl (fun s q =>
    s.modDom q (fun d => { d with ucodeSwap := some (match s.owner q with
      | some j => some (v, s.step j)
      | none => none) })) s

/-- SET_MIN_VERSION: the fused minimum rises to a value no greater than the running image's; an inactive slot below
it is marked invalid and the boot record written again (R375, R392). The running microcode is that of every stack
domain. -/
def setMinVersion (s : State) : State :=
  let v := s.fld SVC_UPDATE_CTRL_version
  let w := BitVec.ofNat 32 v
  if s.fld SVC_UPDATE_CTRL_target = 1 then
    let run := (List.range 4).map (fun q => ((s.dom q).ucode true).secVersion.toNat)
    if v < s.plat.fuses.minUcode.toNat ∨ run.any (fun r => decide (r < v)) then opStatus s 6
    else opStatus (s.modPlat (fun p => { p with fuses := { p.fuses with minUcode := w } })) 2
  else if v < s.plat.fuses.minFw.toNat ∨ (s.plat.flash.slot s.plat.running).secVersion.toNat < v then opStatus s 6
  else
    let s := s.modPlat (fun p => { p with fuses := { p.fuses with minFw := w } })
    let b := s.plat.flash.slot (!s.plat.running)
    let s := if b.valid ∧ b.secVersion.toNat < v then
        s.modFlash (fun f => { (f.setSlot (!s.plat.running) { b with valid := false }) with bootSeq := f.bootSeq + 1 })
      else s
    opStatus s 2

/-- PROGRAM_OWNER: the owner fuses take the digest of the operator key measured at stage 3; fuses already programmed
refuse it (R322, R375). -/
def programOwner (s : State) : State :=
  match s.plat.fuses.owner with
  | some _ => opStatus s 6
  | none =>
    let d := ((s.lantern.events.find? (fun e => decide (e.1 = 3))).map (·.2.2)).getD 0
    opStatus (extendM (s.modPlat (fun p => { p with fuses := { p.fuses with owner := some p.keyDigest } })) 8 d) 2

/-- An op written to SVC_UPDATE_CTRL: BUSY while another runs, refused where Table SVC-1 or R375 does not permit it
(R419). -/
def startOp (s : State) (op : Nat) : State :=
  if op = 0 ∨ 8 ≤ op then s
  else if s.svc.op ≠ 0 then opStatus s 4
  else if !s.inService ∨ (6 ≤ op ∧ s.plat.dev ≠ .ready) then opStatus s 6
  else if op = 2 then
    (if handoverOk s then (opRun s 2).modSvc (fun v => { v with handover := some none }) else opStatus s 5)
  else if op = 4 then (if s.fld SVC_UPDATE_CTRL_mask = 0 then opStatus s 2 else scheduleSwap (opRun s 4))
  else if op = 6 then setMinVersion s
  else if op = 7 then programOwner s
  else opRun s op

/-- LOAD_FW (R372). -/
def execLoadFw (s : State) : Res := .next (startOp s 1)
/-- HANDOVER (R373). -/
def execHandover (s : State) : Res := .next (startOp s 2)
/-- LOAD_UCODE (R376). -/
def execLoadUcode (s : State) : Res := .next (startOp s 3)
/-- SWAP_UCODE (R376). -/
def execSwapUcode (s : State) : Res := .next (startOp s 4)
/-- LOAD_CONFIG (R397). -/
def execLoadConfig (s : State) : Res := .next (startOp s 5)
/-- SET_MIN_VERSION (R375). -/
def execSetMinVersion (s : State) : Res := .next (startOp s 6)
/-- PROGRAM_OWNER (R375). -/
def execProgramOwner (s : State) : Res := .next (startOp s 7)

/-- MICROCODE_SWAP: at the tick, with every tile of the domain idle, the other copy becomes the active one and M is
extended with event 7 (R17, R321, R376). -/
def execMicrocodeSwap (q : Fin 4) (s : State) : Res :=
  s.whenRuns <|
  if 1 ≤ s.clock.order ∧ s.clock.order ≤ 4 ∧ ucodeDue s q ∧ s.tiles.all (fun p => decide (p.1 / 256 ≠ q.val) || !p.2.busy) then
    let s := s.modDom q (fun d => { d with ucodeActive := !d.ucodeActive, ucodeSwap := none })
    let s := extendM (s.modClock (fun c => { c with order := 4 })) 7 ((s.dom q).ucode true).digest
    .next (if (List.range 4).all (fun k => (s.dom k).ucodeSwap.isNone) ∧ s.svc.op = 4 then opEnd s 2 else s)
  else .next s

/-! ## Handover (R373, R374) -/

/-- A round of a job stands in one of some stages here. -/
def roundIn (s : State) (j : Nat) (l : List Stage) : Bool := (s.job j).dxe.rounds.any (fun y => l.contains y.stage)

/-- A quiet point (R373). -/
def quietPoint (s : State) : Bool :=
  s.runningJobs.all (fun j => decide ((s.job j).phase ≠ .committing) && decide ((s.job j).phase ≠ .repairing) && !roundIn s j [.computing] &&
    !(s.isLeadDevice j && roundIn s j [.receipted, .computing, .sealed])) &&
  (List.range 4).all (fun q => decide (s.repairState q ≠ 2)) && s.svc.remaps.all (fun r => r.copied.isNone) && s.sec.shakes.isEmpty

/-- A firmware image starts: M is extended with event 6 (R373, R374). -/
def startImage (s : State) (slot : Bool) : State :=
  extendM (s.modPlat (fun p => { p with running := slot })) 6 (s.plat.flash.slot slot).digest

/-- HANDOVER_QUIET_POINT: CTRL execution stops, the record is written, and the new image starts. The pause lasts
until it confirms. -/
def execHandoverQuietPoint (s : State) : Res :=
  s.whenClocked <|
  if s.svc.op = 2 ∧ s.svc.handover = some none ∧ quietPoint s then
    let new := !s.plat.running
    .next ((startImage s new).modSvc (fun v => { v with paused := true, handover := some (some (ofBool new)) }))
  else .next s

/-- HANDOVER_BUSY: no quiet point within 10 s (R373). -/
def execHandoverBusy (s : State) : Res :=
  s.whenClocked <|
  if s.svc.op = 2 ∧ s.svc.handover = some none then .next (opEnd (s.modSvc (fun v => { v with handover := none })) 4) else .next s

end Sys2Proof.Machine
end

