-- ==== Sys2Proof/Machine/Debug.lean ====
section
/-! DEFINITION. Freeze, scan, thaw and POST-MORTEM (R382 to R386). -/
namespace Sys2Proof.Machine

/-- The device freezes: DRAM goes into self-refresh, LS_EN falls, the links are dark, the clocks stop. No notice can
leave (R382, R383, R432). -/
def freeze (s : State) (cycles : BitVec 16) (bit : Bool) : State :=
  let s := s.modPlat (fun p => { p with selfRefresh := true })
  let s := hostDown (darkPorts (setLight s false))
  let s := s.modSvc (fun v => { v with stopCycles := cycles, freezeBit := v.freezeBit || bit })
  (s.modClock (fun c => { c with ticking := false, realign := true, order := 0 })).setDev .frozen

/-- FREEZE_N_FALL: a falling edge acts in READY, RUN and DRAIN only (R382, R399). -/
def execFreezeNFall (cycles : BitVec 16) (s : State) : Res := .next (if s.inService then freeze s cycles false else s)

/-- A write of freeze: elsewhere it is ignored and raises cfg_reject (R382). -/
def writeFreeze (s : State) (cycles : BitVec 16) : State × Bool := if s.inService then (freeze s cycles true, true) else (s.cfgReject, false)

/-- DBG_FREEZE (R382). -/
def execDbgFreeze (cycles : BitVec 16) (s : State) : Res := .next (writeFreeze s cycles).1

/-- A job that ran on the device is stopped by a thaw: its open attempt's ledger entry is written as aborted
(R385). -/
def thawJob (s : State) (j : Nat) : State :=
  let s := if (s.job j).att.started then closeAttempt (beginAbort s j reasonPeerLoss 0 s.origin) j else s
  stopJob s j

/-- THAW: with freeze cleared and no chain partly shifted the clocks restart and the device enters TRAIN. Stacks,
self-test, optical calibration and known-answer tests hold from before (R385). -/
def execThaw (s : State) : Res :=
  if s.plat.dev = .frozen ∧ s.svc.shifts.isEmpty then
    let s := s.modPlat (fun p => { p with
      selfRefresh := false, train := { p.train with hostWaived := false, linkWaitOver := false } })
    let s := s.modSvc (fun v => { v with freezeBit := false })
    let s := s.runningJobs.foldl thawJob (setLight s true)
    .next (s.enter .train)
  else .next s

/-- From FROZEN to POST-MORTEM; every job is STOPPED without a ledger entry, page associations are erased, staged writes
discarded (R345, R371, R386). -/
def enterPostMortem (s : State) : State :=
  if s.plat.dev = .frozen then
    let s := s.runningJobs.foldl stopJob (erasePages (s.modPlat (fun p => { p with selfRefresh := false })))
    let s : State := { s with staged := [] }
    s.enter .postMortem
  else s

/-- PM_ENTER (R386). -/
def execPmEnter (s : State) : Res := .next (enterPostMortem s)

/-- SCAN_SHIFT: TCK shifts the selected chain, whose output leaves; a shift of its whole length leaves it as it was.
Its length is the device's (R384, DESIGN CHOICE, log entry 2). -/
def execScanShift (bits : BitVec 32) (s : State) : Res :=
  let c := s.fld DBG_SCAN_CTRL_chain
  let open' := decide (s.plat.dev = .frozen) || decide (s.plat.dev = .postMortem)
  if open' ∧ c < 1334 then
    let pos := (look s.svc.shifts c 0 + bits.toNat) % (Config.chainLength c + 1)
    .next ((s.modSvc (fun v => { v with shifts := store v.shifts c pos 0 })).emit (.scan bits.toNat))
  else .next s

end Sys2Proof.Machine
end

