-- ==== Sys2Proof/Machine/Sessions.lean ====
section
/-! DEFINITION. The host port's link, its ICMP and its counters, sessions closing, and notices sent again (R301 to
R305, R309, R317, R387, R417, R433). -/
namespace Sys2Proof.Machine

/-- HOST_LINK_UP: the link comes up in a state in which the host port runs (R387, Table ARC-6). -/
def execHostLinkUp (s : State) : Res :=
  .next (if s.hostRuns then (s.setFld HST_PORT_STATUS_link_up 1).setFld HST_PORT_STATUS_fec_lock 1 else s)

/-- HOST_LINK_DOWN: traffic of the port stops until the link retrains (R433). -/
def execHostLinkDown (s : State) : Res := .next (hostDown s)

/-- The VLANs configured for the device: its own, and those of the paths to its partners (R301, R306; DEDUCED, log entry 134). -/
def State.vlans (s : State) : List Nat :=
  s.fld HST_IP_CFG_vlan ::
    s.runningJobs.flatMap (fun j => if s.fld DXE_CTRL_enable j = 0 then [] else
      ((List.range (min 16777216 (s.dxeWord j 12 4))).map (fun k => s.dxeWord j 32 8 + 64 * k) ++
        (List.range (min 1024 (s.dxeWord j 16 2))).map (fun k => s.dxeWord j 40 8 + 64 * k)).flatMap (fun o =>
          [s.dxeWord j (o + 52) 2, s.dxeWord j (o + 60) 2]))

/-- A frame as R301 accepts it. -/
def frameFits (s : State) (w : Wire) : Bool :=
  decide (w.frameLen ≤ 9216) && (match w.vlan with
    | some v => s.vlans.contains v.toNat
    | none => false)

/-- The classes of Table HST-3. -/
def classKnown (c : BitVec 8) : Bool := decide (1 ≤ c.toNat) && decide (c.toNat ≤ 8)

/-- A Ubtik datagram as R303 and R305 accept it. -/
def datagramFits (s : State) (w : Wire) : Bool :=
  w.checksumOk && decide (w.port = s.ubPort) && decide (w.version = 1) && classKnown w.cls && decide (w.flags.toNat % 32 = 0) &&
    decide (w.dst.toNat = s.origin) && decide (w.length.toNat ≤ 9098) &&
    decide (w.udpLen.toNat = 8 + 32 + w.length.toNat + (if w.flags.getLsbD 7 then 16 else 0))

/-- DISCARDED_FRAME: an uncorrectable codeword, a frame against R301 or a datagram against R303 or R305 is discarded and
counted; a packet with an extension header is discarded (R302). What none of them forbids is no frame of this command
(DESIGN CHOICE, log entry 46). -/
def execDiscardedFrame (w : Wire) (s : State) : Res :=
  if s.hostUp then
    .next (if w.fec then s.count HST_PORT_STATUS_fec_uncorr
      else if !frameFits s w then s.count HST_PORT_STATUS_frame_discards
      else if w.extension then s
      else if !datagramFits s w then s.count HST_PORT_STATUS_ubtik_discards
      else s)
  else .next s

/-- The counters of HST_PORT_STATUS are zeroed (R417). -/
def clearStats (s : State) : State :=
  ((s.setFld HST_PORT_STATUS_frame_discards 0).setFld HST_PORT_STATUS_ubtik_discards 0).setFld HST_PORT_STATUS_fec_uncorr 0

/-- STATS_CLEAR (R417). -/
def execStatsClear (s : State) : Res := .next (clearStats s)

/-! ## ICMPv6 (R302) -/

/-- The global unicast address. -/
def State.globalAddr (s : State) : BitVec 128 := BitVec.ofNat 128 (s.fld HST_IP_CFG_address_hi * 2 ^ 64 + s.fld HST_IP_CFG_address_lo)

/-- The link-local address, with the interface identifier formed from the MAC address (PRESUMED, log entry 26). -/
def State.localAddr (s : State) : BitVec 128 :=
  let m := s.fld HST_MAC_ADDR_mac
  let id := (bits m 24 47 ^^^ 0x020000) * 2 ^ 40 + 0xFFFE * 2 ^ 24 + bits m 0 23
  BitVec.ofNat 128 (0xFE80 * 2 ^ 112 + id)

/-- A neighbour is known. -/
def addNeighbour (a : BitVec 128) (l : List (BitVec 128)) : List (BitVec 128) := if l.contains a then l else l ++ [a]

/-- NEIGHBOR_SOLICITATION: one for an address of the device is answered, and shows its sender as a neighbour (R302). -/
def execNeighborSolicitation (target source : BitVec 128) (s : State) : Res :=
  .next (if target = s.globalAddr ∨ target = s.localAddr then
      (s.net (.neighbour source)).modHost (fun h => if s.hostUp then { h with neighbours := addNeighbour source h.neighbours } else h)
    else s)

/-- ECHO_REQUEST (R302). -/
def execEchoRequest (source : BitVec 128) (data : Bytes) (s : State) : Res :=
  .next (if s.hostUp then (s.resolve source).net (.echo source data) else s)

/-! ## Sessions (R309, R345) -/

/-- A session closes: its keys are erased, and its requests that wait for a job get no answer. -/
def closeSession (s : State) (slot : Nat) : State :=
  match assoc s.host.sessions slot with
  | none => s
  | some x =>
    let s := s.modHost (fun h => { h with
      sessions := h.sessions.filter (fun p => decide (p.1 ≠ slot)), pendingStop := h.pendingStop.filter (fun p => decide (p.1 ≠ x.id)) })
    s.modSec (fun z => { z with assocs := z.assocs.filter (fun a => !(decide (a.kind = 1) && decide (a.slot = slot))) })

/-- SESSION_TIMEOUT: 60 s without a valid datagram from the host (R309). -/
def execSessionTimeout (slot : Fin 8) (s : State) : Res := s.whenClocked <| .next (closeSession s slot)

/-- session_kill closes the slots whose bits are set (R309, R417). -/
def killSessions (s : State) (mask : Nat) : State := (setBitsOf mask 8).foldl closeSession s

/-- SESSION_KILL (R309). -/
def execSessionKill (slots : BitVec 8) (s : State) : Res := .next (killSessions s slots.toNat)

/-- NOTIFY_RESEND: 10 ms have passed and the unacknowledged notices of a session leave again (R317). -/
def execNotifyResend (slot : Fin 8) (s : State) : Res :=
  s.whenClocked <|
  match assoc s.host.sessions slot with
  | none => .next s
  | some x => .next (x.notices.foldl (fun s n => s.sendTo slot (.notice x.id n)) s)

/-- A notice is acknowledged; once there is room the session is told how many were dropped (R317: notice 15). -/
def ackNotice (s : State) (slot number : Nat) : State :=
  match assoc s.host.sessions slot with
  | none => s
  | some x =>
    let left := x.notices.filter (fun n => decide (n.number ≠ number))
    let s := s.setSession slot { x with notices := left }
    if x.dropped ≠ 0 ∧ left.length < 256 then
      sendNotice (s.setSession slot { x with notices := left, dropped := 0 }) slot 15 0xFF x.dropped
    else s

end Sys2Proof.Machine
end

