-- ==== Sys2Proof/Machine/Secure.lean ====
section
/-! DEFINITION. Associations and their handshake, key epochs, cipher engine pairs and the admission of datagrams
(R323 to R345, R381). -/
namespace Sys2Proof.Machine

/-! ## Cipher engine pairs (R339, R340, R381) -/

/-- A pair is fenced, after its lantern entry: a host pair by withdrawal from every job, the bulk pair by abandoning
every tagged transfer (R340, Table FLT-3). -/
def fencePair (s : State) (p : Nat) (inj : Bool) : State :=
  if s.fencedPair p then s
  else
    let n := (s.sec.recent.filter (fun r => decide (r.1 = p))).length
    let s := if p = pairBulk then logEntry s 2 srcCipher 0x07 0 0 p n inj else deviceContain s s.runningJobs srcCipher 0x07 p n inj
    let s := s.orFld SEC_CMP_FAULT_fenced (2 ^ p)
    if p = pairBulk then
      let gone := s.host.bulks.filter (fun b => b.host || s.pageEnc b.page)
      gone.foldl (fun s b => s.notify 9 0xFF b.id)
        (s.modHost (fun h => { h with bulks := h.bulks.filter (fun b => !(b.host || s.pageEnc b.page)) }))
    else s

/-- CIPHER_FENCE (R340). -/
def execCipherFence (pair : Fin 3) (s : State) : Res := .next (fencePair s pair false)

/-- CIPHER_KAT: a known-answer test passes, the first one of a boot among the conditions for leaving TRAIN, or fences
its pair (R381, R388). -/
def execCipherKat (pair : Fin 3) (pass : Bool) (s : State) : Res :=
  if s.fencedPair pair then .next s
  else if pass then
    .next (if s.plat.dev = .train then s.modPlat (fun p => { p with train := { p.train with kat := p.train.kat ||| BitVec.ofNat 3 (2 ^ pair.val) } }) else s)
  else .next (fencePair s pair false)

/-- A tagged message passes a pair, with the mismatches it met: counted, and the pair is fenced by one on the repeat
or by more than 8 within 1 s (R339, R340, R342). -/
def engine (s : State) (p : Nat) (urgent : Bool) (job : Nat) (u : Ubtik) : State × Bool :=
  let n := u.mismatches.toNat
  if s.fencedPair p || s.halted (blkPair + p) then (s, false)
  else
    let s := s.through p urgent job u.length.toNat
    if n = 0 then (s, true)
    else
      let now := s.clock.uptime
      let word := s.reg 0xB020
      let s := s.setReg 0xB020 (withBits word (16 * p) (16 * p + 15) (satTo 16 (bits word (16 * p) (16 * p + 15) + n)))
      let s := s.modSec (fun x => { x with
        recent := List.replicate n (p, now) ++ x.recent.filter (fun r => decide (now < r.2 + 1000000000)) })
      let many := decide (8 < (s.sec.recent.filter (fun r => decide (r.1 = p))).length)
      if 2 ≤ n ∨ many then (fencePair s p false, false) else (s, true)

/-! ## Key epochs (R333 to R335) -/

/-- The association that SEC_PAGE_SEL names; a session's is that of its slot. -/
def State.assocAt (s : State) (page slot : Nat) : Option Assoc :=
  s.sec.assocs.find? (fun a => decide (a.page = page) && decide (a.slot = slot))

def State.modAssoc (s : State) (page slot : Nat) (f : Assoc → Assoc) : State :=
  s.modSec (fun x => { x with assocs := modFirst (fun a => decide (a.page = page) && decide (a.slot = slot)) f x.assocs })

/-- KEY_EPOCH_AGE: a transmit epoch has been current for 10 minutes: it advances, at once or when the previous one is
released (R333). -/
def execKeyEpochAge (page : BitVec 8) (assoc : BitVec 11) (s : State) : Res :=
  s.whenClocked <|
  .next (endAssocs (s.modAssoc page.toNat assoc.toNat (fun a => { a with tx := a.tx.advance s.clock.uptime })))

/-- The previous transmit epoch is released; an advance that waits for it follows. -/
def Epochs.release (e : Epochs) (now : Nat) : Epochs :=
  let e := { e with previous := none, keyBefore := none }
  if e.wantNext then e.advance now else e

/-- EPOCH_RELEASE (R334). -/
def execEpochRelease (page : BitVec 8) (assoc : BitVec 11) (s : State) : Res :=
  s.whenClocked <|
  .next (endAssocs (s.modAssoc page.toNat assoc.toNat (fun a => { a with tx := a.tx.release s.clock.uptime })))

/-- A receiver's use of a key epoch (Table SEC-8): none when it is discarded, else whether a good tag advances. -/
def Epochs.use (e : Epochs) (k : Nat) : Option Bool :=
  if k = e.current ∨ e.previous = some k then some false else if k = e.current + 1 then some true else none

/-! ## Admission (R331, R332, R344) -/

def admitFail (s : State) : State := s.count SEC_STATUS_admit_fail

/-- A tag has verified: the receive epochs advance when it was under the next one (Table SEC-8). -/
def advanceRx (s : State) (u : Ubtik) (a : Assoc) : State :=
  if a.rx.use u.keyEpoch.toNat = some true then s.modAssoc a.page a.slot (fun a => { a with rx := a.rx.step s.clock.uptime }) else s

/-- The fifth check: key epoch and tag, through an engine pair; a failed tag is counted, and nothing of the message is
released (R332, R335, R339). A datagram of a segment is held: its tag is that of the whole segment (R314). -/
def checkTag (s : State) (u : Ubtik) (a : Assoc) (pair cls : Nat) (hold : Bool) : State × Bool :=
  match a.rx.use u.keyEpoch.toNat with
  | none => (admitFail s, false)
  | some _ =>
    let host := decide (a.kind = 1)
    let r := engine s pair (urgentClass host cls) (if host then 4 else s.fld SEC_PAGE_CTRL_job a.page) u
    if !r.2 ∨ hold then r
    else if !u.tagOk then (r.1.count SEC_STATUS_tag_fail, false)
    else (advanceRx r.1 u a, true)

/-- The job a page is bound to. -/
def State.pageJob (s : State) (p : Nat) : Option Nat :=
  if p < 16 ∧ s.fld SEC_PAGE_CTRL_bound p = 1 then some (s.fld SEC_PAGE_CTRL_job p) else none

/-- The states in which job traffic is accepted (Table ARC-6). -/
def State.jobTraffic (s : State) : Bool := s.hostUp && s.inService

/-- A datagram of job traffic is admitted under R344: the job and association, after the counts that the checks
make. -/
def admitJob (s : State) (u : Ubtik) (pair cls : Nat) (kind : BitVec 8) (hold : Bool := false) : State × Option (Nat × Assoc) :=
  if !s.jobTraffic then (s, none)
  else
    let p := u.page.toNat
    match s.pageJob p with
    | none => (admitFail s, none)
    | some j =>
      if !(s.job j).running ∨ (s.job j).fedJob ≠ u.context then (admitFail s, none)
      else match s.assocOf kind p u.src with
        | none => (admitFail s, none)
        | some a =>
          if u.tagged ≠ s.pageEnc p then (admitFail s, none)
          else if u.tagged then
            let r := checkTag s u a pair cls hold
            (r.1, if r.2 then some (j, a) else none)
          else (s, some (j, a))

/-- A host's datagram is admitted under its session's keys, once its page has been checked: an acknowledgement by the
receive pair, or the bulk pair when that is fenced; BULK data by the bulk pair (R331, R340, R344). -/
def admitHost (s : State) (u : Ubtik) (slot pair cls : Nat) (pageOk : Bool) (hold : Bool := false) : State × Bool :=
  if !s.hostUp then (s, false)
  else if !pageOk then (admitFail s, false)
  else match s.assocAt 0xFF slot with
    | none => (admitFail s, false)
    | some a =>
      if !u.tagged ∨ u.src ≠ 0xFFFFFFFF then (admitFail s, false)
      else checkTag s u a (if s.fencedPair pair then pairBulk else pair) cls hold

/-! ## Handshake payloads (Table SEC-5, Table SEC-3) -/

def initBytes (b : InitBody) : Bytes :=
  [0x00, 0xE0, 0, 0, b.kind, b.flags, b.page, 0] ++ toBE 16 b.nonce.toNat ++ toBE 56 b.eph.toNat

/-- The bytes of a RESP before its signature. -/
def respBytes (b : RespBody) (quote : Bytes) : Bytes :=
  [0x00, 0xE1, b.status, 0] ++ toBE 4 b.session.toNat ++ toBE 16 b.nonce.toNat ++ toBE 56 b.eph.toNat ++ toBE 16 b.serial.toNat ++
    toBE 57 b.pubkey.toNat ++ toBE 114 b.certSig.toNat ++ [0] ++ toBE 2 quote.length ++ quote

/-- Bytes 0 to 194 of a FIN. -/
def finBytes (b : FinBody) : Bytes :=
  [0x00, 0xE2, 0, 0, b.credential, 0, 0, 0] ++ toBE 16 b.serial.toNat ++ toBE 57 b.pubkey.toNat ++ toBE 114 b.certSig.toNat

/-- The message that a handshake signature covers. -/
def hashed (bs : Bytes) : Bytes := toLE 64 (Config.shake256 bs 512).toNat

def respHash (i : InitBody) (r : RespBody) (quote : Bytes) : Bytes := hashed (initBytes i ++ respBytes r quote)

def finHash (i : InitBody) (r : RespBody) (quote : Bytes) (f : FinBody) : Bytes :=
  hashed (initBytes i ++ respBytes r quote ++ toBE 114 r.sig.toNat ++ finBytes f)

/-- The quote of Table SEC-3. -/
def quote (s : State) : Bytes :=
  toBE 8 s.clock.siteTime ++ toBE 1 s.plat.dev.code ++ toBE 1 (ofBool s.plat.running) ++ [0, 0] ++
    toBE 4 (s.plat.flash.slot s.plat.running).secVersion.toNat ++ toBE 4 s.lantern.eventCount ++ toLE 64 s.lantern.meas.toNat ++
    toLE 32 (s.plat.fuses.owner.getD 0).toNat

/-! ## Credentials (Table SEC-4, Tables DXR-12 and DXR-13) -/

/-- A page is bound to a job whose partner or site-lead table names it (R326). -/
def pageNamed (s : State) (p : Nat) : Option Nat :=
  match s.pageJob p with
  | none => none
  | some j => if (partnerTable s j ++ siteTable s j).any (fun e => decide (e.page = p)) then some j else none

/-- A device is listed for a kind of association in a page: as a partner device, or as one of a listed site, whose lead
may move (Table SEC-4). -/
def peerListed (s : State) (j : Nat) (kind : BitVec 8) (page : Nat) (peer : BitVec 32) : Bool :=
  if kind = 2 then (partnerTable s j).any (fun e => decide (e.device = peer) && decide (e.page = page))
  else (siteTable s j).any (fun e => decide (e.site = siteOf peer) && decide (e.page = page))

/-- A vendor certificate's serial is that of the tables for the peer (Table SEC-4). -/
def serialListed (s : State) (j : Nat) (kind : BitVec 8) (page : Nat) (peer : BitVec 32) (serial : BitVec 128) : Bool :=
  if kind = 2 then (partnerTable s j).any (fun e => decide (e.device = peer) && decide (e.site = siteOf peer) && decide (e.page = page) && decide (e.serial = serial))
  else peerListed s j kind page peer && (partnerTable s j ++ siteTable s j).any (fun e => decide (e.site = siteOf peer) && decide (e.serial = serial))

/-! ## Keys (R327) -/

/-- The chain value of a direction at its first epoch: d is 0 for the initiator's. -/
def firstChain (z : BitVec 448) (i : InitBody) (r : RespBody) (quote : Bytes) (f : FinBody) (d : Nat) : BitVec 512 :=
  let th := Config.shake256 (initBytes i ++ respBytes r quote ++ toBE 114 r.sig.toNat ++ finBytes f ++ toBE 114 f.sig.toNat) 512
  let ms := Config.shake256 (label "KL7 ms" ++ toBE 56 z.toNat ++ toLE 64 th.toNat) 512
  Config.shake256 (label "KL7 dir" ++ toLE 64 ms.toNat ++ toLE 1 d) 512

/-- A handshake datagram is tagged under key_epoch 0, with the tag that the nonce of its INIT gives (R325, Table SEC-8); one that
is not is discarded and counted. -/
def shakeOk (s : State) (t : HsTag) (nonce : BitVec 128) : State × Bool :=
  if !t.tagged ∨ t.keyEpoch ≠ 0 then (admitFail s, false)
  else if t.tag ≠ shakeTag nonce t.header then (s.count SEC_STATUS_tag_fail, false)
  else (s, true)

/-- A KL7 identity: the vendor's signature over serial and key verifies (R318). -/
def vendorCert (serial : BitVec 128) (key : BitVec 456) (sig : BitVec 912) : Bool :=
  Config.ed448Verify ctxVendor Config.vendorKey (toBE 16 serial.toNat ++ toBE 57 key.toNat) sig

/-- The credential of a FIN passes Table SEC-4. -/
def credentialOk (s : State) (h : Shake) (b : FinBody) : Bool :=
  if h.init.kind = 1 then
    decide (b.credential = 2) && s.plat.hosts.contains b.serial &&
      Config.ed448Verify ctxOperator s.plat.opKey (toBE 16 b.serial.toNat ++ toBE 57 b.pubkey.toNat) b.certSig
  else match pageNamed s h.init.page.toNat with
    | none => false
    | some j => decide (b.credential = 1) && vendorCert b.serial b.pubkey b.certSig && serialListed s j h.init.kind h.init.page.toNat h.peer b.serial

/-! ## The responder (R323 to R328) -/

/-- Session slots in no use: neither open nor held by a half-open handshake. -/
def State.freeSlots (s : State) : List Nat :=
  (List.range 8).filter (fun k => (assoc s.host.sessions k).isNone && !s.sec.shakes.any (fun h =>
    !h.initiator && decide (h.init.kind = 1) && h.resp.any (fun r => decide (r.1.session.toNat % 8 = k))))

/-- Association numbers in use in a page. -/
def State.pageAssocs (s : State) (p : Nat) : List Nat := (s.sec.assocs.filter (fun a => decide (a.page = p))).map (·.slot)

/-- The status that answers an INIT (Table SEC-6): its checks in order. -/
def initStatus (s : State) (b : InitBody) : Nat :=
  let k := b.kind.toNat
  let p := b.page.toNat
  if k = 0 ∨ 3 < k ∨ 8 ≤ b.flags.toNat then 1
  else if k = 1 then
    if b.page ≠ 0xFF then 2
    else if b.src ≠ 0xFFFFFFFF then 3
    else if s.freeSlots.isEmpty ∨ 64 ≤ (s.sec.shakes.filter (fun h => !h.initiator)).length then 5
    else if !s.hostRuns then 6 else 0
  else match pageNamed s p with
    | none => 2
    | some j =>
      if !peerListed s j b.kind p b.src then 3
      else if b.flags.getLsbD 2 ≠ s.pageEnc p then 4
      else if 2048 ≤ (s.pageAssocs p).length ∨ 64 ≤ (s.sec.shakes.filter (fun h => !h.initiator)).length then 5
      else if s.plat.dev ≠ .run then 6 else 0

/-- A RESP of a refused handshake carries its status only (R326). -/
def respRefused (s : State) (v : Nat) : RespBody :=
  { src := BitVec.ofNat 32 s.origin, status := BitVec.ofNat 8 v, session := 0, nonce := 0, eph := 0, serial := 0, pubkey := 0, certSig := 0, sig := 0 }

/-- INIT: checked, and answered by RESP, with the quote and the log that it asks for. Of two handshakes between the
same devices the one begun by the lower index stays (R323, R326, R328). -/
def execInit (d : Tagged InitBody) (s : State) : Res :=
  let t := d.tag
  let b := d.body
  let k := shakeOk s t b.nonce
  if !s.hostUp ∨ !s.passes pairRx (decide (b.kind = 1)) then .next s
  else if s.svc.paused then .next (holdBack s (.init d))
  else if !k.2 then .next k.1
  else
    let v := initStatus s b
    if v ≠ 0 then .next (s.shakeNet b.kind b.path b.src b.nonce (.resp b.src (respRefused s v) []))
    else
      let mine (h : Shake) : Bool := h.initiator && decide (h.peer = b.src) && decide (h.init.kind = b.kind) && decide (h.init.page = b.page)
      if s.sec.shakes.any mine ∧ s.origin < b.src.toNat then .next s
      else
        let secret := Config.random (s.free + 1)
        let eph := Config.x448Public secret
        let nonce := (Config.random s.free).setWidth 128
        let slot := s.freeSlots.headD 0
        let q := if b.flags.getLsbD 0 then quote s else []
        let r : RespBody :=
          { src := BitVec.ofNat 32 s.origin, status := 0, session := if b.kind = 1 then BitVec.ofNat 32 (8 * (s.host.sessionNext + 1) + slot) else 0,
            nonce := nonce, eph := eph, serial := Config.serial, pubkey := Config.ed448Public s.plat.idKey, certSig := Config.certSig, sig := 0 }
        let r := { r with sig := Config.ed448Sign ctxResp s.plat.idKey (respHash b r q) }
        let s : State := { s with free := s.free + 2 }
        if Config.x448 secret b.eph = 0 then .next s
        else
          let old (h : Shake) : Bool := mine h || (!h.initiator && decide (b.kind ≠ 1) && decide (h.peer = b.src) && decide (h.init.kind = b.kind) && decide (h.init.page = b.page))
          let h : Shake := { initiator := false, peer := b.src, attempts := 1, secret := secret, init := b, resp := some (r, q) }
          let s := s.modSec (fun x => { x with shakes := x.shakes.filter (fun h => !old h) ++ [h] })
          let s := if b.kind = 1 then s.modHost (fun h => { h with sessionNext := h.sessionNext + 1 }) else s
          let s := s.shakeNet b.kind b.path b.src b.nonce (.resp b.src r q)
          .next (if b.flags.getLsbD 0 && b.flags.getLsbD 1 then
              (pieces 126 (s.lantern.events.length + 1) s.lantern.events).foldl (fun s es => s.shakeNet b.kind b.path b.src b.nonce (.log es)) s
            else s)

/-- The lowest association number free in a page. -/
def State.freeAssoc (s : State) (p : Nat) : Nat := ((List.range 2048).find? (fun n => !(s.pageAssocs p).contains n)).getD 0

/-- An association takes over from an old one of its kind, page and peer; messages of a peer are numbered afresh
(R328, R337). -/
def formAssoc (s : State) (kind : BitVec 8) (page : Nat) (peer : BitVec 32) (slot : Option Nat) (serial : BitVec 128) (key : BitVec 456)
    (tx rx : BitVec 512) : State :=
  let now := s.clock.uptime
  let same (a : Assoc) : Bool := decide (kind ≠ 1) && decide (a.kind = kind) && decide (a.page = page) && decide (a.peer = peer)
  let s := s.modSec (fun x => { x with assocs := x.assocs.filter (fun a => !same a) })
  let n := slot.getD (s.freeAssoc page)
  let s : State := { s with kept := s.kept.filter (fun k => decide (k.1 ≠ page) || decide (k.2.1 ≠ n)) }
  let a : Assoc :=
    { kind := kind, page := page, slot := n, peer := peer, serial := serial, pubkey := key,
      tx := Epochs.fresh now tx, rx := Epochs.fresh now rx, heart1 := 0, heart2 := 0 }
  let s := if kind = 3 then s.modHost (fun h => { h with frags := h.frags.filter (fun f => f.outbound || decide (f.peer ≠ peer)) }) else s
  s.modSec (fun x => { x with assocs := x.assocs ++ [a] })

/-- The select registers of a session read their reset values at first (R405). -/
def clearSelects (s : State) (slot : Nat) : State :=
  let keys := [0x4000, 0xB008, 0xC008, 0x9098, 0x9198, 0x9298, 0x9398]
  keys.foldl (fun s k => s.setReg (k + 0x10000 * slot) (regReset (k + 0x10000 * slot)).toNat) s

/-- A session opens (R309). -/
def openSession (s : State) (slot : Nat) (id : BitVec 32) (host : BitVec 128) (path : NetPath) : State :=
  (clearSelects s slot).setSession slot
    { id := id, host := host, path := path, last := 0, kept := [], held := [], busy := none, mask := 0, noticeNext := 1, notices := [], dropped := 0 }

/-- FIN_ACK leaves, tagged under epoch 1 of the new association whatever its page's mode (R325). -/
def sendFinAck (s : State) (h : Shake) (slot : Nat) : State :=
  let host := decide (h.init.kind = 1)
  match s.sec.assocs.find? (fun a => decide (a.kind = h.init.kind) && decide (a.page = h.init.page.toNat) && decide (a.peer = h.peer) &&
      (!host || decide (a.slot = slot))) with
  | none => s
  | some a =>
    if !s.passes pairTx host then s
    else
      let e := a.tx
      let s := (s.setTx a (e.sent 1 s.clock.uptime)).through (if host ∧ s.fencedPair pairTx then pairBulk else pairTx) true
        (if host then 4 else s.fld SEC_PAGE_CTRL_job a.page) 0
      s.udp { path := h.init.path, dscp := s.dscpOf 1, cls := 1, flags := 128, page := 0xFF, context := 0, src := BitVec.ofNat 32 s.origin,
              dst := h.peer, keyEpoch := e.current, length := 0, seq := e.seq, msg := 0, nonce := some (e.nonce e.seq), trailer := none }
        (.finAck h.peer)

/-- FIN: its certificate, signature and credential are verified, the association takes over and FIN_ACK leaves. A FIN
that fails is discarded and counted (R325 to R328). -/
def execFin (d : Tagged FinBody) (s : State) : Res :=
  let t := d.tag
  let b := d.body
  if !s.hostUp then .next s
  else match s.sec.shakes.find? (fun h => !h.initiator && decide (h.peer = b.src) && decide (h.init.nonce = b.nonceI)) with
    | none => .next s
    | some h =>
      if !s.passes pairRx (decide (h.init.kind = 1)) then .next s
      else if s.svc.paused then .next (holdBack s (.fin d))
      else if !(shakeOk s t b.nonceI).2 then .next (shakeOk s t b.nonceI).1
      else match h.resp with
        | none => .next s
        | some r =>
          if credentialOk s h b ∧ Config.ed448Verify ctxFin b.pubkey (finHash h.init r.1 r.2 b) b.sig then
            let s := s.modSec (fun x => { x with shakes := x.shakes.erase h })
            let slot := r.1.session.toNat % 8
            let s := if h.init.kind = 1 then openSession s slot r.1.session b.serial h.init.path else s
            let s := formAssoc s h.init.kind h.init.page.toNat h.peer (if h.init.kind = 1 then some slot else none) b.serial b.pubkey
              (firstChain (Config.x448 h.secret h.init.eph) h.init r.1 r.2 b 1) (firstChain (Config.x448 h.secret h.init.eph) h.init r.1 r.2 b 0)
            .next (sendFinAck s h slot)
          else .next (s.count SEC_STATUS_hs_fail)

/-- HANDSHAKE_TIMEOUT: the responder's oldest half-open handshake with a peer has stood for 1 s (R328). -/
def execHandshakeTimeout (peer : BitVec 32) (s : State) : Res :=
  s.whenClocked <|
  match s.sec.shakes.find? (fun h => !h.initiator && decide (h.peer = peer)) with
  | none => .next s
  | some h => .next (s.modSec (fun x => { x with shakes := x.shakes.erase h }))

/-! ## The initiator (R325 to R328) -/

/-- An initiated handshake ends. -/
def dropShake (s : State) (h : Shake) : State := s.modSec (fun x => { x with shakes := x.shakes.erase h })

/-- The FIN of this device that answers a RESP (R326). -/
def ownFin (s : State) (h : Shake) (r : RespBody) : FinBody :=
  let f : FinBody :=
    { src := BitVec.ofNat 32 s.origin, nonceI := h.init.nonce, credential := 1, serial := Config.serial, pubkey := Config.ed448Public s.plat.idKey,
      certSig := Config.certSig, sig := 0 }
  { f with sig := Config.ed448Sign ctxFin s.plat.idKey (finHash h.init r [] f) }

/-- RESP: a refusal ends the handshake; one whose certificate, serial or signature fails is discarded and counted; else
FIN leaves (R326). -/
def execResp (d : Tagged RespBody) (s : State) : Res :=
  let t := d.tag
  let b := d.body
  if !s.hostUp ∨ !s.passes pairRx false then .next s
  else if s.svc.paused then .next (holdBack s (.resp d))
  else
    let all := s.sec.shakes.filter (fun h => h.initiator && decide (h.peer = b.src) && h.resp.isNone)
    let open' := all.filter (fun h => (shakeOk s t h.init.nonce).2)
    let good (h : Shake) : Bool :=
      vendorCert b.serial b.pubkey b.certSig && Config.ed448Verify ctxResp b.pubkey (respHash h.init b []) b.sig &&
        (match pageNamed s h.init.page.toNat with
          | some j => serialListed s j h.init.kind h.init.page.toNat b.src b.serial
          | none => false)
    match open' with
    | [] => .next (match all with
      | h :: _ => (shakeOk s t h.init.nonce).1
      | [] => s)
    | first :: _ =>
      if b.status ≠ 0 then .next (dropShake s first)
      else match open'.find? good with
        | none => .next (s.count SEC_STATUS_hs_fail)
        | some h =>
          if Config.x448 h.secret b.eph = 0 then .next (dropShake s h)
          else
            let s := s.modSec (fun x => { x with shakes := modFirst (fun q => decide (q = h)) (fun q => { q with resp := some (b, []) }) x.shakes })
            .next (s.shakeNet h.init.kind (s.peerPath (s.fld SEC_PAGE_CTRL_job h.init.page.toNat) b.src none) b.src h.init.nonce (.fin b.src (ownFin s h b)))

/-- FIN_ACK: tagged under epoch 1, it proves that the responder holds the keys; the association takes over (R325,
R328). -/
def execFinAck (u : Ubtik) (s : State) : Res :=
  if !s.hostUp then .next s
  else match s.sec.shakes.find? (fun h => h.initiator && decide (h.peer = u.src) && h.resp.isSome) with
    | none => .next s
    | some h => match h.resp with
      | none => .next s
      | some r =>
        if !u.tagged ∨ u.keyEpoch ≠ 1 then .next (admitFail s)
        else
          let e := engine s pairRx true (s.fld SEC_PAGE_CTRL_job h.init.page.toNat) u
          if !e.2 then .next e.1
          else if !u.tagOk then .next (e.1.count SEC_STATUS_tag_fail)
          else .next (formAssoc (dropShake e.1 h) h.init.kind h.init.page.toNat h.peer none r.1.serial r.1.pubkey
            (firstChain (Config.x448 h.secret r.1.eph) h.init r.1 r.2 (ownFin s h r.1) 0) (firstChain (Config.x448 h.secret r.1.eph) h.init r.1 r.2 (ownFin s h r.1) 1))

/-- INIT_RESEND: an INIT of a kind and page unanswered for 100 ms leaves again with fresh values; after 20 attempts the handshake is given
up and counted (R328). -/
def execInitResend (peer : BitVec 32) (kind page : BitVec 8) (s : State) : Res :=
  s.whenClocked <|
  match s.sec.shakes.find? (fun h => h.initiator && decide (h.peer = peer) && decide (h.init.kind = kind) && decide (h.init.page = page) && h.resp.isNone) with
  | none => .next s
  | some h =>
    if 20 ≤ h.attempts then .next ((dropShake s h).count SEC_STATUS_hs_fail)
    else
      let secret := Config.random (s.free + 1)
      let b := { h.init with nonce := (Config.random s.free).setWidth 128, eph := Config.x448Public secret }
      let s : State := { s with free := s.free + 2 }
      let s := s.modSec (fun x => { x with
        shakes := modFirst (fun q => decide (q = h)) (fun q => { q with init := b, secret := secret, attempts := q.attempts + 1 }) x.shakes })
      .next (s.shakeNet b.kind b.path peer b.nonce (.init peer b))

end Sys2Proof.Machine
end

