-- ==== Sys2Proof/Machine/Exchange.lean ====
section
/-! DEFINITION. Messages of partner devices and BULK transfers: DELTA, TABLE, MANIFEST-class messages, HEART,
acknowledgements, fragments, segments (R264 to R267, R274, R279, R281, R295, R298, R307, R308, R313 to R316). -/
namespace Sys2Proof.Machine

/-! ## Coded blocks, tables, hearts -/

/-- DELTA (R298, R307). -/
def execDelta (u : Ubtik) (blocks : List Block) (whole : Bool) (s : State) : Res :=
  if s.halted blkDxe then .next s else
  let r := admitJob s u pairRx 3 2
  .next (match r.2 with
    | some (j, _) => takeBlocks r.1 j u.src blocks whole
    | none => r.1)

/-- A TABLE message: a table, or the retire of one (R295). -/
def tableMessage (s : State) (u : Ubtik) (b : TableBody) : State :=
  if s.halted blkDxe then s else
  let r := admitJob s u pairRx 4 2
  match r.2 with
  | some (j, _) => if b.retire then takeRetire r.1 j u.src b else takeTable r.1 j u.src b
  | none => r.1

/-- TABLE (R295). -/
def execTable (u : Ubtik) (b : TableBody) (s : State) : Res := .next (tableMessage s u b)

/-- TABLE_RETIRE (R295). -/
def execTableRetire (u : Ubtik) (b : TableBody) (s : State) : Res := .next (tableMessage s u { b with retire := true })

/-- HEART: taken when its number exceeds the last accepted on its path (R274, R337). -/
def execHeart (u : Ubtik) (h : HeartBody) (s : State) : Res :=
  let r := admitJob s u pairRx 8 2
  match r.2 with
  | none => .next r.1
  | some (j, a) =>
    let last := if h.secondary then a.heart2 else a.heart1
    if h.seq.toNat < last then .next r.1
    else
      let n := h.seq.toNat + 1
      let s := r.1.modAssoc a.page a.slot (fun a => if h.secondary then { a with heart2 := n } else { a with heart1 := n })
      .next (takeHeart s j u.src h)

/-! ## MANIFEST-class messages (R265, R308, R337) -/

/-- What one MANIFEST-class message says of itself: its site, federation job, the bytes that its signature covers, and the
signature. -/
structure Signed where
  site : BitVec 16
  fedJob : BitVec 32
  bytes : Bytes
  sig : BitVec 912

/-- The largest message that is put together from fragments (R308). -/
def fragLimit : Nat := 1048576

/-- A fragment joins those that have come: none when it disagrees with its message or makes it too long (R308). -/
def addPart (p : Fragments) (f : Frag) : Option Fragments :=
  let i := f.index.toNat
  if f.count.toNat ≠ p.count ∨ p.count ≤ i ∨ f.last ≠ decide (i + 1 = p.count) then none
  else if p.parts.any (fun q => decide (q.1 = i)) then some p
  else if fragLimit < ((p.parts.map (fun q => q.2.length)).sum + f.data.length) then none
  else some { p with waiting := p.waiting.filter (fun k => decide (k ≠ i)), parts := p.parts ++ [(i, f.data)] }

/-- The bytes of a message whose fragments have all come. -/
def joinParts (p : Fragments) : Bytes := (List.range p.count).flatMap (fun i => (assoc p.parts i).getD [])

/-- The record of a message that a device sends. -/
def fragsOf (s : State) (u : Ubtik) : Option Fragments :=
  s.host.frags.find? (fun x => !x.outbound && decide (x.peer = u.src) && decide (x.msg = u.msg))

/-- A fragment of an admitted message (R308): the complete message is acknowledged by its number with its fragments, and taken
once; it is discarded and counted when its signature, job or site is wrong (R265), and a fragment that disagrees with its message
likewise (DESIGN CHOICE, log entry 135). -/
def takeFragment (s : State) (j : Nat) (u : Ubtik) (fr : Frag) (m : Signed) (f : State → Nat → State) : State :=
  let n := fr.count.toNat
  let old := fragsOf s u
  let p := old.getD { peer := u.src, msg := u.msg, outbound := false, waiting := List.range n, count := n, parts := [] }
  let ack (s : State) : State :=
    s.sendFor j (.ack u.src false { cls := 5, reason := 0, ref := u.msg, entries := (List.range p.count).map (fun k => ⟨BitVec.ofNat 32 k, 0, 0⟩) })
  let keep (s : State) (q : Fragments) : State := s.modHost (fun h => { h with
    frags := h.frags.filter (fun x => x.outbound || decide (x.peer ≠ u.src) || decide (x.msg ≠ u.msg)) ++ [q] })
  if old.any (fun q => q.waiting.isEmpty) then ack s
  else match addPart p fr with
    | none => s.count DXE_STATUS_discarded 1 j
    | some q =>
      if !q.waiting.isEmpty then keep s q
      else
        let s := ack (keep s { q with parts := [] })
        if joinParts q ≠ signedMessage m.bytes m.sig ∨ m.fedJob ≠ (s.job j).fedJob ∨ m.site ≠ siteOf u.src ∨ !s.signedBy u.src m.bytes m.sig then
          s.count DXE_STATUS_discarded 1 j
        else if (s.job j).dxe.active then f s j else s

/-- The job of a message that another device of the own site passes on to a device that is not lead: its lead has checked it
(DESIGN CHOICE, log entry 19). -/
def State.passedOn (s : State) (u : Ubtik) (fedJob : BitVec 32) : Option Nat :=
  if s.inService && decide (siteOf u.src = s.site) && decide (u.src.toNat ≠ s.origin) then
    s.runningJobs.find? (fun j => decide ((s.job j).fedJob = fedJob) && (s.job j).dxe.active && !s.isLeadDevice j)
  else none

/-- A MANIFEST-class message. In the pause of a handover it waits (R374). -/
def takeSigned (s : State) (u : Ubtik) (fr : Frag) (i : Instr) (m : Signed) (f : State → Nat → State) : State :=
  match s.passedOn u m.fedJob with
  | some j => if s.svc.paused then holdBack s i else f s j
  | none =>
    if s.svc.paused ∧ s.jobTraffic then holdBack s i
    else
      let r := admitJob s u pairRx 5 3
      match r.2 with
      | none => r.1
      | some (j, _) => takeFragment r.1 j u fr m f

/-- MANIFEST (R266). -/
def execManifest (u : Ubtik) (p : Part ManifestBody) (s : State) : Res :=
  let m := p.body
  .next (takeSigned s u p.frag (.manifest u p) ⟨m.issuer, m.fedJob, manifestBytes m, m.sig⟩ (fun s j => takeManifest s j m))

/-- COUNTERSIGN (R264). -/
def execCountersign (u : Ubtik) (p : Part CountersignBody) (s : State) : Res :=
  let c := p.body
  .next (takeSigned s u p.frag (.countersign u p) ⟨c.site, c.fedJob, countersignBytes c, c.sig⟩ (fun s j => takeCountersign s j c))

/-- RECEIPT (R262, R267). -/
def execReceipt (u : Ubtik) (p : Part ReceiptBody) (s : State) : Res :=
  let r := p.body
  .next (takeSigned s u p.frag (.receipt u p) ⟨r.site, r.fedJob, receiptBytes r, r.sig⟩ (fun s j => takeReceipt s j r))

/-- JOIN (R281). -/
def execJoin (u : Ubtik) (p : Part JoinBody) (s : State) : Res :=
  let b := p.body
  .next (takeSigned s u p.frag (.join u p) ⟨b.site, b.fedJob, joinBytes b, b.sig⟩ (fun s j => takeJoin s j b.site))

/-- A fragment of a message sent leaves again (R308). -/
def resendPart (s : State) (x : Fragments) (i : Nat) : State :=
  s.sendBy (fun a => decide (a.kind = 3) && decide (a.peer = x.peer)) (s.passes pairTx false)
    [.fragment x.peer x.msg i x.count ((assoc x.parts i).getD [])]

/-- FRAGMENT_RESEND: a fragment that is not acknowledged leaves again for every lead that has not acknowledged it
(R308). -/
def execFragmentResend (msg : BitVec 64) (index : BitVec 16) (s : State) : Res :=
  s.whenClocked <|
  let due := s.host.frags.filter (fun x => x.outbound && decide (x.msg = msg) && x.waiting.contains index.toNat)
  .next (due.foldl (fun s x => resendPart s x index.toNat) s)

/-- FRAGMENT_DISCARD: a partial message is discarded 4G after its first fragment (R308). -/
def execFragmentDiscard (src : BitVec 32) (msg : BitVec 64) (s : State) : Res :=
  s.whenClocked <|
  .next (s.modHost (fun h => { h with
    frags := h.frags.filter (fun x => x.outbound || x.waiting.isEmpty || decide (x.peer ≠ src) || decide (x.msg ≠ msg)) }))

/-! ## BULK transfers (R313 to R315) -/

/-- The number of segments of a transfer. -/
def Bulk.segs (b : Bulk) : Nat := (b.len + 65535) / 65536

/-- The bytes of a segment. -/
def Bulk.segLen (b : Bulk) (k : Nat) : Nat := min 65536 (b.len - 65536 * k)

/-- All of a transfer has been acknowledged, or has come. -/
def Bulk.complete (b : Bulk) : Bool := decide (0 < b.len) && decide (b.segs ≤ b.doneSegs.length)

/-- The transfer that another is: transfers of this device are numbered by it, an object that a device sends by that device. -/
def Bulk.same (b x : Bulk) : Bool := decide (x.id = b.id) && decide (x.inbound = b.inbound) && decide (x.peer = b.peer)

/-- A transfer of this device's own numbering. -/
def Bulk.own (b : Bulk) : Bool := b.host || !b.inbound

/-- The transfer of a number: one of this device. -/
def State.bulkOf (s : State) (id : Nat) : Option Bulk := s.host.bulks.find? (fun b => b.own && decide (b.id = id))

def State.modBulk (s : State) (b : Bulk) (f : Bulk → Bulk) : State :=
  s.modHost (fun h => { h with bulks := modFirst b.same f h.bulks })

/-- A transfer is over. -/
def State.dropBulk (s : State) (b : Bulk) : State := s.modHost (fun h => { h with bulks := h.bulks.filter (fun x => !b.same x) })

/-- The association that a transfer goes by: its session's, or the peer's in its page (R331). -/
def Bulk.under (b : Bulk) (a : Assoc) : Bool :=
  if b.host then decide (a.kind = 1) && decide (a.slot = b.session.toNat % 8)
  else decide (a.kind = 2) && decide (a.peer = b.peer) && decide (a.page = b.page)

/-- The datagrams of a segment: at most 8,192 bytes each, the last with the last flag (R314). -/
def segDatagrams (id k : Nat) (bs : Bytes) : List Output :=
  let parts := (pieces 8192 9 bs).zipIdx
  parts.map (fun p => .bulk id k (65536 * k + 8192 * p.2) p.1 (decide (p.2 + 1 = parts.length)))

/-- A segment leaves as one message (R314). Lines that are uncorrectable leave as zeros (Table MEM-4). -/
def sendSegment (s : State) (b : Bulk) (k : Nat) : State :=
  let n := b.segLen k
  let r := if b.host then s.readAt (b.addr + 65536 * k) n else ((b.body.drop (65536 * k)).take n, [])
  let s := if r.2.isEmpty then s else s.count MEM_ECC_COUNT_uncorrectable r.2.length
  s.sendBy b.under (s.passes pairBulk false) (segDatagrams b.id k r.1)

/-- Segments leave while the window has room; a transfer all of whose segments are acknowledged is complete
(R315). -/
def bulkFill (s : State) (id : Nat) : State :=
  match s.bulkOf id with
  | none => s
  | some b =>
    if b.inbound then s
    else if b.segs ≤ b.doneSegs.length then s.dropBulk b
    else
      let next := b.doneSegs.length + b.unacked.length
      let ks := (List.range (min (b.segs - next) (s.fld HST_PORT_CTRL_bulk_window - b.unacked.length))).map (next + ·)
      ks.foldl (fun s k => sendSegment s b k) (s.modBulk b (fun b => { b with unacked := b.unacked ++ ks }))

/-- A transfer begins. -/
def openBulk (s : State) (b : Bulk) : State :=
  s.modHost (fun h => { h with bulks := h.bulks ++ [b], bulkNext := h.bulkNext + 1 })

/-- An ACK or NACK of a segment (Table HST-6). -/
def bulkAnswer (b : Bulk) (nack : Bool) (k : Nat) : Output :=
  .ack (if b.host then 0xFFFFFFFF else b.peer) nack
    { cls := 2, reason := if nack then 1 else 0, ref := BitVec.ofNat 64 b.id, entries := [⟨BitVec.ofNat 32 k, 1, 0⟩] }

def answerBulk (s : State) (b : Bulk) (nack : Bool) (k : Nat) : State := s.sendBy b.under (s.passes pairTx b.host) [bulkAnswer b nack k]

/-- A range lies in the stack domains of the job a page is bound to: while that job is stopped, in domains of no running
job (R331, R344; DEDUCED, log entry 31). -/
def State.pageHolds (s : State) (page a n : Nat) : Bool :=
  match s.pageJob page with
  | none => false
  | some j => inJob (if (s.job j).running then (s.job j).mask.toNat else maskOf ((List.range 4).filter (fun q => (s.owner q).isNone))) a n

/-- A segment is written to its destination: only while no live copy, or other range that only the device writes, of a
running job lies in it (R315, R253). -/
def writeSegment (s : State) (b : Bulk) (k : Nat) (bs : Bytes) : State × Bool :=
  let a := b.addr + 65536 * k
  match s.pageJob b.page with
  | none => (s, false)
  | some j =>
    if !s.pageHolds b.page a bs.length then (s, false)
    else if (s.job j).running then
      let r := s.writeAt j a bs
      (if r.2.1 = stMemUe then memUe r.1 j r.2.2 else r.1, decide (r.2.1 = stOk))
    else match placeOf a bs.length with
      | .dram => (s.setMem a bs, true)
      | .spad => (s.writeSpad a bs, true)
      | _ => (s, false)

/-! ## Objects (R264, R271, R281, R313) -/

/-- Bytes put at an offset of others, with zeros up to it. -/
def spliceBytes (b : Bytes) (o : Nat) (d : Bytes) : Bytes :=
  b.take o ++ List.replicate (o - b.length) 0 ++ d ++ b.drop (o + d.length)

/-- An object is taken once it has come and is that of its REQUEST: a sealed bundle, or A and M of a range of shards. -/
def takeObject (s : State) (j : Nat) (q : Request) (round : Nat) (body : Bytes) : State :=
  if round ≠ q.round then s
  else if q.obj = 1 then
    let o := parseBundle body
    if o.1.fedJob ≠ (s.job j).fedJob ∨ o.1.round.toNat ≠ round then s
    else if (s.job j).dxe.joining.isSome then s.modDxe j (fun x => { x with gotBundle := some o })
    else takeBundle s j o.1 o.2
  else if round ≠ (s.job j).dxe.gotRound then s
  else s.modDxe j (fun x =>
    let ks := (x.shards.map (·.1)).filter (fun sh => decide (q.first ≤ sh.toNat) && decide (sh.toNat < q.first + q.count))
    { x with gotShards := x.gotShards.filter (fun g => !ks.contains g.1) ++ parseShards x.shardElems ks body })

/-- A segment of an object from a device, its tag verified: kept until the object, whose length its first segment gives, has
come (R313, R314). -/
def takeObjectSegment (s : State) (j : Nat) (b : Bulk) (k : Nat) (bs : Bytes) : State :=
  let body := spliceBytes b.body (65536 * k) bs
  let c := { b with body := body, doneSegs := b.doneSegs ++ [k], len := if k = 0 then 16 + beAt bs 0 8 else b.len }
  let s := answerBulk (s.modBulk b (fun x => { x with body := body, doneSegs := c.doneSegs, len := c.len })) b false k
  if c.complete then
    let s := s.modBulk b (fun x => { x with body := [], req := none })
    match b.req with
    | some q => takeObject s j q (beAt body 8 8) ((body.drop 16).take (c.len - 16))
    | none => s
  else s

/-! ## DATA -/

/-- The data of a segment from its pieces. -/
def segData (ps : List Piece) (start len : Nat) : Bytes :=
  (List.range len).map (fun i =>
    match ps.find? (fun p => decide (p.offset ≤ start + i) && decide (start + i < p.offset + p.data.length)) with
    | some p => p.data.getD (start + i - p.offset) 0
    | none => 0)

/-- All of a segment has arrived, its last datagram included. -/
def segComplete (ps : List Piece) (start len : Nat) : Bool :=
  ps.any (fun p => p.tag.isSome) &&
    (List.range len).all (fun i => ps.any (fun p => decide (p.offset ≤ start + i) && decide (start + i < p.offset + p.data.length)))

/-- The bytes of a segment that arrives: known, or shown by its last datagram. -/
def segSize (b : Bulk) (k : Nat) (ps : List Piece) : Nat :=
  if 0 < b.len then b.segLen k
  else match ps.find? (fun p => p.tag.isSome) with
    | some p => p.offset + p.data.length - 65536 * k
    | none => 65536

/-- A DATA datagram lies in its segment, and in the range of its transfer as far as that is known (R314, R315). -/
def pieceFits (b : Bulk) (p : Piece) : Bool :=
  !p.data.isEmpty && decide (p.data.length ≤ 8192) && decide (p.offset / 65536 = p.seg) &&
    decide (p.offset + p.data.length ≤ 65536 * p.seg + (if 0 < b.len then b.segLen p.seg else 65536))

/-- A DATA datagram of an admitted transfer (R314, R315): a segment is held until its tag verifies, then taken once and
acknowledged, and acknowledged again when it comes again; when the tag fails all of it is dropped and asked for again. The tag of a
datagram other than a segment's last says that its trailer is zero (R330). -/
def takePiece (s : State) (b : Bulk) (u : Ubtik) (a : Assoc) (j : Nat) (p : Piece) : State :=
  let k := p.seg
  let rest := b.pieces.filter (fun q => decide (q.seg ≠ k))
  if b.doneSegs.contains k then (if p.tag = some true then answerBulk s b false k else s)
  else if p.tag.isNone ∧ u.tagged ∧ !u.tagOk then answerBulk ((s.modBulk b (fun b => { b with pieces := rest })).count SEC_STATUS_tag_fail) b true k
  else
    let ps := b.pieces.filter (fun q => decide (q.seg = k) && decide (q.offset ≠ p.offset)) ++ [p]
    let n := segSize b k ps
    if !segComplete ps (65536 * k) n then s.modBulk b (fun b => { b with pieces := rest ++ ps })
    else
      let s := s.modBulk b (fun b => { b with pieces := rest })
      if ps.any (fun q => decide (q.tag = some false)) then answerBulk (s.count SEC_STATUS_tag_fail) b true k
      else
        let s := if u.tagged then advanceRx s u a else s
        let bs := segData ps (65536 * k) n
        if !b.host then takeObjectSegment s j { b with pieces := rest } k bs
        else
          let w := writeSegment s b k bs
          if !w.2 then w.1
          else answerBulk (w.1.modBulk b (fun b => { b with doneSegs := b.doneSegs ++ [k] })) b false k

/-- A datagram for an unknown transfer, or outside its range, is discarded and counted (R315). -/
def bulkDiscard (s : State) : State := s.count HST_PORT_STATUS_ubtik_discards

/-- The transfer by which a device sends an object: one that has begun, or a new one, which answers the oldest REQUEST sent to that
device (DESIGN CHOICE, log entry 27). -/
def objectBulk (s : State) (u : Ubtik) (page xfer : Nat) : Option (State × Bulk) :=
  match s.host.bulks.find? (fun b => !b.own && decide (b.id = xfer) && decide (b.peer = u.src)) with
  | some b => some (s, b)
  | none => match s.host.requests.find? (fun q => decide (q.peer = u.src)) with
    | none => none
    | some q =>
      let b : Bulk :=
        { id := xfer, inbound := true, session := 0, page := page, addr := 0, len := 0, udp := 0, doneSegs := [], pieces := [], host := false,
          unacked := [], body := [], peer := u.src, req := some q }
      some (s.modHost (fun h => { h with bulks := h.bulks ++ [b], requests := h.requests.erase q }), b)

/-- BULK_DATA: a host's data for an import, or a device's for an object asked for (R271, R313 to R315). -/
def execBulkData (u : Ubtik) (xfer : BitVec 64) (segment : BitVec 32) (offset : BitVec 64) (data : Bytes) (last : Bool) (s : State) : Res :=
  let p : Piece := { seg := segment.toNat, offset := offset.toNat, data := data, tag := if last then some (u.tagOk || !u.tagged) else none }
  if u.src = 0xFFFFFFFF then
    match s.host.bulks.find? (fun b => decide (b.id = xfer.toNat) && b.inbound && b.host) with
    | none => .next (if s.hostUp then bulkDiscard s else s)
    | some b =>
      let slot := b.session.toNat % 8
      let r := admitHost s u slot pairBulk 2 (decide (u.page.toNat = b.page) && (s.pageJob b.page).isSome) true
      match r.1.assocAt 0xFF slot with
      | none => .next r.1
      | some a =>
        if !r.2 ∨ !s.inService then .next r.1
        else if !pieceFits b p then .next (bulkDiscard r.1)
        else .next (takePiece r.1 b u a 0 p)
  else
    let r := admitJob s u pairBulk 2 2 true
    match r.2 with
    | none => .next r.1
    | some (j, a) => match objectBulk r.1 u a.page xfer.toNat with
      | none => .next (bulkDiscard r.1)
      | some (s, b) => if !pieceFits b p then .next (bulkDiscard s) else .next (takePiece s b u a j p)

/-- A sealed bundle as an object (R264). -/
def bundleObject (x : Dxe) (r : Nat) : Option Bytes :=
  (x.bundles.find? (fun b => decide (b.1 = r))).map (fun b => bundleBytes b.2.1 (x.signsOf r))

/-- The anchor A_n and its momentum for the held shards of a range (R271). -/
def anchorObject (x : Dxe) (n first count : Nat) : Option Bytes :=
  let ks := (x.shards.zipIdx).filter (fun p => decide (first ≤ p.1.1.toNat) && decide (p.1.1.toNat < first + count))
  let body (a m : Sparse (BitVec 32)) : Bytes := shardsBytes (ks.map (fun p => (x.shardValues a p.2, x.shardValues m p.2)))
  if ks.isEmpty then none
  else if n = x.installed then some (body x.anchor x.mom)
  else if n = x.installed + 1 ∧ (x.round x.installed).any (fun y => decide (y.stage = .ready)) then some (body x.anchorNext x.momNext)
  else none

/-- BULK_REQUEST: answered with the object under a new transfer, or NACK UNAVAILABLE (R313); with the bulk pair fenced
always that (Table FLT-3). -/
def execBulkRequest (u : Ubtik) (obj : BitVec 8) (round : BitVec 64) (first count : BitVec 32) (s : State) : Res :=
  let fenced := s.fencedPair pairBulk
  let r := admitJob s u (if fenced then pairRx else pairBulk) 2 2
  match r.2 with
  | none => .next r.1
  | some (j, a) =>
    let x := (r.1.job j).dxe
    let o := if fenced ∨ !x.active then none
      else if obj = 1 then bundleObject x round.toNat
      else if obj = 2 then anchorObject x round.toNat first.toNat count.toNat else none
    match o with
    | none => .next (r.1.sendFor j (.ack u.src true { cls := 2, reason := 3, ref := u.msg, entries := [] }))
    | some body =>
      let id := r.1.host.bulkNext
      let all := objectHeader body.length round.toNat ++ body
      let b : Bulk :=
        { id := id, inbound := false, session := 0, page := a.page, addr := 0, len := all.length, udp := 0, doneSegs := [], pieces := [],
          host := false, unacked := [], body := all, peer := u.src, req := none }
      .next (bulkFill (openBulk r.1 b) id)

/-- BULK_SEGMENT_RESEND (R315). -/
def execBulkSegmentResend (xfer : BitVec 64) (segment : BitVec 32) (s : State) : Res :=
  s.whenClocked <|
  match s.bulkOf xfer.toNat with
  | none => .next s
  | some b => .next (if b.unacked.contains segment.toNat then sendSegment s b segment.toNat else s)

/-- BULK_ABANDON: a transfer without progress for 10 s is abandoned and the host is told; the record of one that is complete ends
(R315, R317). A transfer that this device numbers goes by the host's index. -/
def execBulkAbandon (xfer : BitVec 64) (s : State) (peer : BitVec 32 := 0xFFFFFFFF) : Res :=
  s.whenClocked <|
  match s.host.bulks.find? (fun b => decide (b.id = xfer.toNat) && (if peer = 0xFFFFFFFF then b.own else !b.own && decide (b.peer = peer))) with
  | none => .next s
  | some b => .next (if b.complete then s.dropBulk b else (s.dropBulk b).notify 9 0xFF b.id)

/-! ## ACK and NACK (R316) -/

/-- The segments that an entry names. -/
def entrySegs (e : AckEntry) : List Nat := (List.range e.b.toNat).map (e.a.toNat + ·)

/-- The session slot whose notices an acknowledgement answers. -/
def noticeSlot (u : Ubtik) : Nat := u.context.toNat % 8

/-- A datagram of class ACK or NACK about a transfer is admitted: the device-to-device one as job traffic, the host's
under its session (R331, R344). -/
def admitBulkAck (s : State) (u : Ubtik) (b : Bulk) (cls : Nat) : State × Bool :=
  if b.host then admitHost s u (b.session.toNat % 8) pairRx cls (decide (u.page = 0xFF) || decide (u.page.toNat = b.page))
  else
    let r := admitJob s u pairRx cls 2
    (r.1, r.2.isSome && decide (u.src = b.peer))

/-- Fragments of a message sent are acknowledged: those that the entries name, or all of them (R308). -/
def ackParts (s : State) (src : BitVec 32) (b : AckBody) : State :=
  let ks := b.entries.map (fun e => e.a.toNat)
  s.modHost (fun h => { h with
    frags := h.frags.filterMap (fun x =>
      if x.outbound ∧ x.peer = src ∧ x.msg = b.ref then
        let left := if ks.isEmpty then [] else x.waiting.filter (fun k => !ks.contains k)
        if left.isEmpty then none else some { x with waiting := left }
      else some x) })

/-- ACK: blocks, tables, segments, messages or notices are acknowledged (R294, R308, R315, R316, R317). -/
def execAck (u : Ubtik) (b : AckBody) (s : State) : Res :=
  if b.cls = 1 then
    let open' := s.host.sessions.any (fun p => decide (p.2.id = u.context))
    let r := admitHost s u (noticeSlot u) pairRx 6 (decide (u.page = 0xFF) && open')
    .next (if r.2 then ackNotice r.1 (noticeSlot u) b.ref.toNat else r.1)
  else if b.cls = 2 then
    match s.bulkOf b.ref.toNat with
    | none => .next s
    | some x =>
      let r := admitBulkAck s u x 6
      let ks := b.entries.flatMap entrySegs
      .next (if r.2 then bulkFill (r.1.modBulk x (fun y => { y with
          unacked := y.unacked.filter (fun k => !ks.contains k), doneSegs := y.doneSegs ++ y.unacked.filter ks.contains })) x.id else r.1)
  else
    let r := admitJob s u pairRx 6 (if b.cls = 5 then 3 else 2)
    .next (match r.2 with
      | none => r.1
      | some (j, _) =>
        if b.cls = 3 then ackDelta r.1 j u.src b
        else if b.cls = 4 then b.entries.foldl (fun s e => ackTable s j u.src e) r.1
        else if b.cls = 5 then ackParts r.1 u.src b
        else r.1)

/-- NACK: what is missing is sent again; an object not held is left to the time-out of its re-fetch (R277, R296, R308, R313,
R315, R316). -/
def execNack (u : Ubtik) (b : AckBody) (s : State) : Res :=
  if b.cls = 2 ∧ b.reason = 3 then
    let r := admitJob s u pairRx 7 2
    .next (if r.2.isSome then r.1.modHost (fun h => { h with requests := match h.requests.find? (fun q => decide (q.peer = u.src)) with
        | some q => h.requests.erase q
        | none => h.requests })
      else r.1)
  else if b.cls = 2 then
    match s.bulkOf b.ref.toNat with
    | none => .next s
    | some x =>
      let r := admitBulkAck s u x 7
      let ks := (b.entries.flatMap entrySegs).filter x.unacked.contains
      .next (if r.2 ∧ b.reason = 1 then ks.foldl (fun s k => sendSegment s x k) r.1 else r.1)
  else
    let r := admitJob s u pairRx 7 (if b.cls = 5 then 3 else 2)
    .next (match r.2 with
      | none => r.1
      | some (j, _) =>
        if b.cls = 3 then nackDelta r.1 j u.src b
        else if b.cls = 5 then
          (r.1.host.frags.filter (fun x => x.outbound && decide (x.peer = u.src) && decide (x.msg = b.ref))).foldl (fun s x =>
            ((b.entries.map (fun e => e.a.toNat)).filter x.waiting.contains).foldl (fun s i => resendPart s x i) s) r.1
        else r.1)

end Sys2Proof.Machine
end

