-- ==== Sys2Proof/Machine/Faults.lean ====
section
/-! DEFINITION. Faults of blocks and tiles, and the injection of faults (R348 to R355). -/
namespace Sys2Proof.Machine

/-! ## Wedged blocks (R353, R356, R366) -/

/-- A block number of R366. -/
def blockKnown (b : Nat) : Bool := decide (b < 1333) || (decide (1334 ≤ b) && decide (b < 1355))

/-- The source code of a block (R365). -/
def blockSource (b : Nat) : Nat :=
  if b < 1056 then srcTile
  else if b < 1320 then srcMem
  else if b < 1330 then srcPort
  else if b = blkCxe then 6
  else if b = blkDxe then 7
  else if b = blkHost then srcHost
  else if b < 1342 then srcEngine
  else if b < 1352 then srcPort
  else srcCipher

/-- The stack domain of a block that serves one. -/
def blockDomain (b : Nat) : Option Nat :=
  if b < 1056 then some (b / 264)
  else if b < 1320 then some ((b - 1056) / 66)
  else if 1334 ≤ b ∧ b < 1342 then some (b % 1334 % 4)
  else none

/-- The jobs that use a block. -/
def State.blockJobs (s : State) (b : Nat) : List Nat :=
  match blockDomain b with
  | some q => (s.owner q).toList
  | none => s.runningJobs

/-- A block is a fabric port or a router stage. -/
def isFabric (b : Nat) : Bool := (decide (1320 ≤ b) && decide (b < 1330)) || (decide (1342 ≤ b) && decide (b < 1352))

/-- The torus ports go DOWN, so that the neighbours detour (R356). -/
def torusDown (s : State) : State :=
  (List.range 8).foldl (fun s p => if (s.port p).st = .disabled then s else leave s p .down) s

/-- WEDGE_TIMEOUT: a block has work queued and has made no progress for wedge_timeout: it is device-contained for the
jobs that use it, and stays wedged until a full reset (R353). -/
def execWedgeTimeout (blk : BlockNo) (queued : BitVec 64) (s : State) : Res :=
  s.whenRuns <|
  let b := blk.toNat
  if !blockKnown b ∨ s.svc.wedged.contains b ∨ queued = 0 then .next s
  else
    let inj := s.svc.stalled.any (fun x => decide (x.1 = b) && x.2)
    let s := deviceContain s (s.blockJobs b) (blockSource b) 0x06 b queued.toNat inj
    let s := s.modSvc (fun v => { v with wedged := addTo b v.wedged })
    .next (if isFabric b then torusDown s else s)

/-! ## Tile storage and control (R351) -/

/-- A word of a tile's storage is uncorrectable: device-contained for the job of its stack domain; in a free spare the
spare is failed. -/
def storageFault (s : State) (p word : Nat) (inj : Bool) : State :=
  match s.tileOf p with
  | some t => deviceContain s (s.jobOfTile t).toList srcTile 0x02 p word inj
  | none => if s.tileFree p then spareFault s p 0x02 inj else s

/-- TILE_STORAGE_UE (R351). -/
def execTileStorageUe (p : Fin 1056) (word : BitVec 64) (s : State) : Res := s.whenRuns (.next (storageFault s p word.toNat false))

/-- Nanoseconds of 24 hours. -/
def day : Nat := 86400000000000

/-- A control parity fault of a tile aborts the attempt with TILE_FAULT; the second within 24 hours maps the tile out
onto a free spare, or withdraws the stack domain (R351, R352). -/
def controlFault (s : State) (p time : Nat) (inj : Bool) : State :=
  match s.tileOf p with
  | some t =>
    let s := s.fltStatus 1 srcTile 0x03
    let s := match s.jobOfTile t with
      | some j =>
        let s := if inj then s.modAtt j (fun a => { a with injected := true }) else s
        raiseAbort s j reasonTileFault 0
      | none => s
    let again := s.svc.parity.any (fun x => decide (x.1 = p) && decide (time < x.2 + day))
    let s := s.modSvc (fun v => { v with parity := (p, time) :: v.parity.filter (fun x => decide (time < x.2 + day)) })
    if !again ∨ s.svc.remaps.any (fun r => decide (r.tile = t)) then s
    else match s.freeTiles (t / 256) with
      | n :: _ => startRemap s t n false
      | [] => withdrawDomain s (t / 256) srcTile 0x05 (t / 256) p inj
  | none => if s.tileFree p then spareFault s p 0x03 inj else s

/-- TILE_CONTROL_PARITY (R351). -/
def execTileControlParity (p : Fin 1056) (_index : BitVec 12) (time : BitVec 64) (s : State) : Res :=
  s.whenRuns <|
  .next (controlFault s p time.toNat false)

/-! ## Injection (R355) -/

/-- An attempt aborts by an injected fault of class 1 (DEDUCED, log entry 28). -/
def injectAbort (s : State) (j reason : Nat) : State :=
  raiseAbort (s.modAtt j (fun a => { a with injected := true })) j reason 0

/-- An injected fault of a source, cause, class and unit: its effect, or none when they form no row of Table FLT-3 or
name no unit (R355, R366, DEDUCED, log entry 28). Readings that an injection does not give are free (DESIGN CHOICE, log entry 2). -/
def inject (s : State) (source cause cls unit : Nat) : Option State :=
  let s1 := s.draw.2
  let v := s.draw.1.toNat
  if cause = 0x02 ∧ source = srcTile ∧ cls = 2 then (if unit < 1056 then some (storageFault s1 unit v true) else none)
  else if cause = 0x03 ∧ source = srcTile ∧ cls = 1 then (if unit < 1056 then some (controlFault s unit s.clock.siteTime true) else none)
  else if cause = 0x04 ∧ source = srcMem ∧ cls = 2 then
    (if unit / 256 < 4 ∧ unit % 256 < 66 then some (channelLost s (unit / 256) (unit % 256) 0 true) else none)
  else if cause = 0x06 ∧ cls = 2 then
    (if blockKnown unit ∧ source = blockSource unit then some (s.modSvc (fun x => { x with stalled := x.stalled.filter (fun y => decide (y.1 ≠ unit)) ++ [(unit, true)] })) else none)
  else if cause = 0x07 ∧ source = srcCipher ∧ cls = 2 then (if unit < 3 then some (fencePair s unit true) else none)
  else if cause = 0x08 ∧ source = srcPower ∧ cls = 4 then (if unit < 256 then some (setTherm (fatal s1 srcPower 0x08 unit v true) true) else none)
  else if cause = 0x09 ∧ source = srcPower ∧ cls = 4 then (if unit < 9 then some (fatal s1 srcPower 0x09 unit v true) else none)
  else if cause = 0x0A ∧ source = srcClocks ∧ cls = 4 then
    (if unit ≤ 8 ∨ (16 ≤ unit ∧ unit < 26) then some (fatal (if unit = 7 then s.setFld CLK_STATUS_ref_ok 0 else unlock s unit) srcClocks 0x0A unit 0 true) else none)
  else if cause = 0x0B ∧ source = srcLerhus ∧ cls = 4 then some ((fatal s srcLerhus 0x0B unit 0 true).modPlat (fun p => { p with monitorOnly := true }))
  else if cause = 0x0C ∧ source = srcLerhus ∧ cls = 3 then (if unit < 4 then some (jobFault s unit 0x107 true) else none)
  else if cause = 0x0D ∧ cls = 1 ∧ unit < 4 then
    (if source = srcMem then some (injectAbort s unit reasonMemUe)
      else if source = srcTile then some (injectAbort s unit reasonReject)
      else if source = srcLerhus then some (injectAbort s unit reasonAsync)
      else none)
  else if cause = 0x10 ∧ source = srcPort ∧ cls = 0 then
    (if unit / 8 < 10 ∧ unit % 8 < 5 then some (failLane s (unit / 8) (unit % 8) false true) else none)
  else none

/-- Source, cause and class form a row of Table FLT-3 (DEDUCED, log entry 28). -/
def faultRow (source cause cls : Nat) : Bool :=
  ([(srcTile, 0x02, 2), (srcTile, 0x03, 1), (srcMem, 0x04, 2), (srcCipher, 0x07, 2), (srcPower, 0x08, 4), (srcPower, 0x09, 4),
    (srcClocks, 0x0A, 4), (srcLerhus, 0x0B, 4), (srcLerhus, 0x0C, 3), (srcMem, 0x0D, 1), (srcTile, 0x0D, 1), (srcLerhus, 0x0D, 1),
    (srcPort, 0x10, 0)].contains (source, cause, cls)) ||
  (decide (cause = 0x06) && decide (cls = 2) && (List.range 1355).any (fun b => blockKnown b && decide (blockSource b = source)))

/-- A write of FLT_INJECT: fields that form no row are ignored as a whole, whether go is written or not; all zero they
name no action (DEDUCED, log entry 104). With go it injects, but not for class 4 while a job runs (R8, R355, R418): whether it is accepted. -/
def writeInject (s : State) (v : Nat) : State × Bool :=
  let cls := bits v 16 18
  if bits v 0 31 = 0 ∧ !bit v 63 then (s, true)
  else if !faultRow (bits v 0 7) (bits v 8 15) cls then (s.cfgReject, false)
  else if !bit v 63 then (s, true)
  else
    if cls = 4 ∧ !s.runningJobs.isEmpty then (s.cfgReject, false)
    else match inject s (bits v 0 7) (bits v 8 15) cls (bits v 20 31) with
      | some s => (s, true)
      | none => (s.cfgReject, false)

/-- FAULT_INJECT (R355). -/
def execFaultInject (v : BitVec 64) (s : State) : Res := .next (writeInject s v.toNat).1

end Sys2Proof.Machine
end

