-- ==== Sys2Proof/Machine/RegRead.lean ====
section
/-! DEFINITION. The register window as a READ finds it (R402 to R419): words that the state holds, and words that the
device computes. -/
namespace Sys2Proof.Machine

/-! ## Selections (R405) -/

/-- What a session, or the configuration image as slot 8, has selected. -/
def State.selTile (s : State) (slot : Nat) : Nat := s.fld TILE_SEL_tile slot
def State.selCtx (s : State) (slot : Nat) : Nat := s.fld TILE_SEL_ctx slot
def State.selPage (s : State) (slot : Nat) : Nat := s.fld SEC_PAGE_SEL_page slot
def State.selAssoc (s : State) (slot : Nat) : Nat := s.fld SEC_PAGE_SEL_assoc slot
def State.selLog (s : State) (slot : Nat) : Nat := s.fld FLT_LOG_PTR_select slot

/-- The key of the word that an offset names for a session: a selected word has its unit added, a select word its
session. -/
def State.keyFor (s : State) (slot off : Nat) : Nat :=
  if off = 0x4000 ∨ off = 0xB008 ∨ off = 0xC008 ∨ normal off = 0x9098 then off + 0x10000 * slot
  else if off = 0x4010 then off + 0x10000 * (4 * s.selTile slot + s.selCtx slot)
  else if off = 0x4008 ∨ off = 0x4018 ∨ off = 0x4020 ∨ off = 0x4028 then off + 0x10000 * s.selTile slot
  else if off = 0xB010 then off + 0x10000 * s.selPage slot
  else off

/-! ## Computed words -/

/-- GEN_SERIAL: byte i of the serial at bits 8i (Table REG-3). -/
def serialWord (k : Nat) : Nat := leNat (((toBE 16 Config.serial.toNat).drop (8 * k)).take 8)

/-- GEN_MODE (Table REG-3). -/
def State.genMode (s : State) : Nat :=
  let enc (j : Nat) : Bool := (List.range 16).any (fun p => decide (s.pageJob p = some j) && s.pageEnc p)
  let job (j : Nat) : Nat :=
    s.fld NUM_CTRL_determinism j + 4 * s.fld NUM_CTRL_rounding j + 8 * s.fld MEM_CODEC_CFG_mode j + 32 * ofBool (enc j) + 128 * ofBool (s.job j).running
  job 0 + 2 ^ 8 * job 1 + 2 ^ 16 * job 2 + 2 ^ 24 * job 3 + 2 ^ 32 * s.fld PWR_MODE_mode

/-- A frame of a tile is held by throttle, remap or microcode swap (Table REG-6). -/
def State.frameHeld (s : State) (t : Nat) : Bool :=
  !s.busy t && (s.throttled (t / 256) && decide ((s.tile t).lastStart = s.fld TICK_COUNT_count) ||
    s.svc.remaps.any (fun r => decide (r.tile = t) && r.copied.isSome) || ucodeDue s (t / 256))

/-- STEP_STATUS (Table REG-7). -/
def stepStatus (s : State) (j : Nat) : Nat :=
  let x := s.job j
  x.phase.code + x.attemptNo % 256 * 2 ^ 8 + x.ledgerSeq % 2 ^ 32 * 2 ^ 32

/-- Collectives in flight. -/
def inFlight (s : State) (j : Nat) : Nat := ((s.job j).colls.filter (fun c => decide (c.phase ≠ .done))).length

/-- Words 0 to 2 of DXE_STATUS (Table REG-9). -/
def dxeStatus (s : State) (j w : Nat) : Nat :=
  let x := (s.job j).dxe
  if !x.active then (if w = 2 then s.reg (0x9040 + 0x100 * j) else 0)
  else if w = 0 then s.roundNow j
  else if w = 1 then x.sealedNext - 1
  else
    let behind := s.roundNow j - x.sealedNext
    let stage (k : Nat) : Nat := ((x.round (x.sealedNext + k)).map (fun y => y.stage.code)).getD 0
    stage 0 + 8 * stage 1 + 64 * stage 2 + 2 ^ 16 * ofBool (s.job j).anchorReady + 2 ^ 17 * ofBool (decide (s.fld DXE_STALE_CFG_stall_limit j < behind)) +
      2 ^ 18 * ofBool (!s.locked) + 2 ^ 24 * satTo 8 behind + 2 ^ 32 * s.fld DXE_STATUS_close_waits j

/-- DXE_PATH_STATUS for the entry that a session selects (Table REG-9). -/
def pathStatus (s : State) (j slot : Nat) : Nat :=
  let sel := bits (s.reg (0x9098 + 0x100 * j + 0x10000 * slot)) 0 11
  let x := (s.job j).dxe
  match (x.partners[sel]?).bind (fun q => x.peer q.2.2) with
  | none => sel
  | some p => sel + 2 ^ 16 * ofBool p.second + 2 ^ 17 * ofBool p.primary.silent + 2 ^ 18 * ofBool p.secondary.silent +
      2 ^ 24 * satTo 20 (p.primary.estimate / 1000) + 2 ^ 44 * satTo 20 (p.secondary.estimate / 1000)

/-- SEC_KEY_EPOCH of the association that a session selects; zero when there is none (Table REG-10). -/
def keyEpoch (s : State) (slot : Nat) : Nat :=
  match s.assocAt (s.selPage slot) (s.selAssoc slot) with
  | none => 0
  | some a => a.tx.current + 2 ^ 16 * a.tx.previous.getD 0 + 2 ^ 32 * a.rx.current + 2 ^ 48 * satTo 16 ((s.clock.uptime - a.tx.since) / 1000000000)

/-- The bytes of a lantern entry (Table FLT-5). -/
def LogEntry.bytes (e : LogEntry) : Bytes :=
  let b := [0x17, 0x5A, 1, e.cls] ++ toLE 4 e.bootCount ++ toLE 8 e.seq ++ toLE 8 e.siteTime ++ toLE 8 e.uptime ++
    [e.source, e.cause, e.action, e.state, e.jobMask, e.flags, 0, 0] ++ toLE 8 e.step0.toNat ++ toLE 8 e.step1.toNat ++ toLE 8 e.step2.toNat ++
    toLE 8 e.step3.toNat ++ toLE 8 e.loc0.toNat ++ toLE 8 e.loc1.toNat ++ toLE 8 e.fltStatus.toNat ++ toLE 8 e.genState.toNat ++
    (e.detail ++ List.replicate 136 0).take 136
  b ++ toLE 16 (Config.shake256 b 128).toNat

/-- A word of the lantern window: the entry at a session's select index (R368, R418). -/
def windowWord (s : State) (slot k : Nat) : Nat :=
  match assoc s.lantern.entries (s.selLog slot) with
  | some e => if e.good then leNat ((e.bytes.drop (8 * k)).take 8) else 0
  | none => 0

/-- SVC_SPARE_STATUS (Table REG-12). -/
def spareStatus (s : State) : Nat :=
  (List.range 4).foldl (fun v q =>
    let failed := (s.spares.badTiles.filter (fun p => decide (p / 264 = q))).length
    let bad := (s.spares.badChans.filter (fun c => decide (c / 66 = q))).length
    let w := satTo 4 (s.freeTiles q).length + 2 ^ 4 * satTo 4 failed + 2 ^ 8 * satTo 2 (s.freeChans q).length + 2 ^ 10 * satTo 2 bad +
      2 ^ 12 * ofBool (s.withdrawn q)
    v + w * 2 ^ (16 * q)) 0

def laneStatus (s : State) : Nat :=
  (List.range 10).foldl (fun v p =>
    let bad (rx : Bool) : Bool := s.laneBad p (s.fld (spareFld rx) p) rx
    let use := if bad false || bad true then 2 else if s.fld FAB_PORT_STATUS_spare_used p = 1 then 1 else 0
    let stop := s.spares.rotStop.contains (rotNo p false) || s.spares.rotStop.contains (rotNo p true)
    v + (use + 4 * ofBool stop) * 2 ^ (4 * p)) 0

/-- The running slot that FW_SLOT_STATUS names: in a handover it names the new one only once that has confirmed (R373). -/
def shownSlot (s : State) : Bool :=
  match s.svc.handover with
  | some (some _) => !s.plat.running
  | _ => s.plat.running

/-- FW_SLOT_STATUS (Table REG-12). -/
def fwSlotStatus (s : State) : Nat :=
  let f := s.plat.flash
  ofBool (shownSlot s) + 2 * ofBool f.bootSlot + 4 * ofBool f.slotA.valid + 8 * ofBool f.slotB.valid + 16 * ofBool s.plat.handoverFailed +
    2 ^ 32 * (f.slot (shownSlot s)).secVersion.toNat

/-- DBG_FREEZE_STATUS (Table REG-12). -/
def freezeStatus (s : State) : Nat :=
  look s.svc.shifts (s.fld DBG_SCAN_CTRL_chain) 0 + 2 ^ 32 * s.svc.stopCycles.toNat + 2 ^ 48 * ofBool (decide (s.plat.dev = .frozen)) +
    2 ^ 49 * ofBool (!s.svc.shifts.isEmpty)

/-! ## A word of the window -/

/-- Words of the blocks GEN to STEP. -/
def readLow (s : State) (slot off : Nat) : Nat :=
  let raw := s.reg (s.keyFor slot off)
  let j := off % 0x1000 / 0x100
  if off = 0x0008 then serialWord 0
  else if off = 0x0010 then serialWord 1
  else if off = 0x0018 then s.genState
  else if off = 0x0020 then s.genMode
  else if off = 0x2018 then s.clock.siteTime % 2 ^ 64
  else if 0x3040 ≤ off ∧ off < 0x3060 then raw + 2 ^ 16 * satTo 2 (s.freeChans ((off - 0x3040) / 8)).length
  else if off = 0x4008 then raw + 2 * ofBool (s.frameHeld (s.selTile slot)) + ofBool (s.busy (s.selTile slot))
  else if normal off = 0x6010 then stepStatus s j
  else raw

/-- Words of the blocks FAB to HST. -/
def readMid (s : State) (slot off : Nat) : Nat :=
  let raw := s.reg (s.keyFor slot off)
  let j := off % 0x1000 / 0x100
  if 0x7050 ≤ off ∧ off < 0x70A0 then raw + (s.port ((off - 0x7050) / 8)).st.code
  else if normal off = 0x8008 then raw + 2 ^ 32 * satTo 8 (inFlight s j)
  else if normal off = 0x9030 then dxeStatus s j 0
  else if normal off = 0x9038 then dxeStatus s j 1
  else if normal off = 0x9040 then dxeStatus s j 2
  else if normal off = 0x9098 then pathStatus s j slot
  else if off = 0xA018 then maskOf (s.host.sessions.map (·.1)) + 2 ^ 16 * slot
  else raw

/-- Words of the blocks SEC to DBG. -/
def readHigh (s : State) (slot off : Nat) : Nat :=
  let raw := s.reg (s.keyFor slot off)
  if off = 0xB018 then keyEpoch s slot
  else if 0xB040 ≤ off ∧ off < 0xB080 then bits s.lantern.meas.toNat (8 * (off - 0xB040)) (8 * (off - 0xB040) + 63)
  else if off = 0xC008 then s.lantern.newest + 2 ^ 32 * s.selLog slot
  else if off = 0xC020 then ofBool s.lantern.present + 2 ^ 16 * satTo 16 s.lantern.writeFail + 2 ^ 32 * (s.lantern.seq % 2 ^ 32)
  else if 0xC800 ≤ off ∧ off < 0xC900 then windowWord s slot ((off - 0xC800) / 8)
  else if off = 0xD000 then spareStatus s
  else if off = 0xD008 then laneStatus s
  else if off = 0xD038 then fwSlotStatus s
  else if off = 0xD040 then s.plat.flash.slotA.version.toNat + 2 ^ 32 * s.plat.flash.slotB.version.toNat
  else if off = 0xE000 then ofBool s.svc.freezeBit
  else if off = 0xE008 then freezeStatus s
  else raw

/-- The word at an offset of the window, as a session reads it (R9, R402 to R409). -/
def readWord (s : State) (slot off : Nat) : Nat :=
  if off < 0x7000 then readLow s slot off
  else if off < 0xB000 then readMid s slot off
  else if off < 0xF000 then readHigh s slot off
  else 0

/-- Bytes of the register window (R403). -/
def readRegs (s : State) (slot off len : Nat) : Bytes :=
  (List.range (len / 8)).flatMap (fun k => toLE 8 (readWord s slot (off + 8 * k)))

end Sys2Proof.Machine
end

