-- ==== Sys2Proof/Machine/RegAccess.lean ====
section
/-! DEFINITION. Writes of the register window: access types, reserved values, STATIC owners, staging, and the actions
that fields trigger (R8, R9, R370, R396, R402 to R419). Slot 8 is the configuration image (R405). -/
namespace Sys2Proof.Machine

/-- The slot of the configuration image. -/
def imageSlot : Nat := 8

/-- A field of a value to be written. -/
def Fld.of (f : Fld) (v : Nat) : Nat := bits v f.lo f.hi

/-! ## Reserved values (R9) -/

/-- The value given to a field is reserved: outside its range, and not the zero of a WO field. -/
def Fld.reserved (f : Fld) (v : Nat) : Bool :=
  let x := f.of v
  !(decide (f.acc = .wo) && decide (x = 0)) && (decide (x < f.least) || decide (f.most < x))

/-- The receive buffers that a FAB_CREDIT_CFG value gives all ten ports, in units of 256 KiB (R201). -/
def bufferUnits (v : Nat) : Nat := ((List.range 10).map (fun p => 2 ^ bits v (2 * p) (2 * p + 1))).sum

/-- Physical lanes are numbered 0 to 4. -/
def lanesOk (v : Nat) : Bool := [0, 3, 6, 9, 12, 16, 19, 22, 25, 28].all (fun i => decide (bits v i (i + 2) ≤ 4))

/-- The largest FP32 encoding from 0 to 1. -/
def one32 : Nat := 0x3F800000

/-- Reserved values that are no plain range of one field (Tables REG-6, REG-8, REG-9, REG-12, R201). An FP32 field
from 0 to 1 takes the encodings from +0 to 1, so -0 is reserved (DEDUCED, log entry 91). -/
def State.badWord (s : State) (slot off v : Nat) : Bool :=
  let n := normal off
  if n = 0x4010 then decide (s.selCtx slot ≠ 0) && bit v 0 && !s.isLead (s.selTile slot)
  else if n = 0x70A0 then !lanesOk v
  else if n = 0x7200 then decide (48 < bufferUnits v)
  else if n = 0x7208 then (List.range 4).any (fun d => decide (bits v (24 + 7 * d) (30 + 7 * d) < 1) || decide (64 < bits v (24 + 7 * d) (30 + 7 * d)))
  else if n = 0x8018 then decide (bits v 0 41 % 32 ≠ 0)
  else if n = 0x9008 ∨ n = 0x9078 then decide (bits v 0 41 % 2048 ≠ 0)
  else if n = 0x9088 then decide (one32 < bits v 0 31) || decide (one32 < bits v 32 63)
  else if n = 0x9090 then decide (one32 < bits v 0 31)
  else if n = 0xE010 then decide (1333 < bits v 0 11)
  else false

/-! ## Owners of STATIC fields (R406, Table REG-1) -/

/-- The word belongs to a register of scope Job (Table REG-2). -/
def jobWord (off : Nat) : Bool :=
  let b := off / 0x1000
  decide (b = 5 ∨ b = 6 ∨ b = 8 ∨ b = 9) || decide (normal off = 0x3400)

/-- The job of such a word. -/
def wordJob (off : Nat) : Nat := if off / 0x1000 = 3 then (off - 0x3400) / 0x100 else off % 0x1000 / 0x100

/-- The owner of a STATIC field is stopped. A page that is to be bound needs the job it is bound to stopped as well
(R19, R343). -/
def State.stopped (s : State) (slot off v : Nat) (f : Fld) : Bool :=
  let n := normal off
  if slot = imageSlot then true
  else if jobWord off then !(s.job (wordJob off)).running
  else if n = 0x4010 then (s.jobOfTile (s.selTile slot)).isNone
  else if n = 0x4080 then (s.owner ((off - 0x4080) / 32)).isNone
  else if n = 0x70A0 then decide ((s.port ((off - 0x70A0) / 8)).st = .disabled)
  else if n = 0x7200 then decide ((s.port (f.lo / 2)).st = .disabled)
  else if n = 0x7208 ∨ n = 0x7210 then decide (s.plat.dev = .ready)
  else if n = 0x3020 ∨ n = 0x3028 then
    !(s.job (s.fld MEM_GLOG_SIZE_log_job)).running && (s.job (s.fld MEM_GLOG_SIZE_log_job)).glog.isEmpty
  else if n = 0xB010 then
    (decide (s.fld SEC_PAGE_CTRL_bound (s.selPage slot) = 0) || !(s.job (s.fld SEC_PAGE_CTRL_job (s.selPage slot))).running) &&
      (!bit v 0 || !(s.job (bits v 1 2)).running)
  else false

/-! ## Fields by their access types (R8) -/

/-- The fields of a word that land at once: RW as written, W1C cleared where written 1, STATIC where its owner is
stopped. -/
def landNow (s : State) (slot off v : Nat) (fs : List Fld) (old : Nat) : Nat :=
  fs.foldl (fun w f =>
    match f.acc with
    | .rw => withBits w f.lo f.hi (f.of v)
    | .w1c => withBits w f.lo f.hi (f.of w - (f.of w &&& f.of v))
    | .fixed => if s.stopped slot off v f then withBits w f.lo f.hi (f.of v) else w
    | .rws => if slot = imageSlot then withBits w f.lo f.hi (f.of v) else w
    | _ => w) old

/-- A STATIC field is refused: another value while its owner runs. -/
def refusedField (s : State) (slot off v old : Nat) (f : Fld) : Bool :=
  decide (f.acc = .fixed) && decide (f.of v ≠ f.of old) && !s.stopped slot off v f

/-- The RWS fields of a word enter the staging queue as one write (R370). -/
def stageFields (s : State) (key v : Nat) (fs : List Fld) : State × Bool :=
  match fs.filter (fun f => decide (f.acc = .rws)) with
  | [] => (s, true)
  | f :: r =>
    let lo := r.foldl (fun n g => min n g.lo) f.lo
    let hi := r.foldl (fun n g => max n g.hi) f.hi
    let x := (f :: r).foldl (fun w g => withBits w (g.lo - lo) (g.hi - lo) (g.of v)) 0
    stage s ⟨key % 0x10000 / 0x1000, key, lo, hi, x⟩

/-- A page whose binding changes loses its associations (R345). -/
def pageChanged (s : State) (p old : Nat) : State :=
  let now := s.reg (SEC_PAGE_CTRL_bound.key p)
  if bit old 0 ∧ bits old 0 2 ≠ bits now 0 2 then
    s.modSec (fun x => { x with
      assocs := x.assocs.filter (fun a => decide (a.kind = 1) || decide (a.page ≠ p)),
      shakes := x.shakes.filter (fun h => decide (h.init.kind = 1) || decide (h.init.page.toNat ≠ p)) })
  else s

/-- A word's fields follow their own types; a refused STATIC field raises cfg_reject and the others land (R8, R9). -/
def writePlain (s : State) (slot off v : Nat) (fs : List Fld) : State × Bool :=
  let key := s.keyFor slot off
  let old := s.reg key
  let bad := fs.any (refusedField s slot off v old)
  let s1 := s.setReg key (landNow s slot off v fs old)
  let s1 := if normal off = 0xB010 then pageChanged s1 (s.selPage slot) old else s1
  let r := if slot = imageSlot then (s1, true) else stageFields s1 key v fs
  if bad then (r.1.cfgReject, false) else r

/-! ## Actions (R147, R223, R249, R309, R355, R359, R382, R386, R412, R417, R419, R425) -/

/-- PWR_MODE written by the image: the mode holds at once (R396). The voltage follows the clock downward (log
entry 29). -/
def imagePwr (s : State) (m : Nat) : State :=
  let s := (setMode s m).setFld CLK_CORE_CFG_dram_mhz (modeDram m)
  if modeMv m = s.plat.vddCore then s else setVdd (s.modPlat (fun p => { p with pwr := .falling })) (modeMv m)

/-- The action fields of STEP_CTRL word 1. -/
def stepActions (s : State) (j v : Nat) : State :=
  let s := if bit v 1 then abortByHost s j else s
  if bit v 2 then askRejoin s j else s.modAtt j (fun a => { a with rejoinDue := false })

/-- The action fields of FAB_PORT_CTRL. -/
def portActions (s : State) (p v : Nat) : State :=
  let s := if s.fld FAB_PORT_CTRL_port_en p = ofBool (bit v 0) then s else writePortEn s p (bit v 0)
  if bit v 1 then releaseQuarantine s p else s

/-- DBG_FREEZE_CTRL: a freeze in another state than READY, RUN or DRAIN is ignored with cfg_reject; through the TAP freeze
is cleared, and pm_enter leaves FROZEN. The cycles until the stop are not the spec's to give (DESIGN CHOICE, log entry 2). -/
def writeFreezeCtrl (s : State) (v : Nat) : State × Bool :=
  let r := if bit v 0 then (if s.plat.dev = .frozen then (s, true) else writeFreeze s.draw.2 (s.draw.1.setWidth 16))
    else (s.modSvc (fun x => { x with freezeBit := false }), true)
  (if bit v 1 then enterPostMortem r.1 else r.1, r.2)

/-- Words whose fields trigger actions, once no value is reserved: by the action after, or instead of, the landing of
the other fields. -/
def writeActing (s : State) (slot off v : Nat) (fs : List Fld) : State × Bool :=
  let n := normal off
  let r := writePlain s slot off v fs
  let j := wordJob off
  if n = 0x1010 then (if slot = imageSlot then (imagePwr s (bits v 0 1), true) else writePwr s (bits v 0 1))
  else if n = 0x2000 then writeTick s false (decide (slot = imageSlot)) v
  else if n = 0x2008 then writeTick s true (decide (slot = imageSlot)) v
  else if n = 0x3000 then (if bit v 1 then clearEcc r.1 else r.1, r.2)
  else if n = 0x3010 then writeRepairCtrl s v
  else if n = 0x6008 then (stepActions r.1 j v, r.2)
  else if n = 0x7000 then (if slot = imageSlot then r.1 else portActions s ((off - 0x7000) / 8) v, true)
  else if n = 0x7208 then (if slot = imageSlot then r.1 else refitPorts r.1, r.2)
  else if n = 0x7218 then writeBypassArm s (bit v 0)
  else if n = 0x8010 then (if bit v 62 then advanceEpoch r.1 j else r.1, r.2)
  else if n = 0xA000 then (if bit v 1 then clearStats r.1 else r.1, r.2)
  else if n = 0xA018 then (killSessions s (bits v 8 15), true)
  else if n = 0xC018 then writeInject s v
  else if n = 0xD010 then
    (if bits v 0 3 = 1 then opRemap r.1 (r.1.fld SVC_BIST_CTRL_tile)
      else if bits v 0 3 = 2 then opTestChannel r.1 (r.1.fld SVC_BIST_CTRL_stack) (r.1.fld SVC_BIST_CTRL_channel)
      else r.1, r.2)
  else if n = 0xE000 then writeFreezeCtrl s v
  else r

/-! ## A write of one word and of a range (R8, R9, R402) -/

/-- A write of a word: the state after it, and whether no field of it was ignored under R8 or R9. A word that takes no
write ignores it. The op of SVC_UPDATE_CTRL is not taken here (R419). -/
def regWrite (s : State) (slot off v : Nat) : State × Bool :=
  if off = 0x0018 then (if bit v 4 then s.modPlat (fun p => { p with cfgReject := false }) else s, true)
  else match assoc fieldTable (normal off) with
    | none => (s, true)
    | some fs =>
      if fs.any (fun f => f.reserved v) ∨ s.badWord slot off v then (s.cfgReject, false)
      else writeActing s slot off v fs

/-- The value that a write of some words gives SVC_UPDATE_CTRL word 0. -/
def opWritten (ws : List (Nat × Nat)) : Nat := ((ws.find? (fun w => decide (w.1 = 0xD020))).map (fun w => bits w.2 0 3)).getD 0

/-- A write of words in ascending address order; an op of SVC_UPDATE_CTRL takes its arguments from the words of the same
request (R402, R419). Each word is a register write of its own: one that holds a reserved value is ignored, and the other
words of the request land (DEDUCED, log entry 105). -/
def writeRegs (s : State) (slot : Nat) (ws : List (Nat × Nat)) : State × Bool :=
  let r := ws.foldl (fun r w =>
    let x := regWrite r.1 slot w.1 w.2
    (x.1, r.2 && x.2)) (s, true)
  let op := opWritten ws
  (if op < 8 ∧ slot ≠ imageSlot then startOp r.1 op else r.1, r.2)

/-- The words that a register lets through in a device state: in FROZEN and POST-MORTEM only the debug block and
GEN_STATE, which the TAP reaches (R383, R386); none before and after the device runs. -/
def State.takesWrite (s : State) (off : Nat) : Bool :=
  match s.plat.dev with
  | .train | .ready | .run | .drain => true
  | .frozen | .postMortem => decide (off / 0x1000 = 0xE) || decide (off = 0x0018)
  | _ => false

/-- Register words that the map lists (Table REG-2). -/
def assigned (off : Nat) : Bool :=
  let b := off / 0x1000
  let o := off % 0x1000
  decide (off % 8 = 0) &&
    (if b = 0 then decide (o < 0x30) else if b = 1 then decide (o < 0x30) else if b = 2 then decide (o < 0x30)
    else if b = 3 then (decide (o < 0x20) || decide (0x20 ≤ o ∧ o < 0x30) || decide (0x40 ≤ o ∧ o < 0xA0) || decide (0x100 ≤ o ∧ o < 0x200) ||
      decide (0x400 ≤ o ∧ o < 0x800 ∧ o % 0x100 = 0))
    else if b = 4 then (decide (o < 0x30) || decide (0x80 ≤ o ∧ o < 0x100))
    else if b = 5 then decide (o < 0x400 ∧ o % 0x100 < 0x18)
    else if b = 6 then decide (o < 0x400 ∧ o % 0x100 < 0x38)
    else if b = 7 then (decide (o < 0xF0) || decide (0x100 ≤ o ∧ o < 0x1F0) || decide (0x200 ≤ o ∧ o < 0x220))
    else if b = 8 then decide (o < 0x400 ∧ o % 0x100 < 0x28)
    else if b = 9 then decide (o < 0x400 ∧ o % 0x100 < 0xA0)
    else if b = 10 then decide (o < 0x48)
    else if b = 11 then (decide (o < 0x28) || decide (0x40 ≤ o ∧ o < 0x80))
    else if b = 12 then (decide (o < 0x28) || decide (0x800 ≤ o ∧ o < 0x900))
    else if b = 13 then decide (o < 0x48)
    else if b = 14 then decide (o < 0x18) else false)

/-- A write by the image: with RWS fields landing at once and STATIC fields accepted. One that is ignored under R9 makes
the image invalid (R396). -/
def imageWrite (s : State) (off v : Nat) : State :=
  let r := if assigned off then regWrite s imageSlot off v else (s, false)
  r.1.modPlat (fun p => { p with image := { p.image with valid := p.image.valid && r.2 } })

/-- REGISTER_WRITE: a write of one word through a session's slot, or as a REG record gives it while the image is applied
(R8, R9, R396). -/
def execRegisterWrite (slot : Fin 9) (off : BitVec 16) (v : BitVec 64) (s : State) : Res :=
  if slot.val = imageSlot then .next (if s.plat.dev = .reset then imageWrite s off.toNat v.toNat else s)
  else if off.toNat % 8 ≠ 0 then .next s
  else if s.takesWrite off.toNat then .next (writeRegs s slot [(off.toNat, v.toNat)]).1
  else .next s

end Sys2Proof.Machine
end

