-- ==== Sys2Proof/Machine/Image.lean ====
section
/-! DEFINITION. The images of the flash: the configuration image and its records, the headers of firmware and microcode images,
and the loads that write them (R372, R376, R393 to R397, R420). -/
namespace Sys2Proof.Machine

/-! ## Records of the configuration image (R394 to R396, R420)

The records stand in the flash before the boot chain reads them: a record command gives the image's next record while the
device is in RESET (DESIGN CHOICE, log entry 30). -/

/-- A record counts among the image's; one that is not well formed makes the image invalid and writes nothing. -/
def takeRecord (s : State) (ok : Bool) (note : Image → Image) (write : State → State) : State :=
  if ok then write (s.modPlat (fun p => { p with image := note p.image }))
  else s.modPlat (fun p => { p with image := { p.image with valid := false } })

/-- A record command applies its record while the device is in RESET. -/
def inReset (s : State) (apply : State → State) : Res := .next (if s.plat.dev = .reset then apply s else s)

/-- The head of a record of a fixed length. -/
def headFits (h : RecHead) (n : Nat) : Bool := decide (h.length.toNat = n) && h.rsvZero

/-- The DEVICE record: site, coordinate and bypass_arm. -/
def writeDeviceRecord (s : State) (h : RecHead) (site : BitVec 16) (coord : Quad) (flags : BitVec 8) : State :=
  let co := quadList coord
  let ok := headFits h 16 && decide (site.toNat < 1024) && co.all (fun c => decide (c < 64)) && decide (flags.toNat ≤ 1) && decide (s.plat.image.device = 0)
  takeRecord s ok (fun x => { x with device := 1 }) (fun s =>
    let s := (s.setFld FAB_COORD_site site.toNat).setFld FAB_COORD_coord (co.getD 0 0 + 64 * co.getD 1 0 + 4096 * co.getD 2 0 + 262144 * co.getD 3 0)
    (writeBypassArm s (flags.getLsbD 0)).1)

/-- DEVICE_RECORD. -/
def execDeviceRecord (h : RecHead) (site : BitVec 16) (coord : Quad) (flags : BitVec 8) (s : State) : Res := inReset s (writeDeviceRecord · h site coord flags)

/-- The TOPOLOGY record: dimensions, topology mode, link_wait and endpoints. -/
def writeTopologyRecord (s : State) (h : RecHead) (dims : Quad) (mode : BitVec 8) (linkWait : BitVec 16) (eps : List Endpoint) : State :=
  let d := quadList dims
  let ok := headFits h (16 + 8 * eps.length) && d.all (fun n => decide (1 ≤ n) && decide (n ≤ 64)) && decide (mode.toNat ≤ 1) &&
    decide (100 ≤ linkWait.toNat) && decide (linkWait.toNat ≤ 60000) && eps.all (fun e => decide (e.port = 8) || decide (e.port = 9)) &&
    decide (s.plat.image.topology = 0)
  takeRecord s ok (fun x => { x with topology := 1, endpoints := eps }) (fun s =>
    let s := s.setFld FAB_COORD_dims (d.getD 0 0 + 128 * d.getD 1 0 + 16384 * d.getD 2 0 + 2097152 * d.getD 3 0)
    (s.setFld FAB_TOPO_MODE_mode mode.toNat).setFld FAB_TOPO_MODE_link_wait linkWait.toNat)

/-- TOPOLOGY_RECORD. -/
def execTopologyRecord (h : RecHead) (dims : Quad) (mode : BitVec 8) (linkWait : BitVec 16) (eps : List Endpoint) (s : State) : Res := inReset s (writeTopologyRecord · h dims mode linkWait eps)

/-- The TICK record: period, phase and ptp_wait. -/
def writeTickRecord (s : State) (h : RecHead) (period : BitVec 16) (phase : BitVec 32) (ptpWait : BitVec 32) : State :=
  let ok := headFits h 16 && tickOk period.toNat (signed 32 phase.toNat) && decide (ptpWait.toNat ≤ 600000) && decide (s.plat.image.tick = 0)
  takeRecord s ok (fun x => { x with tick := 1 }) (fun s =>
    ((s.setFld TICK_PERIOD_period period.toNat).setFld TICK_PERIOD_ptp_wait ptpWait.toNat).setFld TICK_PHASE_phase phase.toNat)

/-- TICK_RECORD. -/
def execTickRecord (h : RecHead) (period : BitVec 16) (phase : BitVec 32) (ptpWait : BitVec 32) (s : State) : Res := inReset s (writeTickRecord · h period phase ptpWait)

/-- The POWER record: power mode and limit. -/
def writePowerRecord (s : State) (h : RecHead) (mode : BitVec 8) (limit : BitVec 32) : State :=
  let ok := headFits h 8 && decide (mode.toNat ≤ 2) && decide (400 ≤ limit.toNat) && decide (limit.toNat ≤ 1600) && decide (s.plat.image.power = 0)
  takeRecord s ok (fun x => { x with power := 1 }) (fun s => (imagePwr s mode.toNat).setFld PWR_LIMIT_watts limit.toNat)

/-- POWER_RECORD. -/
def execPowerRecord (h : RecHead) (mode : BitVec 8) (limit : BitVec 32) (s : State) : Res := inReset s (writePowerRecord · h mode limit)

/-- The physical lane that a map of the four logical lanes leaves unused. -/
def spareLane (l : List Nat) : Nat := ((List.range 5).find? (fun i => !l.contains i)).getD 4

/-- The PORT record of one port: whether it is enabled, its buffer and its lane map. -/
def writePortRecord (s : State) (h : RecHead) (p : BitVec 8) (flags : BitVec 8) (buf : BitVec 8) (lanes : Quad) : State :=
  let l := quadList lanes
  let n := p.toNat
  let ok := headFits h 8 && decide (n ≤ 9) && decide (flags.toNat ≤ 1) && decide (buf.toNat ≤ 3) && l.all (fun i => decide (i ≤ 4)) && decide l.Nodup &&
    !s.plat.image.ports.contains n
  let map := l.getD 0 0 + 8 * l.getD 1 0 + 64 * l.getD 2 0 + 512 * l.getD 3 0 + 4096 * spareLane l
  takeRecord s ok (fun x => { x with ports := x.ports ++ [n] }) (fun s =>
    let s := (s.setFld FAB_PORT_CTRL_port_en flags.toNat n).setFld (FAB_CREDIT_CFG_buf n) buf.toNat
    s.setReg (0x70A0 + 8 * n) (map + 65536 * map))

/-- PORT_RECORD. -/
def execPortRecord (h : RecHead) (p : BitVec 8) (flags : BitVec 8) (buf : BitVec 8) (lanes : Quad) (s : State) : Res := inReset s (writePortRecord · h p flags buf lanes)

/-- The HOST_NET record: the host port, its addresses and its marks. -/
def writeHostNetRecord (s : State) (h : RecHead) (n : HostNet) : State :=
  let ok := headFits h 48 && decide (n.pmdSel.toNat ≤ 1) && decide (1 ≤ n.vlan.toNat) && decide (n.vlan.toNat ≤ 4094) && decide (n.dscpCtrl.toNat ≤ 63) &&
    decide (n.dscpBulk.toNat ≤ 63) && decide (s.plat.image.hostNet = 0)
  takeRecord s ok (fun x => { x with hostNet := 1 }) (fun s =>
    let s := (s.setFld HST_PORT_CTRL_pmd_sel n.pmdSel.toNat).setFld HST_MAC_ADDR_mac n.mac.toNat
    let s := (s.setFld HST_IP_CFG_address_hi (n.address.toNat / 2 ^ 64)).setFld HST_IP_CFG_address_lo (n.address.toNat % 2 ^ 64)
    let s := (s.setFld HST_IP_CFG_router_hi (n.router.toNat / 2 ^ 64)).setFld HST_IP_CFG_router_lo (n.router.toNat % 2 ^ 64)
    let s := ((s.setFld HST_IP_CFG_ptp_domain n.ptpDomain.toNat).setFld HST_IP_CFG_ubtik_port n.ubtikPort.toNat).setFld HST_IP_CFG_prefix n.prefixLen.toNat
    ((s.setFld HST_IP_CFG_dscp_bulk n.dscpBulk.toNat).setFld HST_IP_CFG_dscp_ctrl n.dscpCtrl.toNat).setFld HST_IP_CFG_vlan n.vlan.toNat)

/-- HOST_NET_RECORD. -/
def execHostNetRecord (h : RecHead) (n : HostNet) (s : State) : Res := inReset s (writeHostNetRecord · h n)

/-- The HOST_LIST record: the hosts that may open sessions, held by Lerhus. -/
def writeHostListRecord (s : State) (h : RecHead) (hosts : List (BitVec 128)) : State :=
  let ok := headFits h (8 + 16 * hosts.length) && decide (1 ≤ hosts.length) && decide (hosts.length ≤ 64) && decide (s.plat.image.hostList = 0)
  takeRecord s ok (fun x => { x with hostList := 1, hosts := hosts }) id

/-- HOST_LIST_RECORD. -/
def execHostListRecord (h : RecHead) (hosts : List (BitVec 128)) (s : State) : Res := inReset s (writeHostListRecord · h hosts)

/-- A REG record: each entry writes 8 bytes at its offset (R396). -/
def writeRegRecord (s : State) (h : RecHead) (entries : List (BitVec 32 × BitVec 64)) : State :=
  takeRecord s (headFits h (16 * entries.length)) id (fun s => entries.foldl (fun s e => imageWrite s e.1.toNat e.2.toNat) s)

/-- REG_RECORD. -/
def execRegRecord (h : RecHead) (entries : List (BitVec 32 × BitVec 64)) (s : State) : Res := inReset s (writeRegRecord · h entries)

/-- A NOTE record is ignored, once its length is within the table's. -/
def writeNoteRecord (s : State) (h : RecHead) : State := takeRecord s (decide (h.length.toNat ≤ 4096) && h.rsvZero) id id

/-- NOTE_RECORD. -/
def execNoteRecord (h : RecHead) (s : State) : Res := inReset s (writeNoteRecord · h)

/-- The image as a whole (R395, R396): the records that the table asks for once, the coordinate within the dimensions, the
buffers within the pool, the endpoints above the devices and at most 4,096 indices. -/
def imageOk (s : State) : Bool :=
  let x := s.plat.image
  x.valid && decide (x.device = 1) && decide (x.topology = 1) && decide (x.hostNet = 1) && decide (x.hostList = 1) &&
    (s.coord.zip s.dims).all (fun p => decide (p.1 < p.2)) && decide (bufferUnits (s.reg 0x7200) ≤ 48) &&
    x.endpoints.all (fun e => decide (s.devices ≤ e.index.toNat)) && decide (s.devices + x.endpoints.length ≤ 4096)

/-! ## The bytes of a configuration image (R394, R395, Tables BOT-4 and BOT-5) -/

/-- Whether bytes of a value are zero. -/
def zeroAt (b : Bytes) (o n : Nat) : Bool := decide (beAt b o n = 0)

/-- Four bytes of a value. -/
def quadAt (b : Bytes) (o : Nat) : Quad :=
  { x := BitVec.ofNat 8 (beAt b o 1), y := BitVec.ofNat 8 (beAt b (o + 1) 1), z := BitVec.ofNat 8 (beAt b (o + 2) 1),
    w := BitVec.ofNat 8 (beAt b (o + 3) 1) }

/-- An endpoint entry of the TOPOLOGY record. -/
def endpointAt (b : Bytes) (o : Nat) : Endpoint :=
  { index := BitVec.ofNat 16 (beAt b o 2), owner := BitVec.ofNat 16 (beAt b (o + 2) 2), port := BitVec.ofNat 8 (beAt b (o + 4) 1) }

/-- The value of a HOST_NET record. -/
def hostNetAt (v : Bytes) : HostNet :=
  { pmdSel := BitVec.ofNat 8 (beAt v 0 1), prefixLen := BitVec.ofNat 8 (beAt v 1 1), vlan := BitVec.ofNat 16 (beAt v 2 2),
    mac := BitVec.ofNat 48 (beAt v 4 6), ubtikPort := BitVec.ofNat 16 (beAt v 10 2), ptpDomain := BitVec.ofNat 8 (beAt v 12 1),
    dscpCtrl := BitVec.ofNat 8 (beAt v 13 1), dscpBulk := BitVec.ofNat 8 (beAt v 14 1), address := BitVec.ofNat 128 (beAt v 16 16),
    router := BitVec.ofNat 128 (beAt v 32 16) }

/-- One record by its type: its head flags, its value, and whether the padding is zero. A type that Table BOT-5 does not list
is skipped, unless its critical flag makes the image invalid (R395). -/
def applyRecord (s : State) (type flags : Nat) (v : Bytes) (padZero : Bool) : State :=
  let head (rsv : Bool) : RecHead := { length := BitVec.ofNat 32 v.length, rsvZero := rsv && padZero && decide (flags % 0x8000 = 0) }
  let e := min (beAt v 8 2) v.length
  let h := min (beAt v 0 2) v.length
  match type with
  | 1 => writeDeviceRecord s (head (zeroAt v 2 2 && zeroAt v 9 7)) (BitVec.ofNat 16 (beAt v 0 2)) (quadAt v 4) (BitVec.ofNat 8 (beAt v 8 1))
  | 2 => writeTopologyRecord s
      (head (zeroAt v 5 1 && zeroAt v 10 6 && (List.range e).all (fun k => zeroAt v (16 + 8 * k + 5) 3)))
      (quadAt v 0) (BitVec.ofNat 8 (beAt v 4 1)) (BitVec.ofNat 16 (beAt v 6 2)) ((List.range e).map (fun k => endpointAt v (16 + 8 * k)))
  | 3 => writeTickRecord s (head (zeroAt v 2 2 && zeroAt v 12 4)) (BitVec.ofNat 16 (beAt v 0 2)) (BitVec.ofNat 32 (beAt v 4 4)) (BitVec.ofNat 32 (beAt v 8 4))
  | 4 => writePowerRecord s (head (zeroAt v 1 3)) (BitVec.ofNat 8 (beAt v 0 1)) (BitVec.ofNat 32 (beAt v 4 4))
  | 5 => writePortRecord s (head (zeroAt v 7 1)) (BitVec.ofNat 8 (beAt v 0 1)) (BitVec.ofNat 8 (beAt v 1 1)) (BitVec.ofNat 8 (beAt v 2 1)) (quadAt v 3)
  | 6 => writeHostNetRecord s (head (zeroAt v 15 1)) (hostNetAt v)
  | 7 => writeHostListRecord s (head (zeroAt v 2 6)) ((List.range h).map (fun k => BitVec.ofNat 128 (beAt v (8 + 16 * k) 16)))
  | 8 =>
    let n := v.length / 16
    writeRegRecord s (head ((List.range n).all (fun k => zeroAt v (16 * k + 4) 4)))
      ((List.range n).map (fun k => (BitVec.ofNat 32 (beAt v (16 * k) 4), BitVec.ofNat 64 (beAt v (16 * k + 8) 8))))
  | 9 => writeNoteRecord s (head true)
  | _ => if flags.testBit 15 then s.modPlat (fun p => { p with image := { p.image with valid := false } }) else s

/-- Records back to back, in image order; one that is cut short, and bytes after the last, make the image invalid. -/
def applyRecords : Nat → Bytes → State → State
  | 0, b, s => if b.isEmpty then s else s.modPlat (fun p => { p with image := { p.image with valid := false } })
  | n + 1, b, s =>
    let len := beAt b 4 4
    let whole := 8 + 8 * ((len + 7) / 8)
    if b.length < whole then s.modPlat (fun p => { p with image := { p.image with valid := false } })
    else applyRecords n (b.drop whole) (applyRecord s (beAt b 0 2) (beAt b 2 2) ((b.drop 8).take len) (zeroAt b (8 + len) (whole - 8 - len)))

/-- The header of a configuration image, before its signature (R394, Table BOT-4). -/
def cfgHeadOk (body : Bytes) : Bool :=
  decide (104 ≤ body.length) && decide (beAt body 0 4 = 0x4B434647) && decide (beAt body 4 2 = 1) && decide (beAt body 16 4 = body.length + 114) &&
    decide (body.length + 114 ≤ 2 ^ 20) && (zeroAt body 24 16 || decide (beAt body 24 16 = Config.serial.toNat))

/-- The sequence number of a configuration image, and its operator key as bytes and as a key. -/
def cfgSeq (body : Bytes) : BitVec 64 := BitVec.ofNat 64 (beAt body 8 8)
def cfgKeyBytes (body : Bytes) : Bytes := (body.drop 40).take 57
def cfgKey (body : Bytes) : BitVec 456 := BitVec.ofNat 456 (beAt body 40 57)

/-- The signature over a configuration image verifies under its operator key (R394). -/
def cfgSigned (body : Bytes) (sig : BitVec 912) : Bool := Config.ed448Verify ctxConfig (cfgKey body) body sig

/-- A configuration image applied, record by record. -/
def applyImage (s : State) (body : Bytes) : State := applyRecords (beAt body 20 4) (body.drop 104) s

/-- The registers at their reset values, but for what the boot itself has found, and no record taken (R396). -/
def dropImage (s : State) : State :=
  let keep := [0x1008, 0xB000, 0xC000]
  let s : State := { s with regs := s.regs.filter (fun r => keep.contains r.1 || decide (normal r.1 = 0x3040)) }
  let t := if s.plat.pwr = .none then s else setVdd s 780
  t.modPlat (fun p => { p with image := Image.reset, pwr := .none })

/-! ## Headers of firmware and microcode images (R393, Table BOT-3) -/

/-- Reasons of SEC_STATUS. -/
def whySig : Nat := 1
def whyDigest : Nat := 2
def whyVersion : Nat := 3
def whyOwner : Nat := 4
def whyFormat : Nat := 5

/-- The most bytes of an image of a kind, header included. -/
def imageRoom (kind : Nat) : Nat := if kind = 1 then 2 ^ 23 else 2 ^ 22

/-- Why an image is not accepted, by its kind, the first 128 bytes of its header, the SHAKE256-512 digest of its body, its
signature and the fused minimum version. -/
def imageReject (kind : Nat) (head : Bytes) (digest : BitVec 512) (sig : BitVec 912) (least : BitVec 32) : Option Nat :=
  if head.length ≠ 128 ∨ beAt head 0 4 ≠ 0x4B494D47 ∨ beAt head 4 1 ≠ kind ∨ imageRoom kind < 256 + beAt head 16 4 then some whyFormat
  else if (head.drop 28).take 64 ≠ toLE 64 digest.toNat then some whyDigest
  else if !Config.ed448Verify ctxImage Config.imageKey head sig then some whySig
  else if beAt head 12 4 < least.toNat then some whyVersion
  else none

/-- What a firmware slot and a flash copy show of an image. -/
def slotOf (head : Bytes) (digest : BitVec 512) : FwSlot :=
  { valid := true, version := BitVec.ofNat 32 (beAt head 8 4), secVersion := BitVec.ofNat 32 (beAt head 12 4), recWrite := BitVec.ofNat 16 (beAt head 20 2),
    recMin := BitVec.ofNat 16 (beAt head 22 2), recMax := BitVec.ofNat 16 (beAt head 24 2), digest := digest }

def copyOf (head : Bytes) (digest : BitVec 512) : FlashCopy :=
  { valid := true, version := BitVec.ofNat 64 (beAt head 8 4), secVersion := BitVec.ofNat 32 (beAt head 12 4), digest := digest }

/-! ## Loads (R372, R376, R397) -/

/-- The image that SVC_UPDATE_CTRL names, copied from DRAM, and the uncorrectable lines that the copy meets: they count, and no
job aborts (R372). -/
def loadCopy (s : State) : State × Bytes × Bool :=
  let a := s.fld SVC_UPDATE_CTRL_addr
  let n := s.fld SVC_UPDATE_CTRL_len
  let bad := s.ueIn a n
  (if bad.isEmpty then s else s.count MEM_ECC_COUNT_uncorrectable bad.length, s.mem a n, bad.isEmpty)

/-- The digest of the body, and the signature, of an image as bytes. -/
def bodyDigest (b : Bytes) : BitVec 512 := Config.shake256 ((b.drop 256).take (beAt b 16 4)) 512
def imageSig (b : Bytes) : BitVec 912 := BitVec.ofNat 912 (beAt b 128 114)

/-- A loaded firmware or microcode image is accepted. -/
def imageGood (kind : Nat) (b : Bytes) (least : BitVec 32) : Bool :=
  decide (256 + beAt b 16 4 ≤ b.length) && (imageReject kind (b.take 128) (bodyDigest b) (imageSig b) least).isNone

/-- A configuration image in DRAM is accepted: it is whole and signed under the operator key of this boot, and its records
apply, on a machine at reset and not on this one (R394 to R397). -/
def configGood (s : State) (body : Bytes) (sig : BitVec 912) : Bool :=
  cfgHeadOk body && cfgSigned body sig && decide (Config.shake256 (cfgKeyBytes body) 256 = s.plat.keyDigest) && imageOk (applyImage State.reset body)

/-- FW_LOAD_DONE: the inactive slot holds the image, or is invalid; `back` says that the slot reads back as written (R372, R393). -/
def execFwLoadDone (back : Bool) (s : State) : Res :=
  s.whenClocked <|
  if s.svc.op = 1 then
    let r := loadCopy s
    let ok := r.2.2 && decide (s.fld SVC_UPDATE_CTRL_len ≤ imageRoom 1) && imageGood 1 r.2.1 s.plat.fuses.minFw && back
    let old := s.plat.flash.slot (!s.plat.running)
    let x : FwSlot := if ok then slotOf r.2.1 (bodyDigest r.2.1) else { old with valid := false }
    .next (opEnd (r.1.modFlash (fun f => f.setSlot (!s.plat.running) x)) (if ok then 2 else 3))
  else .next s

/-- UCODE_LOAD_DONE: the inactive copy of each domain of the mask, and with the store flag the older flash copy,
hold the image; a flash copy that does not read back as written is invalid, and the load has failed (R376, R393). -/
def execUcodeLoadDone (back : Bool) (s : State) : Res :=
  s.whenClocked <|
  if s.svc.op = 3 then
    let r := loadCopy s
    let ok := r.2.2 && decide (s.fld SVC_UPDATE_CTRL_len ≤ imageRoom 2) && imageGood 2 r.2.1 s.plat.fuses.minUcode
    let x := copyOf r.2.1 (bodyDigest r.2.1)
    let stored := decide (s.fld SVC_UPDATE_CTRL_store = 1)
    let y := { x with valid := back }
    let s := r.1
    if ok then
      let s := (setBitsOf (s.fld SVC_UPDATE_CTRL_mask) 4).foldl (fun s q =>
        s.modDom q (fun d => if d.ucodeActive then { d with ucode0 := x } else { d with ucode1 := x })) s
      let older (f : Flash) : Bool := f.ucode0.valid && (!f.ucode1.valid || decide (f.ucode1.version.toNat < f.ucode0.version.toNat))
      let s := if stored then s.modFlash (fun f => if older f then { f with ucode1 := y } else { f with ucode0 := y }) else s
      .next (opEnd s (if stored && !back then 3 else 2))
    else .next (opEnd s 3)
  else .next s

/-- CONFIG_LOAD_DONE: the other flash copy holds the image, or is invalid when it does not read back as written; it takes effect at the
next full reset (R397). -/
def execConfigLoadDone (back : Bool) (s : State) : Res :=
  s.whenClocked <|
  if s.svc.op = 5 then
    let f := s.plat.flash
    let now := if f.cfgInUse then f.cfg1 else f.cfg0
    let r := loadCopy s
    let whole := r.2.1.take (beAt r.2.1 16 4)
    let body := whole.take (whole.length - 114)
    let ok := r.2.2 && decide (now.version.toNat < (cfgSeq body).toNat) && configGood s body (BitVec.ofNat 912 (beAt whole body.length 114))
    let x : FlashCopy := { valid := back, version := cfgSeq body, secVersion := 0, digest := Config.shake256 whole 512 }
    .next (opEnd (if ok then r.1.modFlash (fun f => if f.cfgInUse then { f with cfg0 := x } else { f with cfg1 := x }) else r.1) (if ok && back then 2 else 3))
  else .next s

end Sys2Proof.Machine
end

