-- ==== Sys2Proof/Machine/Boot.lean ====
section
/-! DEFINITION. Supplies and resets, the boot chain, TRAIN (R320, R321, R363, R364, R367, R387 to R393, R398 to R401,
R426). -/
namespace Sys2Proof.Machine

/-! ## Full resets (R363, R398, R399) -/

/-- Every block and clock domain is reset: keys, sessions and contents are gone, the bypass closes. The lantern log, the
flash, the fuses and the record of used spares stay, and withdrawn stack domains stay withdrawn (R352). -/
def fullReset (s : State) (cause : Nat) : State :=
  let s := setBypass (setLight (setTherm s false) false) true
  let s := if s.plat.vddCore = 780 then s else setVdd s 780
  let gone := (List.range 4).filter s.withdrawn
  let p : Plat := { Plat.reset with
    cause := BitVec.ofNat 2 cause, resetLow := decide (cause = 1), vbypOk := s.plat.vbypOk, flash := s.plat.flash,
    fuses := { s.plat.fuses with seedLocked := false } }
  let t : State := { State.reset with
    pending := s.pending, out := s.out, free := s.free, plat := p,
    lantern := { s.lantern with meas := 0, events := [], eventCount := 0 },
    spares := { Spares.reset with badTiles := s.spares.badTiles, badChans := s.spares.badChans } }
  gone.foldl (fun t q => t.setFld MEM_STACK_STATUS_withdrawn 1 q) t

/-- POWER_ON: supplies come into tolerance: from OFF to RESET (R398). -/
def execPowerOn (resetHigh : Bool) (s : State) : Res :=
  if s.plat.dev = .off then .next ((s.modPlat (fun p => { p with resetLow := !resetHigh })).setDev .reset) else .next s

/-- POWER_LOSS: OFF; the bypass closes (R398, R426). -/
def execPowerLoss (s : State) : Res := .next ((fullReset s 0).setDev .off)

/-- RESET_N driven low: a full reset in every state but OFF (R363, R398). -/
def execResetNAssert (s : State) : Res :=
  if s.plat.dev = .off then .next (s.modPlat (fun p => { p with resetLow := true })) else .next (fullReset s 1)

/-! ## The boot chain (R320, R392, R393, Table SEC-2) -/

/-- A stage has failed: SEC_STATUS says why. -/
def stageFailed (s : State) (reason : Nat) : State := s.setFld SEC_STATUS_reason reason

/-- Stage 1 or 2 has failed: the boot ROM writes it to the lantern log and the device stays in BOOT. -/
def stayInBoot (s : State) (stage reason : Nat) : State := logEntry (stageFailed s reason) 4 1 0x01 0 0 stage reason false

/-- Stage 3, 4 or 5 has failed: FAULT, the bypass closed and the host port dark. -/
def bootFault (s : State) (stage reason : Nat) : State :=
  let s := logEntry (stageFailed s reason) 4 2 0x01 5 0 stage reason false
  s.modPlat (fun p => { p with faultFromBoot := true, dev := .fault })

/-- A firmware slot as the boot ROM reads it, and why it does not pass stage 2, if it does not. -/
def fwRead (b : BootInput) (slot : Bool) : ImageRead := if slot then b.fwB else b.fwA

def slotCheck (s : State) (b : BootInput) (slot : Bool) : Option Nat :=
  if !(s.plat.flash.slot slot).valid then some whyFormat
  else imageReject 1 (fwRead b slot).head (fwRead b slot).digest (fwRead b slot).sig s.plat.fuses.minFw

/-- The slot booted: the boot slot, or else the other one, which the boot record then names (R320, R392). -/
def bootSlotOf (s : State) (b : BootInput) : Option Bool :=
  let f := s.plat.flash.bootSlot
  if (slotCheck s b f).isNone then some f else if (slotCheck s b (!f)).isNone then some (!f) else none

/-- The flash shows of each slot that passes what its header gives. -/
def noteSlots (s : State) (b : BootInput) : State :=
  [false, true].foldl (fun s slot =>
    if (slotCheck s b slot).isNone then s.modFlash (fun f => f.setSlot slot (slotOf (fwRead b slot).head (fwRead b slot).digest)) else s) s

/-- A microcode copy, and why it does not pass stage 5, if it does not. -/
def ucRead (b : BootInput) (one : Bool) : ImageRead := if one then b.uc1 else b.uc0

def ucodeCheck (s : State) (b : BootInput) (one : Bool) : Option Nat :=
  if !(if one then s.plat.flash.ucode1 else s.plat.flash.ucode0).valid then some whyFormat
  else imageReject 2 (ucRead b one).head (ucRead b one).digest (ucRead b one).sig s.plat.fuses.minUcode

/-- The microcode copy that stage 5 loads: the valid one with the higher version (R393). -/
def ucodeCopy (s : State) (b : BootInput) : Option Bool :=
  let newer := decide (beAt b.uc0.head 8 4 < beAt b.uc1.head 8 4)
  if (ucodeCheck s b newer).isNone then some newer else if (ucodeCheck s b (!newer)).isNone then some (!newer) else none

/-- The configuration copy with the higher seq, whose records the record commands have given (DESIGN CHOICE, log entry 30). -/
def newerCfg (b : BootInput) : Bool := decide ((cfgSeq b.cfg0.body).toNat < (cfgSeq b.cfg1.body).toNat)

def cfgRead (b : BootInput) (one : Bool) : ConfigRead := if one then b.cfg1 else b.cfg0

/-- The operator key passes stage 3 (R322, Table SEC-2). -/
def ownerOk (s : State) (body : Bytes) : Bool :=
  match s.plat.fuses.owner with
  | some d => decide (d = Config.shake256 (cfgKeyBytes body) 256)
  | none => true

/-- Why a configuration copy is not valid, with its records applied (R394). -/
def cfgReject (s : State) (c : ConfigRead) : Option Nat :=
  if !cfgHeadOk c.body then some whyFormat
  else if !ownerOk s c.body then some whyOwner
  else if !cfgSigned c.body c.sig then some whySig
  else if !imageOk s then some whyFormat
  else none

/-- The configuration copy in force, with its records applied: the one with the higher seq, or else the other one, from reset
values (R394, R396). -/
def cfgChosen (s : State) (b : BootInput) : Option (Bool × State) :=
  let n := newerCfg b
  if (cfgReject s (cfgRead b n)).isNone then some (n, s)
  else
    let t := applyImage (dropImage s) (cfgRead b (!n)).body
    if (cfgReject t (cfgRead b (!n))).isNone then some (!n, t) else none

/-- Stage 3 has passed: the key is measured (R320, R322). -/
def keyStage (s : State) (body : Bytes) : State :=
  let key := cfgKeyBytes body
  extendM ((s.setFld SEC_STATUS_stage 3).modPlat (fun p => { p with opKey := cfgKey body, keyDigest := Config.shake256 key 256 })) 3 (Config.shake256 key 512)

/-- Stage 4 has passed: the copy is measured, and is the one in use (R320, R394). -/
def cfgStage (s : State) (one : Bool) (c : ConfigRead) : State :=
  let d := Config.shake256 (signedMessage c.body c.sig) 512
  let x : FlashCopy := { valid := true, version := cfgSeq c.body, secVersion := 0, digest := d }
  (extendM (s.setFld SEC_STATUS_stage 4) 4 d).modPlat (fun p => { p with
    endpoints := p.image.endpoints, hosts := p.image.hosts,
    flash := if one then { p.flash with cfgInUse := true, cfg1 := x } else { p.flash with cfgInUse := false, cfg0 := x } })

/-- Stage 5 has passed: both copies of every stack domain hold the microcode (R320, R387). -/
def ucodeStage (s : State) (m : ImageRead) : State :=
  let u := copyOf m.head m.digest
  (List.range 4).foldl (fun s q => s.modDom q (fun d => { d with ucodeActive := false, ucode0 := u, ucode1 := u }))
    (extendM (s.setFld SEC_STATUS_stage 6) 5 m.digest)

/-- The session of the newest entry with action 6: the CTRL RESET that began this boot (R367). -/
def resetSession (s : State) : Nat :=
  let l := s.lantern.entries.map (·.2) |>.filter (fun e => decide (e.action = 6))
  ((l.foldl (fun (m : Option LogEntry) e => match m with
    | none => some e
    | some x => if x.seq < e.seq then some e else some x) none).map (fun e => e.loc1.toNat)).getD 0

/-- Lerhus runs: a write cut short is counted and its number skipped, and the cause of the reset is logged with M (R364,
R367). -/
def bootEntry (s : State) (cut : Bool) : State :=
  let s : State := if cut then
      { s with lantern := { s.lantern with writeFail := s.lantern.writeFail + 1, seq := s.lantern.seq + 1, lost := true } }
    else s
  let rest := (detailFree s.free).drop 64
  let d := toLE 64 s.lantern.meas.toNat ++ rest.take 72
  let c := s.plat.cause.toNat
  let s := logEntry s 0xFF 2 0x0E 0 0 c (if c = 2 then resetSession s else 0) false (some d)
  { s with free := s.free + 17 }

/-- The ports take their first states: DISABLED without port_en, or in a torus dimension of size 1 (R217, R220). -/
def startPorts (s : State) : State :=
  (List.range 10).foldl (fun s p =>
    let off := decide (s.fld FAB_PORT_CTRL_port_en p = 0) || (decide (p < 8) && decide (s.dims.getD (p / 2) 1 ≤ 1))
    s.modPort p (fun x => { x with st := if off then .disabled else .down })) s

/-- TRAIN begins: the bypass opens and the links run (R387, R432). -/
def enterTrain (s : State) : State := (startPorts (setLight (setBypass s false) true)).enter .train

/-- Stages 3 to 5, and TRAIN. When neither configuration copy is valid, stage 4 fails for the reason of the one with the
higher seq (R394). -/
def bootLerhus (s : State) (b : BootInput) : State :=
  match cfgChosen s b with
  | none =>
    let c := cfgRead b (newerCfg b)
    let why := (cfgReject s c).getD whyFormat
    let t := dropImage s
    bootFault (if cfgHeadOk c.body && ownerOk s c.body then keyStage t c.body else t) 4 why
  | some (one, s) =>
    let s := cfgStage (keyStage s (cfgRead b one).body) one (cfgRead b one)
    match ucodeCopy s b with
    | none => bootFault s 5 ((ucodeCheck s b (decide (beAt b.uc0.head 8 4 < beAt b.uc1.head 8 4))).getD whyFormat)
    | some k => enterTrain (ucodeStage s (ucRead b k))

/-- The identity key that the boot ROM derives from the seed (R318). -/
def identityOf (seed : BitVec 256) : BitVec 456 :=
  Config.shake256 (label "KL7 identity" ++ toLE 32 seed.toNat) 456

/-- PLL_LOCK: with RESET_N high and the PLLs locked the device enters BOOT and runs the boot chain; the boot ROM derives the
identity key and locks the seed (R318, R320, R387, R398). -/
def execPllLock (b : BootInput) (s : State) : Res :=
  if s.plat.dev = .reset then
    let s := (s.modPlat (fun p => { p with resetLow := false })).setDev .boot
    let s : State := { (s.setReg 0x1008 0x1FF) with lantern := { s.lantern with bootCount := s.lantern.bootCount + 1 } }
    let s := s.modPlat (fun p => { p with idKey := identityOf p.fuses.seed, fuses := { p.fuses with seedLocked := true } })
    let cert := vendorCert Config.serial (Config.ed448Public s.plat.idKey) Config.certSig
    if !b.fuseOk ∨ !cert then .next (stayInBoot s 1 (if cert then whyFormat else whySig))
    else
      let s := extendM (s.setFld SEC_STATUS_stage 1) 1 b.romDigest
      match bootSlotOf s b with
      | none => .next (stayInBoot s 2 ((slotCheck s b s.plat.flash.bootSlot).getD 0))
      | some slot =>
        let s := if slot = s.plat.flash.bootSlot then s else s.modFlash (fun f => { f with bootSlot := slot, bootSeq := f.bootSeq + 1 })
        let s := (s.modPlat (fun p => { p with running := slot })).setFld SEC_STATUS_slot (ofBool slot)
        let s := extendM ((noteSlots s b).setFld SEC_STATUS_stage 2) 2 (fwRead b slot).digest
        .next (bootLerhus (bootEntry s b.cutEntry) b)
  else .next s

/-! ## TRAIN (R387 to R390) -/

/-- TRAIN, and not for a bond-rate retrain alone. -/
def State.training (s : State) : Bool := decide (s.plat.dev = .train) && s.plat.train.retrain.isNone

/-- A failed tile leaves the map: its logical tile moves onto a free spare, or its stack domain is withdrawn. -/
def mapOutTile (s : State) (p : Nat) (new : Bool) : State :=
  let s := s.modSpares (fun x => { x with badTiles := addTo p x.badTiles })
  match s.tileOf p with
  | none => s
  | some t => match s.freeTiles (t / 256) with
    | n :: _ =>
      let s := s.setFld TILE_MAP_phys n t
      if new then tileEntry s p 1 else s
    | [] => withdrawDomain s (t / 256) srcTile 0x05 (t / 256) p false

/-- TILE_SELF_TEST_DONE: the tiles that failed, and those that failed before, are mapped out; tile state is zero (R389). -/
def execTileSelfTestDone (failed : List (Fin 1056)) (s : State) : Res :=
  if s.training ∧ !s.plat.train.tilesDone then
    let before := s.spares.badTiles
    let bad := failed.foldl (fun l p => addTo p.val l) before
    let s := s.modSpares (fun x => { x with badTiles := bad })
    let s := bad.foldl (fun s p => mapOutTile s p (!before.contains p)) s
    let s : State := { s with tiles := [] }
    .next ((setBist s 1 1055 (outcome (!bad.contains 1055))).modPlat (fun p => { p with train := { p.train with tilesDone := true } }))
  else .next s

/-- A channel that failed training, or has failed before, is mapped onto a free spare at once, or its stack domain is
withdrawn. -/
def mapOutChan (s : State) (q p : Nat) : State :=
  match s.chanLogical q p with
  | none => s
  | some c => match s.freeChans q with
    | n :: _ => s.setChanPhys q c n
    | [] => channelLost s q p 0 false

/-- STACK_TRAINED: a stack is trained and its lines are zero (R389). -/
def execStackTrained (q : Fin 4) (failed : List (Fin 66)) (s : State) : Res :=
  if s.training ∧ !s.plat.train.stacksUp.getLsbD q.val then
    let bad := failed.foldl (fun l c => addTo (66 * q.val + c.val) l) s.spares.badChans
    let s := s.modSpares (fun x => { x with badChans := bad })
    let mine := (bad.filter (fun n => decide (n / 66 = q.val))).map (· % 66)
    let s := mine.foldl (fun s p => mapOutChan s q p) s
    let s := if s.withdrawn q then s else s.setFld MEM_STACK_STATUS_trained 1 q
    .next (s.modPlat (fun p => { p with train := { p.train with stacksUp := p.train.stacksUp ||| BitVec.ofNat 4 (2 ^ q.val) } }))
  else .next s

/-- HOST_LINK_WAIT_EXPIRY: 10 s of TRAIN have passed (R388). -/
def execHostLinkWaitExpiry (s : State) : Res :=
  .next (if s.training then s.modPlat (fun p => { p with train := { p.train with hostWaived := true } }) else s)

/-- LINK_WAIT_EXPIRY: link_wait has passed since optical calibration ended (R388). -/
def execLinkWaitExpiry (s : State) : Res :=
  .next (if s.training && s.plat.train.opticalDone then s.modPlat (fun p => { p with train := { p.train with linkWaitOver := true } }) else s)

/-- The conditions for leaving TRAIN (R388). -/
def readyMet (s : State) : Bool :=
  let t := s.plat.train
  (List.range 4).all (fun q => t.stacksUp.getLsbD q || s.withdrawn q) && t.tilesDone &&
    (decide (s.fld HST_PORT_STATUS_link_up = 1) || t.hostWaived) &&
    (t.linkWaitOver || (List.range 10).all (fun p => match (s.port p).st with
      | .disabled | .up | .quarantine => true
      | _ => false)) &&
    s.clock.ticking && decide (t.kat = 7)

/-- TRAIN_COMPLETE: every condition holds: READY (R388, R398). -/
def execTrainComplete (s : State) : Res := .next (if s.training && readyMet s then s.enter .ready else s)

end Sys2Proof.Machine
end

