-- ==== Sys2Proof/Machine/Host.lean ====
section
/-! DEFINITION. CTRL requests of the host: their order, READ and WRITE, jobs started and stopped, BULK transfers opened,
DRAIN, RESET and CLOSE (R309 to R317); the frame tick; and the end of a handover's pause (R373, R374). -/
namespace Sys2Proof.Machine

/-! ## Status codes (Table HST-5) -/

def csOk : Nat := 0
def csAddr : Nat := 1
def csReject : Nat := 2
def csLive : Nat := 3
def csMemUe : Nat := 4
def csState : Nat := 5
def csArgs : Nat := 6
def csConfig : Nat := 7

/-- A response without results. -/
def reply (v : Nat) : Resp := { status := BitVec.ofNat 8 v, data := [] }

/-! ## READ and WRITE (R139, R169, R170, R311) -/

/-- All of the local addresses can be read by CTRL: in TRAIN and FAULT only the register window (R311). -/
def State.memOpen (s : State) : Bool :=
  match s.plat.dev with
  | .train | .fault => false
  | _ => true

/-- READ; in TRAIN and FAULT of the register window only. A scratchpad answers ADDR in POST-MORTEM (R386); an uncorrectable line gives no data (Table MEM-4). -/
def ctrlRead (s : State) (slot a n : Nat) : State × Resp :=
  let long := decide (n = 0) || decide (8192 < n)
  if !s.memOpen && decide (placeOf a (if long then 1 else n) ≠ .regs) then (s, reply csState)
  else if long then (s, reply csArgs)
  else match placeOf a n with
    | .none => (s, reply csAddr)
    | .regs => if a % 8 ≠ 0 ∨ n % 8 ≠ 0 then (s, reply csAddr) else (s, { status := 0, data := readRegs s slot (a - regBase) n })
    | p =>
      if (p = .queue ∧ 0x3040 < queueOff a + n) ∨ (p = .spad ∧ s.plat.dev = .postMortem) then (s, reply csAddr)
      else
        let r := s.readAt a n
        if r.2.isEmpty then (s, { status := 0, data := r.1 })
        else (s.count MEM_ECC_COUNT_uncorrectable r.2.length, reply csMemUe)

/-- The host writes bytes of DRAM: into pending copies as a program's write would count (R140, R159). -/
def hostPut (s : State) (a : Nat) (bs : Bytes) : State :=
  s.runningJobs.foldl (fun s j => digestWrite (markWritten s j a bs.length) j a bs.length) (s.setMem a bs)

/-- A CTRL WRITE of DRAM: lines that are uncorrectable and not written whole stay as they are (R177). -/
def hostWrite (s : State) (a : Nat) (bs : Bytes) : State × Nat :=
  if s.runningJobs.any (fun j => s.refuses j a bs.length) then (s, csLive)
  else
    let bad := (s.ueIn a bs.length).filter (fun l => !(decide (a ≤ l) && decide (l + 64 ≤ a + bs.length)))
    if bad.isEmpty then (hostPut s a bs, csOk)
    else
      ((linesOf a bs.length).foldl (fun s l =>
        if bad.contains l then s
        else
          let lo := max a l
          hostPut s lo ((bs.drop (lo - a)).take (min (a + bs.length) (l + 64) - lo))) (s.count MEM_ECC_COUNT_uncorrectable bad.length), csMemUe)

/-- Descriptors of 64 bytes enter a device queue in the name of the domain's lowest tile (DESIGN CHOICE, log entry 32). -/
def hostQueue (s : State) (a : Nat) (bs : Bytes) : State × Nat :=
  let q := queueDom a
  let k := queueOff a / 0x1000
  let n := bs.length / 64
  if 0x3000 < queueOff a + bs.length ∨ a % 64 ≠ 0 ∨ bs.length % 64 ≠ 0 then (s, csAddr)
  else if k ≠ (queueOff a + bs.length - 1) / 0x1000 then (s, csAddr)
  else if (s.owner q).isNone ∨ 256 < ((s.dom q).queue k).length + n then (s, csState)
  else
    ((List.range n).foldl (fun s i => s.modDom q (fun d => d.putQueue k ⟨256 * q, 0, 0, (bs.drop (64 * i)).take 64⟩)) s, csOk)

/-- The words of a register write: offsets and little-endian values. -/
def regWords (off : Nat) (bs : Bytes) : List (Nat × Nat) :=
  (List.range (bs.length / 8)).map (fun k => (off + 8 * k, leNat ((bs.drop (8 * k)).take 8)))

/-- WRITE. -/
def ctrlWrite (s : State) (slot a : Nat) (bs : Bytes) : State × Resp :=
  let n := bs.length
  if n = 0 ∨ 8192 < n then (s, reply csArgs)
  else match placeOf a n with
    | .none => (s, reply csAddr)
    | .regs =>
      if a % 8 ≠ 0 ∨ n % 8 ≠ 0 then (s, reply csAddr)
      else
        let r := writeRegs s slot (regWords (a - regBase) bs)
        (r.1, reply (if r.2 then csOk else csReject))
    | .dram => let r := hostWrite s a bs; (r.1, reply r.2)
    | .spad => (s.writeSpad a bs, reply csOk)
    | .queue => let r := hostQueue s a bs; (r.1, reply r.2)

/-! ## JOB_START (R137, R163, R250, R282, R312, R343, R413, R416) -/

/-- The slice meets R312: extents within the site's dimensions, and the own coordinate inside. -/
def sliceOk (s : State) (a : JobArgs) : Bool :=
  (List.range 4).all (fun d =>
    let e := (quadList a.extent).getD d 0
    let o := (quadList a.origin).getD d 0
    let n := s.dims.getD d 1
    decide (1 ≤ e) && decide (e ≤ n) && decide (o < n) && decide ((s.coord.getD d 0 + n - o) % n < e))

/-- Each stack domain of a mask has 32 lead tiles (R413). -/
def leadsOk (s : State) (mask : Nat) : Bool :=
  (setBitsOf mask 4).all (fun q => decide (((List.range 4).map (fun i => (setBitsOf (s.reg (0x4080 + 8 * (4 * q + i))) 64).length)).sum = 32))

/-- The pages of a job hold one encryption mode (R343). -/
def pagesOk (s : State) (j : Nat) : Bool :=
  let ps := (List.range 16).filter (fun p => decide (s.pageJob p = some j))
  ps.all (fun p => decide (s.pageEnc p = s.pageEnc (ps.headD 0)))

/-- The exchange's settings (R282, R416). -/
def fedOk (s : State) (j mask : Nat) : Bool :=
  decide (s.fld DXE_CTRL_enable j = 0) ||
    (decide (1000 ≤ s.fld DXE_ROUND_t_round j) && decide (s.fld DXE_ROUND_t_round j ≤ 86400000) && dxeConfigOk s j mask)

/-- The stack domains named are free and not withdrawn (R312, R352). -/
def domainsFree (s : State) (mask : Nat) : Bool := (setBitsOf mask 4).all (fun q => (s.owner q).isNone && !s.withdrawn q)

/-- What JOB_START answers: its checks in order, with the state after the counts they make. -/
def startCheck (s : State) (a : JobArgs) : State × Nat :=
  let j := a.job.toNat
  let mask := a.mask.toNat
  if 3 < j ∨ mask = 0 ∨ 15 < mask then (s, csArgs)
  else if (s.plat.dev ≠ .ready ∧ s.plat.dev ≠ .run) ∨ (s.job j).running then (s, csState)
  else if !domainsFree s mask ∨ !sliceOk s a ∨ 255 < groupCount (s.ddims j) (quadList a.extent) ∨ !leadsOk s mask ∨ !pagesOk s j then (s, csConfig)
  else
    let rs := s.regions j
    let ue := s.ueIn (s.tableBase j) (tableBytes rs.length)
    if !(s.fixedRanges j).all (fun f => inQuarters mask f.1 f.2) then (s.cfgReject, csConfig)
    else if !ue.isEmpty then (s.count MEM_ECC_COUNT_uncorrectable ue.length, csMemUe)
    else if !regionsOk mask (s.fixedRanges j) rs then (s.cfgReject, csConfig)
    else if !fedOk s j mask then (s, csConfig)
    else (s, csOk)

/-- The contexts of a job's tiles start at their entries. Only tiles that the tables list differ from the one after
reset. -/
def loadEntries (s : State) (j : Nat) : State :=
  let ts := s.tiles.map (·.1) ++ (s.regs.filter (fun r => decide (r.1 % 0x10000 = 0x4010))).map (fun r => r.1 / 0x40000)
  ts.foldl (fun s t =>
    if (s.job j).hasTile t then
      s.modTile t (fun x => [0, 1, 2].foldl (fun (x : Tile) c => x.modCtx c (fun y => { y with next := s.fld TILE_CTX_CTRL_entry (4 * t + c) })) x)
    else s) s

/-- The counters that a job's start zeroes (Tables REG-6, REG-9). -/
def zeroCounts (s : State) (j : Nat) : State :=
  let ts := (s.regs.filter (fun r => decide (r.1 % 0x10000 = 0x4018))).map (fun r => r.1 / 0x10000)
  let s := ts.foldl (fun s t => if (s.job j).hasTile t then s.setFld TILE_OVERRUN_overrun_count 0 t else s) s
  (s.setFld CXE_STATUS_discarded 0 j).setFld CXE_EPOCH_epoch 0 j

/-- A federated job forms its associations: with partners of a higher index, and as its site's lead with the others;
a site that is no member asks to join (R281, R324). -/
def fedStart (s : State) (j : Nat) : State :=
  if !(s.job j).dxe.active then s
  else
    let s := partnerShakes s j
    let s := if s.isLeadDevice j then leadShakes s j else s
    let ms := (s.job j).dxe.members
    if ms.contains s.site then s else match ms with
      | m :: _ => askJoin s j m
      | [] => s

/-- A job starts with the settings its registers hold (R312). -/
def startJob (s : State) (a : JobArgs) : State :=
  let j := a.job.toNat
  let s := s.setJob j { Job.reset with
    mask := a.mask.setWidth 4, tag := a.tag, origin := a.origin, extent := a.extent, fedJob := a.fedJob, running := true, phase := .opened,
    att := { Attempt.reset with rejoinDue := decide (s.fld STEP_CTRL_rejoin j = 1) } }
  let s := s.modRouter (fun r => { r with
    xfers := r.xfers.filter (fun x => decide (x.job ≠ j)), seqs := r.seqs.filter (fun x => decide (x.1 ≠ j)),
    streams := r.streams.filter (fun x => decide (x.job ≠ j)) })
  let s := glogLoad (dxeStart (loadEntries (zeroCounts s j) j) j) j
  fedStart (if s.plat.dev = .ready then s.enter .run else s) j

/-- JOB_START. -/
def ctrlStart (s : State) (a : JobArgs) : State × Resp :=
  let r := startCheck s a
  (if r.2 = csOk then startJob r.1 a else r.1, reply r.2)

/-! ## JOB_STOP and DRAIN (R147, Table STP-2) -/

/-- JOB_STOP acts on a running job. At once: an attempt under way aborts with HOST, one whose vote has carried commits
first, and without one the job stops here. After the next commit: the job is marked. -/
def stopRunning (s : State) (j : Nat) (mode : Nat) : State :=
  if mode = 1 then s.modAtt j (fun a => { a with stopCommit := true })
  else
    let mark := s.modAtt j (fun a => { a with stopNext := true })
    match (s.job j).phase with
    | .opened => if (s.job j).att.started then abortByHost mark j else stopJob s j
    | .voting => abortByHost mark j
    | .committing | .aborting => mark
    | .repairing | .stopped => stopJob s j

/-- DRAIN: no new steps start; jobs between attempts are STOPPED, and without a running job the device is READY
(Table ARC-6, Table BOT-6). -/
def ctrlDrain (s : State) : State × Resp :=
  match s.plat.dev with
  | .ready | .run =>
    let s := s.enter .drain
    let s := s.runningJobs.foldl (fun s j => if (s.job j).phase = .opened ∧ !(s.job j).att.started then stopJob s j else s) s
    (if s.plat.dev = .drain ∧ s.runningJobs.isEmpty then s.enter .ready else s, reply csOk)
  | .drain => (s, reply csOk)
  | _ => (s, reply csState)

/-! ## BULK_EXPORT, BULK_IMPORT, SUBSCRIBE (R313 to R317, R331, R340) -/

/-- A BULK request: refused while the bulk pair is fenced, and when the page is not bound to the job whose stack domains
hold the range; else a transfer begins, and its id is the result. -/
def ctrlBulk (s : State) (id : BitVec 32) (inbound : Bool) (addr len : Nat) (udp : BitVec 16) (page : Nat) : State × Resp :=
  if s.fencedPair pairBulk then (s, reply csState)
  else if len = 0 then (s, reply csArgs)
  else match placeOf addr len with
    | .none | .regs | .queue => (s, reply csAddr)
    | _ =>
      if !s.pageHolds page addr len then (s, reply csArgs)
      else
        let n := s.host.bulkNext
        let b : Bulk :=
          { id := n, inbound := inbound, session := id, page := page, addr := addr, len := len, udp := udp, doneSegs := [], pieces := [], host := true,
            unacked := [], body := [], peer := 0xFFFFFFFF, req := none }
        let s := openBulk s b
        (if inbound then s else bulkFill s n, { status := 0, data := toBE 8 n })

/-- The notice codes that R317 gives. -/
def noticeCodes : Nat := 0x87FE

/-- SUBSCRIBE: a reserved code is a reserved argument. -/
def ctrlSubscribe (s : State) (slot : Nat) (x : Session) (mask : BitVec 32) : State × Resp :=
  if mask.toNat &&& noticeCodes = mask.toNat then (s.setSession slot { x with mask := mask }, reply csOk) else (s, reply csArgs)

/-! ## The order of requests (R310) -/

/-- The op of a request (Table HST-4). -/
def ctrlOp : Instr → Nat
  | .ctrlNop _ op _ => op.toNat
  | .read _ _ _ => 0x02
  | .write _ _ _ => 0x03
  | .jobStart _ _ => 0x10
  | .jobStop _ _ _ => 0x11
  | .bulkExport _ _ _ _ _ => 0x20
  | .bulkImport _ _ _ _ => 0x21
  | .subscribe _ _ => 0x30
  | .drain _ => 0x40
  | .reset _ => 0x41
  | .close _ => 0x42
  | _ => 0

/-- The requests that a device state lets through (R311, R386, R399). -/
def permitted (s : State) (op : Nat) : Bool :=
  match s.plat.dev with
  | .ready | .run | .drain => true
  | .train => [0x01, 0x02, 0x30, 0x42].contains op
  | .fault => [0x02, 0x41].contains op
  | .postMortem => [0x01, 0x02, 0x41, 0x42].contains op
  | _ => false

/-- CTRL RESET: the response has left and the entry is written; the reset follows (R363, R367, R399). -/
def ctrlReset (s : State) (id : BitVec 32) : State := fullReset (logEntry s 0xFF 2 0x0E 6 0 2 id.toNat false) 2

/-- One request of a session is executed and answered; a JOB_STOP is answered when its job is STOPPED. -/
def perform (s : State) (slot : Nat) (x : Session) (n : Nat) (i : Instr) : State :=
  let op := ctrlOp i
  let answer (r : State × Resp) : State := finishReq r.1 slot n op r.2
  if !permitted s op then answer (s, reply csState)
  else match i with
    | .ctrlNop _ _ rsv => answer (s, reply (if op = 1 ∧ rsv = 0 then csOk else csArgs))
    | .read _ a len => answer (ctrlRead s slot a.toNat len.toNat)
    | .write _ a bs => answer (ctrlWrite s slot a.toNat bs)
    | .jobStart _ a => answer (ctrlStart s a)
    | .jobStop _ job mode =>
      if 3 < job.toNat ∨ 1 < mode.toNat then answer (s, reply csArgs)
      else if !(s.job job.toNat).running then answer (s, reply csOk)
      else stopRunning ((s.setSession slot { x with busy := some n }).modHost (fun h => { h with
        pendingStop := h.pendingStop ++ [(x.id, n, job.toNat)] })) job.toNat mode.toNat
    | .bulkExport _ a len udp page => answer (ctrlBulk s x.id false a.toNat len.toNat udp page.toNat)
    | .bulkImport _ a len page => answer (ctrlBulk s x.id true a.toNat len.toNat 0 page.toNat)
    | .subscribe _ mask => answer (ctrlSubscribe s slot x mask)
    | .drain _ => answer (ctrlDrain s)
    | .reset _ => ctrlReset (answer (s, reply csOk)) x.id
    | .close _ => closeSession (answer (s, reply csOk)) slot
    | _ => answer (s, reply csArgs)

/-- CTRL execution waits in the pause of a handover (R373); the monitor answers in FAULT. -/
def State.ctrlWaits (s : State) : Bool := s.svc.paused && decide (s.plat.dev ≠ .fault)

/-- The held requests of a session that are next in order run, each once the one before it is complete (R310). -/
def runHeld (s : State) (slot : Nat) : Nat → State
  | 0 => s
  | fuel + 1 =>
    match assoc s.host.sessions slot with
    | none => s
    | some x =>
      if x.busy.isSome || s.ctrlWaits then s
      else match assoc x.held (x.last + 1) with
        | none => s
        | some i =>
          let n := x.last + 1
          let x := { x with held := x.held.filter (fun h => decide (h.1 ≠ n)) }
          runHeld (perform (s.setSession slot x) slot x n i) slot fuel

/-- The held requests of every session. -/
def runAllHeld (s : State) : State := (List.range 8).foldl (fun s k => runHeld s k 17) s

/-- A request of an open session, in its order (R310): one executed already is answered from the responses kept, one within sixteen
of the last executed is held and runs in its turn, and any other is discarded. -/
def takeRequest (s : State) (slot : Nat) (x : Session) (q : Req) (i : Instr) : State :=
  let n := q.msg.toNat
  if n ≤ x.last then
    match x.kept.find? (fun k => decide (k.1 = n)) with
    | some k => s.sendTo slot (.response x.id q.msg k.2.1 k.2.2)
    | none => s
  else if x.last + 16 < n ∨ x.busy = some n ∨ (assoc x.held n).isSome then s
  else runHeld (s.setSession slot { x with held := x.held ++ [(n, i)] }) slot 17

/-- The session of a request is open. -/
def openFor (s : State) (q : Req) : Bool := (assoc s.host.sessions (q.session.toNat % 8)).any (fun x => decide (x.id = q.session))

/-- A CTRL request arrives: it is admitted under the keys of its session, which answers from now on where it came from (R306, R309,
R344). -/
def takeCtrl (s : State) (q : Req) (i : Instr) : State :=
  let slot := q.session.toNat % 8
  let r := admitHost s q.head slot pairRx 1 (decide (q.head.page = 0xFF) && openFor s q)
  if !r.2 then r.1
  else match assoc r.1.host.sessions slot with
    | none => r.1
    | some x => takeRequest (r.1.setSession slot { x with path := q.path }) slot { x with path := q.path } q i

/-- CTRL_NOP, or a request whose op Table HST-4 does not give (R311). -/
def execCtrlNop (r : Req) (s : State) (op : BitVec 16 := 0) (rsv : BitVec 16 := 0) : Res := .next (takeCtrl s r (.ctrlNop r op rsv))
/-- READ (R311). -/
def execRead (r : Req) (addr : BitVec 64) (len : BitVec 32) (s : State) : Res := .next (takeCtrl s r (.read r addr len))
/-- WRITE (R311). -/
def execWrite (r : Req) (addr : BitVec 64) (data : Bytes) (s : State) : Res := .next (takeCtrl s r (.write r addr data))
/-- JOB_START (R312). -/
def execJobStart (r : Req) (a : JobArgs) (s : State) : Res := .next (takeCtrl s r (.jobStart r a))
/-- JOB_STOP (R311). -/
def execJobStop (r : Req) (job mode : BitVec 8) (s : State) : Res := .next (takeCtrl s r (.jobStop r job mode))
/-- BULK_EXPORT (R314). -/
def execBulkExport (r : Req) (addr len : BitVec 64) (udp : BitVec 16) (page : BitVec 8) (s : State) : Res :=
  .next (takeCtrl s r (.bulkExport r addr len udp page))
/-- BULK_IMPORT (R315). -/
def execBulkImport (r : Req) (addr len : BitVec 64) (page : BitVec 8) (s : State) : Res := .next (takeCtrl s r (.bulkImport r addr len page))
/-- SUBSCRIBE (R317). -/
def execSubscribe (r : Req) (mask : BitVec 32) (s : State) : Res := .next (takeCtrl s r (.subscribe r mask))
/-- DRAIN (R311). -/
def execDrain (r : Req) (s : State) : Res := .next (takeCtrl s r (.drain r))
/-- RESET (R363). -/
def execReset (r : Req) (s : State) : Res := .next (takeCtrl s r (.reset r))
/-- CLOSE (R309). -/
def execClose (r : Req) (s : State) : Res := .next (takeCtrl s r (.close r))

/-! ## The frame tick (R17, Table ARC-2) -/

/-- The states in which ticks fall. -/
def State.ticks (s : State) : Bool :=
  s.clock.ticking && (match s.plat.dev with
    | .train | .ready | .run | .drain => true
    | _ => false)

/-- FRAME_TICK (R17). Requests held behind one that has completed since run too (DEDUCED, log entry 33). -/
def execFrameTick (s : State) : Res := .next (if s.ticks then runAllHeld (tickActions s) else s)

/-! ## The end of a handover's pause (R373, R374) -/

/-- The state of an outcome. -/
def after (r : Res) (s : State) : State :=
  match r with
  | .next t => t
  | _ => s

/-- A message or deadline that waited for the new firmware is taken. -/
def takeWaiting (s : State) (i : Instr) : State :=
  match i with
  | .manifestDeadline j => after (execManifestDeadline j s) s
  | .init b => after (execInit b s) s
  | .fin b => after (execFin b s) s
  | .resp b => after (execResp b s) s
  | .manifest u m => after (execManifest u m s) s
  | .countersign u c => after (execCountersign u c s) s
  | .receipt u r => after (execReceipt u r s) s
  | .join u b => after (execJoin u b s) s
  | _ => s

/-- A latched fault is contained. -/
def containLatched (s : State) (x : Latched) : State :=
  if x.cls = 2 then deviceContain s x.jobs x.source x.cause x.loc0 x.loc1 x.inj
  else x.jobs.foldl (fun s j => jobFault s j x.loc1 x.inj) s

/-- Firmware resumes every duty: latched faults first, then what waited, then held requests. -/
def resume (s : State) : State :=
  let v := s.svc
  let s := s.modSvc (fun v => { v with paused := false, handover := none, latched := [], waiting := [] })
  runAllHeld (v.waiting.foldl takeWaiting (v.latched.foldl containLatched s))

/-- FW_CONFIRM: the new firmware confirms: it is the running slot and the boot slot for the next reset (R373). -/
def execFwConfirm (s : State) : Res :=
  s.whenClocked <|
  match s.svc.handover with
  | some (some slot) =>
    let s := s.modFlash (fun f => { f with bootSlot := decide (slot = 1), bootSeq := f.bootSeq + 1 })
    .next (resume (opEnd (s.modPlat (fun p => { p with handoverFailed := false })) 2))
  | _ => .next s

/-- HANDOVER_CONFIRM_TIMEOUT: the monitor restarts the previous image, and the handover has failed (R374). -/
def execHandoverConfirmTimeout (s : State) : Res :=
  s.whenClocked <|
  match s.svc.handover with
  | some (some slot) =>
    let s := startImage s (decide (slot ≠ 1))
    .next (resume (opEnd (s.modPlat (fun p => { p with handoverFailed := true })) 3))
  | _ => .next s

end Sys2Proof.Machine
end

