-- ==== Sys2Proof/Machine/LoadStore.lean ====
section
/-! DEFINITION. Loads and stores between the scratchpad and the registers of a tile (R119, R122, R123,
R129): the checks and captures at issue, and the effect at completion. -/
namespace Sys2Proof.Machine

/-- Put a load or store in flight. -/
def State.putLs (s : State) (i : At) (kind : LsKind) (holds : Nat × Nat) (tensors : List Tensor)
    (lossNf gradNf : Bool) : State :=
  let x := s.tile i.tile
  let op := x.takeOp
  s.setTile i.tile { op.2 with
    ls := x.ls ++ [{ op := op.1, ctx := i.ctx, kind := kind, granted := 0, buf := [], holds := holds, tensors := tensors,
                     lossNf := lossNf, gradNf := gradNf }] }

/-- The register and the byte count of LD, ST and LDT. -/
def lsReg (f : LayR) : Nat := auxBits f 0 5
def lsLen (f : LayR) : Nat := auxBits f 12 25 + 1

/-- The used bits of aux of LD, ST and LDT. -/
def lsAux : Nat := 0x3FFF03F

/-- LD copies bytes from the scratchpad to the register file (R122). -/
def execLd (i : At) (f : LayR) (s : State) : Res :=
  issue (.ld i f) i s (fun s =>
    let a := effAddr (s.sreg i f.fb) f.imm
    if !unusedZero f { b := true, aux := lsAux, imm := immAll } then .reject rejOpcode
    else if s.sregBusy i [f.fb] then .hold
    else if !vrfOk (lsReg f) (lsLen f) || !spadOk a (lsLen f) then .reject rejRange
    else if !s.writable i.tile [(lsReg f, regsOf (lsLen f))] then .hold
    else .go (s.putLs i (.ld a (256 * lsReg f) (lsLen f)) (0, 0) [] false false))

/-- ST copies bytes from the register file to the scratchpad (R122). -/
def execSt (i : At) (f : LayR) (s : State) : Res :=
  issue (.st i f) i s (fun s =>
    let a := effAddr (s.sreg i f.fb) f.imm
    if !unusedZero f { b := true, aux := lsAux, imm := immAll } then .reject rejOpcode
    else if s.sregBusy i [f.fb] then .hold
    else if !vrfOk (lsReg f) (lsLen f) || !spadOk a (lsLen f) then .reject rejRange
    else if !s.readable i.tile [(lsReg f, regsOf (lsLen f))] then .hold
    else .go (s.putLs i (.st a ((s.tile i.tile).vbytes (256 * lsReg f) (lsLen f)) (8 * lsLen f)) (0, 0) [] false
      false))

/-- The address of source row r of an LDT (R122). -/
def ldtRow (a : Nat) (pitch : Word) (r : Nat) : Nat := (a + r * pitch.toNat) % 2 ^ 64

/-- LDT loads 16 rows of n 16-bit elements and writes their transpose (R122). -/
def execLdt (i : At) (f : LayR) (s : State) : Res :=
  issue (.ldt i f) i s (fun s =>
    let a := effAddr (s.sreg i f.fb) f.imm
    let pitch := s.sreg i f.fc
    let n := lsLen f / 32
    if !unusedZero f { b := true, c := true, aux := lsAux, imm := immAll } then .reject rejOpcode
    else if s.sregBusy i [f.fb, f.fc] then .hold
    else if lsLen f % 512 ≠ 0 || !vrfOk (lsReg f) (lsLen f) ||
        (List.range 16).any (fun r => !spadOk (ldtRow a pitch r) (2 * n)) then .reject rejRange
    else if !s.writable i.tile [(lsReg f, regsOf (lsLen f))] then .hold
    else .go (s.putLs i (.ldt a pitch (256 * lsReg f) n) (0, 0) [] false false))

/-- What an STC computes of its elements: codes and counts, and whether a non-finite value was read or
written (R123). -/
def stcConvert (seed step : Nat) (update : Bool) (dstFmt tag : Nat) (perTensor : Bool)
    (lr tid e0 g scale : Nat) (raws : List Nat) : List CvtOne :=
  (raws.zipIdx).map (fun p =>
    cvtOne dstFmt (if perTensor then .tensor else .none) scale
      (convRounding update tag seed step tid (logicalIndex e0 g lr p.2)) (w48 p.1))

/-- STC converts W48 accumulators and stores them packed (R123). -/
def execStc (i : At) (f : LayR) (s : State) : Res :=
  issue (.stc i f) i s (fun s =>
    let v := auxBits f 0 5
    let dstFmt := auxBits f 8 11
    let tag := auxBits f 12 13
    let n := auxBits f 14 25 + 1
    let imm := f.imm.toNat
    let perTensor := imm.testBit 36
    let a := effAddr (s.sreg i f.fb) (BitVec.signExtend 64 (f.imm.extractLsb' 0 32))
    let w := fmtBits dstFmt
    let len := (n * w + 7) / 8
    let u : Uses := { b := true, c := true, d := true, e := true, f := perTensor, aux := 0x3FFFF3F, imm := 0x1FFFFFFFFF }
    if !unusedZero f u then .reject rejOpcode
    else if tag = 3 then .reject rejOpcode
    else if 9 ≤ dstFmt || (perTensor && !scalingOk dstFmt .tensor) then .reject rejFormat
    else if s.sregBusy i [f.fb, f.fc, f.fd, f.fe, f.ff] then .hold
    else if !vrfOk v (8 * n) || !spadOk a len then .reject rejRange
    else if !s.readable i.tile [(v, regsOf (8 * n))] then .hold
    else
      let j := (s.jobOfTile i.tile).getD 0
      let tid := (s.sreg i f.fc).toNat % 2 ^ 32
      let raws := (List.range n).map (fun q => vrfElem (s.tile i.tile).vrf (256 * v) 64 q)
      let out := stcConvert (s.fld NUM_SEED_seed j) (s.step j) (s.fld NUM_CTRL_rounding j = 1) dstFmt tag perTensor
        (2 ^ bits imm 32 35) tid (s.sreg i f.fd).toNat (s.sreg i f.fe).toNat ((s.sreg i f.ff).toNat % 256) raws
      let bad := out.any (fun c => c.conv.nonFinite || !(decodeFmt dstFmt false c.conv.code).isFin)
      let t := { cvtCounts (BitVec.ofNat 32 tid) (out.map some) with scaled := perTensor }
      .go (s.putLs i (.st a (packStream w (out.map (·.conv.code)) 0) (n * w)) (v, regsOf (8 * n)) [t]
        (bad && decide (tid = s.fld STEP_CTRL_loss_tid j)) (bad && decide (tag = 1))))

/-- LDS loads a scalar of 1, 2, 4 or 8 bytes, zero- or sign-extended (Table PRG-4). -/
def execLds (i : At) (f : LayR) (s : State) : Res :=
  issue (.lds i f) i s (fun s =>
    let a := effAddr (s.sreg i f.fb) f.imm
    let n := 2 ^ auxBits f 0 1
    if !unusedZero f { a := true, b := true, aux := 7, imm := immAll } then .reject rejOpcode
    else if s.sregBusy i [f.fa, f.fb] then .hold
    else if !spadOk a n then .reject rejRange
    else .go (s.putLs i (.lds a n (f.aux.getLsbD 2) f.fa.toNat) (0, 0) [] false false))

/-- STS stores the low bytes of a scalar (Table PRG-4). -/
def execSts (i : At) (f : LayR) (s : State) : Res :=
  issue (.sts i f) i s (fun s =>
    let a := effAddr (s.sreg i f.fb) f.imm
    let n := 2 ^ auxBits f 0 1
    if !unusedZero f { b := true, c := true, aux := 3, imm := immAll } then .reject rejOpcode
    else if s.sregBusy i [f.fb, f.fc] then .hold
    else if !spadOk a n then .reject rejRange
    else .go (s.putLs i (.st a (toLE n (s.sreg i f.fc).toNat) (8 * n)) (0, 0) [] false false))

/-! ## Completion -/

/-- The transpose of 16 rows of n elements of 16 bits: n rows of 32 bytes (R122). -/
def transpose (rows : List Bytes) (n : Nat) : Bytes :=
  (List.range n).flatMap (fun e => rows.flatMap (fun r => (r.drop (2 * e)).take 2))

/-- The scratchpad accesses of a load or store, each within one line (R48). -/
def LsKind.accesses : LsKind → List (Nat × Nat)
  | .ld a _ n => linePieces a n
  | .ldt a pitch _ n => (List.range 16).flatMap (fun r => linePieces (ldtRow a pitch r) (2 * n))
  | .st a _ nbits => linePieces a ((nbits + 7) / 8)
  | .lds a n _ _ => linePieces a n
  | .vdl a _ => linePieces a 32

/-- The bytes that a store writes: in a last byte that it does not fill, the other bits are those that stand there
(R82, R123). -/
def storeBytes (spad : Sparse Byte) (a : Nat) (data : Bytes) (nbits : Nat) : Bytes :=
  let r := nbits % 8
  let old := (rd spad (a + nbits / 8)).toNat
  if r = 0 then data
  else data.dropLast ++ [BitVec.ofNat 8 ((data.getLastD 0).toNat % 2 ^ r + old / 2 ^ r * 2 ^ r)]

/-- An access is granted: a store writes its bytes of the line, any other reads them (R48, R52). -/
def grantAccess (y : LsOp × Tile) (p : Nat × Nat) : LsOp × Tile :=
  match y.1.kind with
  | .st a data nbits =>
    ({ y.1 with granted := y.1.granted + 1 },
     { y.2 with spad := wrN y.2.spad p.1 (((storeBytes y.2.spad a data nbits).drop (p.1 - a)).take p.2) })
  | _ => ({ y.1 with granted := y.1.granted + 1, buf := y.1.buf ++ rdN y.2.spad p.1 p.2 }, y.2)

/-- The effect of a load at its completion, from the bytes it has read. -/
def LsOp.finish (l : LsOp) (x : Tile) : Tile :=
  match l.kind with
  | .ld _ base _ => { x with vrf := wrN x.vrf base l.buf }
  | .ldt _ _ base n => { x with vrf := wrN x.vrf base (transpose (pieces (2 * n) 16 l.buf) n) }
  | .st _ _ _ => x
  | .lds _ n sgn sd =>
    let v := leNat l.buf
    let w := if sgn then unsigned 64 (signed (8 * n) v) else v
    x.modCtx l.ctx (fun y => y.setSreg sd (BitVec.ofNat 64 w))
  | .vdl _ slot => { x with descs := store x.descs slot (BitVec.ofNat 256 (leNat l.buf)) 0 }

/-- The next accesses of a load or store are granted: the load or store as it then stands, and the tile. -/
def LsOp.grant (l : LsOp) (g : Nat) (x : Tile) : LsOp × Tile :=
  ((l.kind.accesses.drop l.granted).take g).foldl grantAccess (l, x)

/-- LOAD_STORE_COMPLETE: by now that many further accesses of a load or store in flight have been granted; once all
have been, it completes and releases its registers (R48, R52, R129, DESIGN CHOICE, log entry 10). -/
def execLoadStoreComplete (t : Fin 1024) (n : Nat) (s : State) (g : Nat := 1) : Res :=
  match (s.tile t).ls[n]? with
  | none => .next s
  | some l =>
    let y := l.grant g (s.tile t)
    if y.1.granted < l.kind.accesses.length then
      s.whenRuns (.next (s.setTile t { y.2 with ls := modFirst (fun z => decide (z.op = l.op)) (fun _ => y.1) y.2.ls }))
    else
      let s1 := s.setTile t (y.1.finish { y.2 with ls := y.2.ls.filter (fun z => z.op ≠ l.op) })
      let r : Result := ⟨[], [], l.tensors, 0, l.lossNf, l.gradNf, []⟩
      s.whenRuns (.next ((s1.takeResult t r).settle t))

end Sys2Proof.Machine
end

