-- ==== Sys2Proof/Machine/Lookup.lean ====
section
/-! DEFINITION. The sparse lookup engine (R104 to R106). -/
namespace Sys2Proof.Machine

/-- A lookup request descriptor (Table VEC-9). -/
structure Lookup where
  table : Nat
  rows : Nat
  rowBytes : Nat
  fmt : Nat
  pool : Nat
  weighted : Bool
  index : Nat
  offset : Nat
  bags : Nat
  count : Nat
  weight : Nat
  out : Nat
  outFmt : Nat
  tag : BitVec 32
  ok : Bool
  deriving DecidableEq, Repr

/-- A descriptor from its 64 bytes; `ok` when it names no reserved value and a row size that the rule
permits. -/
def lookupOf (b : Bytes) : Lookup :=
  let p := dfield b 15 1
  let fmt := dfield b 14 1
  let outFmt := dfield b 56 1
  let n := dfield b 12 2
  { table := dfield b 0 8, rows := dfield b 8 4, rowBytes := n, fmt := fmt, pool := p % 4, weighted := p.testBit 7,
    index := dfield b 16 8, offset := dfield b 24 8, bags := dfield b 32 4, count := dfield b 36 4, weight := dfield b 40 8,
    out := dfield b 48 8, outFmt := outFmt, tag := BitVec.ofNat 32 (dfield b 60 4),
    ok := decide (bits p 2 6 = 0) && [3, 6, 7, 8].contains fmt && [6, 7, 8].contains outFmt && decide (dfield b 57 1 < 16) &&
      decide (dfield b 58 2 = 0) && decide (64 ≤ n) && decide (n ≤ 4096) && decide (n % 64 = 0) }

/-- Elements of a row. -/
def Lookup.elems (d : Lookup) : Nat := d.rowBytes * 8 / fmtBits d.fmt

/-- The lists of a request lie in the job's memory. -/
def Lookup.inJob (d : Lookup) (mask : Nat) : Bool :=
  (decide (d.count = 0) || Machine.inJob mask d.index (8 * d.count)) &&
    (decide (d.pool = 0) || Machine.inJob mask d.offset (4 * (d.bags + 1))) &&
    (!d.weighted || decide (d.count = 0) || Machine.inJob mask d.weight (4 * d.count))

/-- One element of a bag: its terms in index-list order as pairs of a weight (none when unweighted) and a
value (R105). -/
def poolElem (pool : Nat) (terms : List (Option Nat × XVal)) : XVal :=
  let sum := terms.foldl (fun a t => match t.1 with
    | none => add32 a (fmtFP32.rne t.2)
    | some w => fma32 w (fmtFP32.rne t.2) a) 0
  match terms with
  | [] => .zero
  | t :: r =>
    if pool = 3 then (r.map (·.2)).foldl (pickX true) t.2
    else if pool = 2 then fp32 (fmtFP32.rne (divX (fp32 sum) (.ofNat terms.length) 24))
    else if pool = 1 then fp32 sum
    else t.2

/-- The index positions of each output row: one bag each, or one position each without pooling. -/
def Lookup.groups (d : Lookup) (offsets : List Nat) : List (List Nat) :=
  if d.pool = 0 then (List.range d.count).map (fun p => [p])
  else (List.range d.bags).map (fun b =>
    let lo := offsets.getD b 0
    let hi := min (offsets.getD (b + 1) 0) d.count
    (List.range (hi - lo)).map (lo + ·))

/-- One output row in the output format (R105). -/
def Lookup.outRow (d : Lookup) (terms : List (Option Nat × List XVal)) : Bytes :=
  (List.range d.elems).flatMap (fun i =>
    let v := poolElem d.pool (terms.map (fun t => (if d.pool = 1 ∨ d.pool = 2 then t.1 else none, t.2.getD i .zero)))
    toLE (floatBytes d.outFmt) (convert d.outFmt .none 0 .rne v).code)

/-- A row that the request names has entries of the gradient log that are due and not written back (R185). -/
def lookupWaits (s : State) (j : Nat) (d : Lookup) (rows : List Nat) : Bool :=
  s.glogOn j && (s.job j).glog.any (fun e => s.due j e && rows.contains e.row.toNat &&
    decide ((logTable (s.logTableBytes e.table)).state = d.table))

/-- LOOKUP_REQUEST: a request is taken from its queue, its rows are gathered and pooled (R104 to R106). `rows`
holds the rows that lie in other memory, one for each index below row_count in list order; rows in local
DRAM are read there. The indices of the list are the row numbers: what a job's lookup program does to an index first, the spec
does not say (DESIGN CHOICE, log entry 114). -/
def execLookupRequest (q : Fin 4) (rows : List Bytes) (s : State) : Res :=
  s.whenRuns <|
  if s.halted (blkLookup + q.val) then .next s else
  match s.owner q, (s.dom q).lookupQ with
  | some j, who :: rest =>
    let d := lookupOf who.bytes
    let pop (s : State) : State := s.modDom q (fun x => { x with lookupQ := rest })
    if !d.ok ∨ !d.inJob (s.job j).mask.toNat then
      .next ((pop s).modDom q (fun x => { x with lookups := x.lookups ++ [⟨who, d.tag, 1, d.out, []⟩] }))
    else
      let idx := s.readAt d.index (8 * d.count)
      let offs := if d.pool = 0 then ([], []) else s.readAt d.offset (4 * (d.bags + 1))
      let wts := if d.weighted then s.readAt d.weight (4 * d.count) else ([], [])
      let ids := (pieces 8 (d.count + 1) idx.1).map leNat
      let live := (ids.zipIdx).filter (fun p => decide (p.1 < d.rows))
      if lookupWaits s j d (live.map (·.1)) then .next s
      else
        let local' := s.ownAddr d.table
        let got := (live.zipIdx).map (fun p =>
          if local' then s.readAt (gLocal d.table + p.1.1 * d.rowBytes) d.rowBytes
          else ((rows.getD p.2 []).take d.rowBytes, []))
        let bad := (idx.2 ++ offs.2 ++ wts.2 ++ got.flatMap (·.2)).eraseDups
        let vals (b : Bytes) : List XVal := (pieces (fmtBits d.fmt / 8) (b.length + 1) b).map (fun c => decodeFmt d.fmt false (leNat c))
        let table := (live.zip got).map (fun p => (p.1.2, vals p.2.1))
        let weights := (pieces 4 (d.count + 1) wts.1).map leNat
        let term (p : Nat) : Option (Option Nat × List XVal) :=
          (assoc table p).map (fun v => (if d.weighted then some (weights.getD p 0) else none, v))
        let out := (d.groups ((pieces 4 (d.bags + 2) offs.1).map leNat)).flatMap (fun g => d.outRow (g.filterMap term))
        let oob (p : Nat) : Exc := { kind := excLookup, frame := d.tag.toNat, tile := 0, index := 0, row := p, array := 0, column := 0 }
        let s := (pop s).modLed j (fun l => ((ids.zipIdx).filter (fun p => !decide (p.1 < d.rows))).foldl (fun l p => l.note (oob p.2)) l)
        let s := s.modDom q (fun x => { x with
          lookups := x.lookups ++ [⟨who, d.tag, if bad.isEmpty then 0 else stMemUe, d.out, out⟩] })
        .next (memUe s j bad)
  | _, _ => .next s

/-- LOOKUP_DONE: the output rows of a gathered request become visible and the tile is told (R104, R139). -/
def execLookupDone (q : Fin 4) (n : Nat) (s : State) : Res :=
  s.whenRuns <|
  if s.halted (blkLookup + q.val) then .next s else
  match s.owner q, (s.dom q).lookups[n]? with
  | some j, some g =>
    let s := s.modDom q (fun x => { x with lookups := x.lookups.eraseIdx n })
    if g.rows.isEmpty then .next (requestDone s g.who g.tag (if g.status = 1 then stJob else g.status))
    else
      let w := s.writeAt j g.out g.rows
      let st := if !inJob (s.job j).mask.toNat g.out g.rows.length then (s, stAddr, []) else w
      .next (requestDone (memUe st.1 j st.2.2) g.who g.tag (if g.status = 0 then st.2.1 else g.status))
  | _, _ => .next s

end Sys2Proof.Machine
end

