-- ==== Sys2Proof/Machine/Packet.lean ====
section
/-! DEFINITION. Packets at their destination: streams, puts, gets, completions, log entries, and announcements
(R206 to R211, R214, R356, R357). -/
namespace Sys2Proof.Machine

/-! ## The target of a stream (R207, R210, R211) -/

/-- A stream of which nothing has arrived. -/
def Stream.fresh (src : BitVec 12) (j cls : Nat) : Stream :=
  { src := src, job := j, cls := cls, expect := 0, got := [], resent := [], parts := [] }

/-- Whether a stream is that of a packet. -/
def Stream.isOf (x : Stream) (src : BitVec 12) (j cls : Nat) : Bool := decide (x.src = src) && decide (x.job = j) && decide (x.cls = cls)

/-- The state of a packet's stream. -/
def State.stream (s : State) (src : BitVec 12) (j cls : Nat) : Stream :=
  (s.router.streams.find? (fun x => x.isOf src j cls)).getD (Stream.fresh src j cls)

/-- The state with a stream's record replaced. -/
def State.setStream (s : State) (x : Stream) : State :=
  s.modRouter (fun r => { r with streams := r.streams.filter (fun y => !y.isOf x.src x.job x.cls) ++ [x] })

/-- A packet is the last that its transfer sends. -/
def lastPacket (k : Packet) : Bool := decide (k.pktIndex.toNat + 1 = k.pktCount.toNat)

/-- A COMPLETION answers a packet's transfer. -/
def answer (s : State) (k : Packet) (status : Nat) : State := sendPacket s (completionOf s k status)

/-- The next transfer of a stream is due. -/
def Stream.advance (x : Stream) : Stream :=
  { x with expect := x.expect + 1, got := [], parts := [], resent := x.resent.filter (fun n => decide (n ≠ x.expect + 1)) }

/-- A packet meets its stream: discarded below the expected number or repeated, refused with RESEND once for its
transfer above it, and otherwise taken (R211). A tag bound to no job is answered on the transfer's last packet. -/
def inStream (s : State) (k : Packet) (take : State → Nat → Stream → State) : State :=
  if k.dst.toNat ≠ s.self then s
  else match s.jobOfTag k.jobTag with
    | none => if lastPacket k then answer s k stJob else s
    | some j =>
      let x := s.stream k.src j (pktClass k)
      if k.streamSeq = x.expect then
        if x.got.contains k.pktIndex.toNat then s else take s j { x with got := k.pktIndex.toNat :: x.got }
      else if seqLe k.streamSeq x.expect then s
      else if x.resent.contains k.streamSeq then s
      else answer (s.setStream { x with resent := x.resent ++ [k.streamSeq] }) k stResend

/-! ## Puts (R206, R207) -/

/-- The tile that a notify names lies in the job. -/
def notifyOk (x : Job) (k : Packet) : Bool := !k.flags.getLsbD 5 || x.mask.toNat.testBit (bits k.notify.toNat 5 14 / 256)

/-- A put's notify adds to an event of the remote tile. -/
def applyNotify (s : State) (k : Packet) : State :=
  if k.flags.getLsbD 5 then
    let t := bits k.notify.toNat 5 14
    (s.modTile t (fun x => x.addEvent (bits k.notify.toNat 0 4) 1)).settle t
  else s

/-- The first check of Table FAB-4 that the packets of a put fail, in the table's order. -/
def putCheck (s : State) (j : Nat) (l : List Packet) : Nat :=
  if l.any (fun k => !inJob (s.job j).mask.toNat k.dstAddr.toNat k.payload.length || !notifyOk (s.job j) k) then stAddr
  else if l.any (fun k => decide (placeOf k.dstAddr.toNat k.payload.length = .dram) && s.refuses j k.dstAddr.toNat k.payload.length) then stLive
  else stOk

/-- One packet of the expected put: the packets of a put are held until the last has come, so that a put that fails a check
writes nothing; then they are written, the notify is applied and the put is answered. -/
def takePut (s : State) (k : Packet) (j : Nat) (x : Stream) : State :=
  let x := { x with parts := x.parts ++ [k] }
  if x.got.length = k.pktCount.toNat then
    let st := putCheck s j x.parts
    if st ≠ stOk then answer (s.setStream x.advance) k st
    else
      let r := x.parts.foldl (fun (r : State × List Nat) k =>
        let w := r.1.writeAt j k.dstAddr.toNat k.payload
        (w.1, r.2 ++ w.2.2)) (s, [])
      let s := memUe r.1 j r.2.eraseDups
      let s := if r.2.isEmpty then applyNotify s k else s
      answer (s.setStream x.advance) k (if r.2.isEmpty then stOk else stMemUe)
  else s.setStream x

/-- PUT_PACKET (R206, R207, R211). -/
def execPutPacket (k : Packet) (s : State) : Res := s.whenRuns (.next (inStream s k (fun s j x => takePut s k j x)))

/-! ## Gets -/

/-- The GET_DATA packets that answer a GET_REQ, split at the requester's side. -/
def getPackets (s : State) (k : Packet) (dst : Nat) (data : Bytes) : List Packet :=
  let ps := splitAt4K dst data.length
  ps.zipIdx.map (fun p =>
    { op := 3, flags := pktFlags (pktClass k) false, jobTag := k.jobTag, src := BitVec.ofNat 12 s.self, dst := k.src,
      streamSeq := k.streamSeq, xferId := k.xferId, pktIndex := BitVec.ofNat 16 p.2, pktCount := BitVec.ofNat 16 ps.length, notify := 0,
      dstAddr := BitVec.ofNat 64 (dst + p.1.1), payload := (data.drop p.1.1).take p.1.2 })

/-- A GET_REQ whose turn has come: every earlier transfer of its stream is visible (R206, R207). Uncorrectable lines are
delivered as zeros (Table MEM-4); the COMPLETION that says so leaves before the data, which end the transfer (DEDUCED, log
entry 126). -/
def takeGet (s : State) (k : Packet) (j : Nat) (x : Stream) : State :=
  let n := beNat (k.payload.take 8)
  let dst := beNat ((k.payload.drop 8).take 8)
  let s := s.setStream x.advance
  if !inJob (s.job j).mask.toNat k.dstAddr.toNat n then answer s k stAddr
  else
    let r := s.readAt k.dstAddr.toNat n
    if r.2.isEmpty then answer ((getPackets s k dst r.1).foldl sendPacket s) k stOk
    else (getPackets s k dst r.1).foldl sendPacket (answer (memUe s j r.2) k stMemUe)

/-- GET_REQ (R206). -/
def execGetReq (k : Packet) (s : State) : Res := s.whenRuns (.next (inStream s k (fun s j x => takeGet s k j x)))

/-! ## The source of a transfer (R206, R208) -/

/-- A transfer ends at its source: its event counts, or its append descriptor learns of it (R208, R209). -/
def finishXfer (s : State) (x : Xfer) (status : Nat) : State :=
  let s := s.modRouter (fun r => { r with xfers := r.xfers.filter (fun y => decide (y.id ≠ x.id)) })
  if x.log then
    let s := if status = stOk then s.modLed x.job (fun l => { l with glogAppended := satTo 32 (l.glogAppended + 1) }) else s
    appendLanded s x.dom x.tag x.tile (decide (status = stOk))
  else asyncDone s x.tile x.async status

/-- The transfer of this device that a packet answers. -/
def State.xferOf (s : State) (k : Packet) : Option Xfer :=
  s.router.xfers.find? (fun x => decide (BitVec.ofNat 16 x.id = k.xferId) && decide (BitVec.ofNat 32 x.seq = k.streamSeq) && decide (x.cls = pktClass k))

/-- A transfer's record changed. -/
def State.modXfer (s : State) (id : Nat) (f : Xfer → Xfer) : State :=
  s.modRouter (fun r => { r with xfers := modFirst (fun x => decide (x.id = id)) f r.xfers })

/-- GET_DATA: written at the requester's local destination; the last one completes the GET (R206, R207). -/
def execGetData (k : Packet) (s : State) : Res :=
  s.whenRuns <|
  match s.xferOf k with
  | some x =>
    if !x.get ∨ x.got.contains k.pktIndex.toNat ∨ k.src ≠ x.dst then .next s
    else
      let w := s.writeAt x.job k.dstAddr.toNat k.payload
      let s := memUe w.1 x.job w.2.2
      let x := { x with got := k.pktIndex.toNat :: x.got, status := if x.status = stOk then w.2.1 else x.status }
      if x.got.length = k.pktCount.toNat then .next (finishXfer s x x.status) else .next (s.modXfer x.id (fun _ => x))
  | none => .next s

/-- COMPLETION: RESEND and FULL make the transfer wait to be sent again, any other status ends it; a GET that the
target has served ends with its last data (R206 to R208). -/
def execCompletion (k : Packet) (s : State) : Res :=
  s.whenRuns <|
  match s.xferOf k with
  | some x =>
    let st := (k.payload.headD 0).toNat
    if k.src ≠ x.dst ∧ st ≠ stUnreachable then .next s
    else if st = stResend then .next (s.modXfer x.id (fun x => { x with resend := true }))
    else if st = stFull then .next (s.modXfer x.id (fun x => { x with fullWait := true }))
    else if x.get ∧ st = stOk then .next s
    else if x.get ∧ st = stMemUe then .next (s.modXfer x.id (fun x => { x with status := stMemUe }))
    else .next (finishXfer s x (if st = stOk then x.status else st))
  | none => .next s

/-- Every earlier transfer of the stream has completed. -/
def State.firstOfStream (s : State) (x : Xfer) : Bool :=
  (s.router.xfers.takeWhile (fun y => decide (y.id ≠ x.id))).all (fun y => !(decide (y.job = x.job) && decide (y.cls = x.cls)))

/-- A transfer is sent again, its data read again from its source (R211). -/
def resendXfer (s : State) (x : Xfer) : State :=
  if x.log ∨ x.get then sendXfer (s.modXfer x.id (fun x => { x with resend := false, fullWait := false })) x
  else
    let r := s.readAt x.srcAddr.toNat x.len
    let x := { x with data := r.1, resend := false, status := if r.2.isEmpty then stOk else stMemUe }
    sendXfer (memUe (s.modXfer x.id (fun _ => x)) x.job r.2) x

/-- TRANSFER_RESEND (R211). -/
def execTransferResend (id : BitVec 16) (s : State) : Res :=
  s.whenRuns <|
  match s.router.xfers.find? (fun x => decide (x.id = id.toNat)) with
  | some x => if x.resend && s.firstOfStream x then .next (resendXfer s x) else .next s
  | none => .next s

/-- FULL_RESEND_DELAY: 10 µs after FULL; the stream rule of R211 still holds (R208). -/
def execFullResendDelay (id : BitVec 16) (s : State) : Res :=
  s.whenRuns <|
  match s.router.xfers.find? (fun x => decide (x.id = id.toNat)) with
  | some x =>
    if !x.fullWait then .next s
    else if s.firstOfStream x then .next (resendXfer s x)
    else .next (s.modXfer x.id (fun x => { x with fullWait := false, resend := true }))
  | none => .next s

/-- E2E_TIMEOUT: the source raises TIMEOUT (R207). -/
def execE2eTimeout (id : BitVec 16) (s : State) : Res :=
  s.whenRuns <|
  match s.router.xfers.find? (fun x => decide (x.id = id.toNat)) with
  | some x => .next (finishXfer s x stTimeout)
  | none => .next s

/-! ## Log entries (R209) -/

/-- A packet of the expected LOG_ENTRY transfer; the last one writes the entry. A full ring leaves the transfer the
expected one. -/
def takeLog (s : State) (k : Packet) (j : Nat) (x : Stream) : State :=
  let x := { x with parts := x.parts ++ [k] }
  if x.got.length = k.pktCount.toNat then
    let bytes := (List.range k.pktCount.toNat).flatMap (fun i =>
      ((x.parts.find? (fun p => decide (p.pktIndex.toNat = i))).map (·.payload)).getD [])
    let r := logLand s j bytes
    let y := if r.2 = stFull then { x with got := [], parts := [] } else x.advance
    answer (r.1.setStream y) k r.2
  else s.setStream x

/-- LOG_ENTRY (R209). -/
def execLogEntry (k : Packet) (s : State) : Res := s.whenRuns (.next (inStream s k (fun s j x => takeLog s k j x)))

/-! ## Announcements (R214, R356, R357) -/

/-- An announcement of a link is applied when it is later than the latest one applied for its device and port. -/
def takeNews (s : State) (dev port time : Nat) (down : Bool) : State :=
  let mine (n : Nat × Nat × Nat × Bool) : Bool := decide (n.1 = dev) && decide (n.2.1 = port)
  match s.router.news.find? mine with
  | some n => if n.2.2.1 < time then s.modRouter (fun r => { r with news := r.news.filter (fun n => !mine n) ++ [(dev, port, time, down)] }) else s
  | none => s.modRouter (fun r => { r with news := r.news ++ [(dev, port, time, down)] })

/-- LINK_STATE (R214, R356). -/
def execLinkState (tag : BitVec 16) (n : LinkNews) (s : State) : Res :=
  s.whenRuns <|
  match n with
  | .down d p t => .next (takeNews s d.toNat p.toNat t.toNat true)
  | .up d p t => .next (takeNews s d.toNat p.toNat t.toNat false)
  | .withdrawal _ d => match s.jobOfTag tag with
    | some j => .next (loseDev s j d.toNat)
    | none => .next s
  | .other _ => .next s

/-- Every torus link between a device and the rest of a job's slice is down. -/
def State.isolated (s : State) (j dev : Nat) : Bool :=
  let co := coordOf s.dims dev
  ((List.range 8).filter (fun e => decide (1 < s.dims.getD (e / 2) 1) &&
    (s.job j).inSlice s.dims (indexOf s.dims (stepCoord s.dims co e)))).all (fun e => s.linkBroken co e)

/-- ABSENT_HOLD_EXPIRY: every link to a device has stayed down for absent_hold (R357). -/
def execAbsentHoldExpiry (j : Fin 4) (dev : BitVec 12) (s : State) : Res :=
  s.whenRuns <|
  if (s.job j).running ∧ (s.job j).inSlice s.dims dev.toNat ∧ s.isolated j dev.toNat then .next (loseDev s j dev.toNat) else .next s

end Sys2Proof.Machine
end

