-- ==== Sys2Proof/Machine/Rejoin.lean ====
section
/-! DEFINITION. The end of a rejoin copy (R359). -/
namespace Sys2Proof.Machine

/-- The copies of a device of the rejoining group: the region table, live copies, exchange state and log region from the
lowest-numbered contributing group, with the step number, the layout epoch and the write digests (R359). -/
def takeRejoinCopies (s : State) (j : Nat) (step : BitVec 64) (epoch : BitVec 32) (copies : List (BitVec 42 × Bytes))
    (digests : List (BitVec 16 × BitVec 256)) : State :=
  let s := copies.foldl (fun s c => s.setMem c.1.toNat c.2) s
  let s := (s.setFld STEP_NUMBER_step step.toNat j).setFld CXE_EPOCH_epoch epoch.toNat j
  let s := glogLoad (s.setFld STEP_CTRL_rejoin 0 j) j
  let s := if s.fld DXE_CTRL_enable j = 1 then dxeLoad s j true else s
  s.modJob j (fun x => { x with
    attemptNo := 0, dig := { x.dig with kept := digests.foldl (fun m d => store m d.1.toNat d.2 0) [] },
    att := { x.att with rejoinDue := false } })

/-- Every copy of the job is complete: the groups that rejoin contribute again, on every device of the job (R155, R156,
R359). -/
def endRejoin (s : State) (j : Nat) : State :=
  let back (v : Nat) : Bool := (s.job j).rejoining.contains (s.groupOfDev j v)
  dutiesPass s (s.modJob j (fun x => { x with
    excludedGroups := x.excludedGroups.filter (fun g => !x.rejoining.contains g), lostDevs := x.lostDevs.filter (fun v => !back v),
    rejoinAsked := x.rejoinAsked.filter (fun v => !back v), rejoining := [] })) j

/-- REJOIN_COPY_DONE: a device of the rejoining group has its copies; `all` says that every copy of the job is complete, by a
way that no rule gives (R359, DESIGN CHOICE, log entry 123). -/
def execRejoinCopyDone (j : Fin 4) (step : BitVec 64) (epoch : BitVec 32) (copies : List (BitVec 42 × Bytes))
    (s : State) (digests : List (BitVec 16 × BitVec 256) := []) (all : Bool := true) : Res :=
  s.whenRuns <|
  let x := s.job j
  if x.running ∧ x.phase = .repairing ∧ !x.rejoining.isEmpty then
    let s := if x.att.rejoinDue ∧ x.rejoining.contains (s.ownGroup j) then takeRejoinCopies s j step epoch copies digests else s
    .next (if all then endRepair (endRejoin s j) j else s)
  else .next s

end Sys2Proof.Machine
end

