-- ==== Sys2Proof/Machine/Scalar.lean ====
section
/-! DEFINITION. The scalar and control instructions of the tile sequencer (R103, R110, R120). -/
namespace Sys2Proof.Machine

/-- An ALU instruction: sd ← sa op sb, or sa op imm when aux[0] is 1 (Table PRG-4). -/
def alu (i : At) (f : LayR) (op : Word → Word → Word) (s : State) : Issue :=
  let immMode := f.aux.getLsbD 0
  if !unusedZero f { a := true, b := true, c := !immMode, aux := 1, imm := if immMode then immAll else 0 } then
    .reject rejOpcode
  else if s.sregBusy i [f.fa, f.fb, if immMode then 0 else f.fc] then .hold
  else .go (s.putSreg i f.fa (op (s.sreg i f.fb) (if immMode then f.imm else s.sreg i f.fc)))

/-- The shift amount: sb mod 64. -/
def shAmt (b : Word) : Nat := b.toNat % 64

/-- NOP does nothing (R120). -/
def execNop (i : At) (f : LayR) (s : State) : Res :=
  issue (.nop i f) i s (fun s => if unusedZero f {} then .go s else .reject rejOpcode)

/-- ADD (R120). -/
def execAdd (i : At) (f : LayR) (s : State) : Res := issue (.add i f) i s (alu i f (fun a b => a + b))
/-- SUB (R120). -/
def execSub (i : At) (f : LayR) (s : State) : Res := issue (.sub i f) i s (alu i f (fun a b => a - b))
/-- MUL keeps the low 64 bits (R120). -/
def execMul (i : At) (f : LayR) (s : State) : Res := issue (.mul i f) i s (alu i f (fun a b => a * b))
/-- AND (R120). -/
def execAnd (i : At) (f : LayR) (s : State) : Res := issue (.and i f) i s (alu i f (fun a b => a &&& b))
/-- OR (R120). -/
def execOr (i : At) (f : LayR) (s : State) : Res := issue (.or i f) i s (alu i f (fun a b => a ||| b))
/-- XOR (R120). -/
def execXor (i : At) (f : LayR) (s : State) : Res := issue (.xor i f) i s (alu i f (fun a b => a ^^^ b))
/-- SHL (R120). -/
def execShl (i : At) (f : LayR) (s : State) : Res := issue (.shl i f) i s (alu i f (fun a b => a <<< shAmt b))
/-- SHR shifts logically (R120). -/
def execShr (i : At) (f : LayR) (s : State) : Res := issue (.shr i f) i s (alu i f (fun a b => a >>> shAmt b))
/-- SRA shifts arithmetically (R120). -/
def execSra (i : At) (f : LayR) (s : State) : Res := issue (.sra i f) i s (alu i f (fun a b => a.sshiftRight (shAmt b)))
/-- SLT compares signed (R120). -/
def execSlt (i : At) (f : LayR) (s : State) : Res := issue (.slt i f) i s (alu i f (fun a b => if a.slt b then 1 else 0))
/-- SLTU compares unsigned (R120). -/
def execSltu (i : At) (f : LayR) (s : State) : Res := issue (.sltu i f) i s (alu i f (fun a b => if a.ult b then 1 else 0))

/-- What RDINFO's selectors read: logical tile, context, step, frame number (R112), job, stack
domain. -/
def info (s : State) (i : At) (sel : Nat) : Option Nat :=
  let j := (s.jobOfTile i.tile).getD 0
  if sel = 0 then some i.tile
  else if sel = 1 then some i.ctx
  else if sel = 2 then some (s.step j)
  else if sel = 3 then some ((s.tile i.tile).frame - 1)
  else if sel = 4 then some j
  else if sel = 5 then some (i.tile / 256)
  else none

/-- RDINFO: a reserved selector is a reserved subfield value (Table PRG-7). -/
def execRdinfo (i : At) (f : LayR) (s : State) : Res :=
  issue (.rdinfo i f) i s (fun s =>
    if !unusedZero f { a := true, imm := immAll } then .reject rejOpcode
    else match info s i f.imm.toNat with
      | none => .reject rejOpcode
      | some v => if s.sregBusy i [f.fa] then .hold else .go (s.putSreg i f.fa (BitVec.ofNat 64 v)))

/-- PSET: a write to p0 is ignored (R95). -/
def execPset (i : At) (f : LayR) (s : State) : Res :=
  issue (.pset i f) i s (fun s =>
    if !unusedZero f { b := true, aux := 7 } then .reject rejOpcode
    else if s.sregBusy i [f.fb] || s.predBusy i.tile (auxBits f 0 2) then .hold
    else .go (s.modTile i.tile (fun x => x.setPred (auxBits f 0 2) (s.sreg i f.fb))))

/-- PGET. -/
def execPget (i : At) (f : LayR) (s : State) : Res :=
  issue (.pget i f) i s (fun s =>
    if !unusedZero f { a := true, aux := 7 } then .reject rejOpcode
    else if s.sregBusy i [f.fa] || s.predBusy i.tile (auxBits f 0 2) then .hold
    else .go (s.putSreg i f.fa ((s.tile i.tile).pred (auxBits f 0 2))))

/-- The conditions of BR; 7 is reserved. -/
def brCond (c : Nat) (a b : Word) : Option Bool :=
  if c = 0 then some true
  else if c = 1 then some (a == b)
  else if c = 2 then some (a != b)
  else if c = 3 then some (a.slt b)
  else if c = 4 then some (!a.slt b)
  else if c = 5 then some (a.ult b)
  else if c = 6 then some (!a.ult b)
  else none

/-- BR: when the condition holds the next index is index + imm; a target outside 0 to 4,095 is
rejected when taken (R118). -/
def execBr (i : At) (f : LayR) (s : State) : Res :=
  issue (.br i f) i s (fun s =>
    let c := auxBits f 0 2
    let two := c ≠ 0
    if !unusedZero f { b := two, c := two, aux := 7, imm := immAll } then .reject rejOpcode
    else if s.sregBusy i [f.fb, f.fc] then .hold
    else match brCond c (s.sreg i f.fb) (s.sreg i f.fc) with
      | none => .reject rejOpcode
      | some false => .go s
      | some true =>
        let target : Int := (s.ctxOf i).index + f.imm.toInt
        if 0 ≤ target ∧ target < 4096 then .jump s target.toNat else .reject rejRange)

/-- FEND ends the context's frame once its synchronous instructions have completed (R110). -/
def execFend (i : At) (f : LayR) (s : State) : Res :=
  issue (.fend i f) i s (fun s =>
    if !unusedZero f { imm := 0xFFF } then .reject rejOpcode
    else if !(s.tile i.tile).syncDone i.ctx then .hold
    else .ended (s.modTile i.tile (fun x => x.modCtx i.ctx (fun y =>
      { y with run := .ended, next := f.imm.toNat }))))

end Sys2Proof.Machine
end

