-- ==== Sys2Proof/Machine/Dispatch.lean ====
section
/-! DEFINITION. What each command does to everything but the queue: one arm for each row of the
opcode table. -/
namespace Sys2Proof.Machine

/-- The effect of a command. -/
def exec (i : Instr) (s : State) : Host.Outcome State Fault Refusal :=
  match i with
  | .powerOn resetHigh => Sys2Proof.Machine.execPowerOn resetHigh s
  | .powerLoss => Sys2Proof.Machine.execPowerLoss s
  | .resetNAssert => Sys2Proof.Machine.execResetNAssert s
  | .pllLock b => Sys2Proof.Machine.execPllLock b s
  | .deviceRecord h site coord flags => Sys2Proof.Machine.execDeviceRecord h site coord flags s
  | .topologyRecord h dims mode linkWait eps => Sys2Proof.Machine.execTopologyRecord h dims mode linkWait eps s
  | .tickRecord h period phase ptpWait => Sys2Proof.Machine.execTickRecord h period phase ptpWait s
  | .powerRecord h mode limit => Sys2Proof.Machine.execPowerRecord h mode limit s
  | .portRecord h p flags buf lanes => Sys2Proof.Machine.execPortRecord h p flags buf lanes s
  | .hostNetRecord h n => Sys2Proof.Machine.execHostNetRecord h n s
  | .hostListRecord h hosts => Sys2Proof.Machine.execHostListRecord h hosts s
  | .regRecord h entries => Sys2Proof.Machine.execRegRecord h entries s
  | .noteRecord h => Sys2Proof.Machine.execNoteRecord h s
  | .tileSelfTestDone failed => Sys2Proof.Machine.execTileSelfTestDone failed s
  | .stackTrained q failed => Sys2Proof.Machine.execStackTrained q failed s
  | .opticalCalDone => Sys2Proof.Machine.execOpticalCalDone s
  | .hostLinkUp => Sys2Proof.Machine.execHostLinkUp s
  | .firstTick time => Sys2Proof.Machine.execFirstTick time s
  | .ptpWaitExpiry => Sys2Proof.Machine.execPtpWaitExpiry s
  | .hostLinkWaitExpiry => Sys2Proof.Machine.execHostLinkWaitExpiry s
  | .linkWaitExpiry => Sys2Proof.Machine.execLinkWaitExpiry s
  | .trainComplete => Sys2Proof.Machine.execTrainComplete s
  | .ptpMessage m => Sys2Proof.Machine.execPtpMessage m s
  | .ptpLock ptp pps phaseErr => Sys2Proof.Machine.execPtpLock ptp pps phaseErr s
  | .ptpLockLost ptp pps => Sys2Proof.Machine.execPtpLockLost ptp pps s
  | .ppsEdge err => Sys2Proof.Machine.execPpsEdge err s
  | .ppsAbsent => Sys2Proof.Machine.execPpsAbsent s
  | .refclkLoss => Sys2Proof.Machine.execRefclkLoss s
  | .supplyFault rail mv => Sys2Proof.Machine.execSupplyFault rail mv s
  | .pmbAlert status => Sys2Proof.Machine.execPmbAlert status s
  | .lockstepMismatch pc => Sys2Proof.Machine.execLockstepMismatch pc s
  | .laserFault lanes host => Sys2Proof.Machine.execLaserFault lanes host s
  | .tempSample x => Sys2Proof.Machine.execTempSample x s
  | .frameTick => Sys2Proof.Machine.execFrameTick s
  | .stagedWriteLand => Sys2Proof.Machine.execStagedWriteLand s
  | .frameStart t => Sys2Proof.Machine.execFrameStart t s
  | .channelSwitch q => Sys2Proof.Machine.execChannelSwitch q s
  | .microcodeSwap q => Sys2Proof.Machine.execMicrocodeSwap q s
  | .pwrModeWrite v => Sys2Proof.Machine.execPwrModeWrite v s
  | .vddCoreSettled => Sys2Proof.Machine.execVddCoreSettled s
  | .regulatorTimeout => Sys2Proof.Machine.execRegulatorTimeout s
  | .bondRateRetrainDone => Sys2Proof.Machine.execBondRateRetrainDone s
  | .tickWrite phase v => Sys2Proof.Machine.execTickWrite phase v s
  | .registerWrite slot off v => Sys2Proof.Machine.execRegisterWrite slot off v s
  | .nop c0 f => Sys2Proof.Machine.execNop c0 f s
  | .add c0 f => Sys2Proof.Machine.execAdd c0 f s
  | .sub c0 f => Sys2Proof.Machine.execSub c0 f s
  | .mul c0 f => Sys2Proof.Machine.execMul c0 f s
  | .and c0 f => Sys2Proof.Machine.execAnd c0 f s
  | .or c0 f => Sys2Proof.Machine.execOr c0 f s
  | .xor c0 f => Sys2Proof.Machine.execXor c0 f s
  | .shl c0 f => Sys2Proof.Machine.execShl c0 f s
  | .shr c0 f => Sys2Proof.Machine.execShr c0 f s
  | .sra c0 f => Sys2Proof.Machine.execSra c0 f s
  | .slt c0 f => Sys2Proof.Machine.execSlt c0 f s
  | .sltu c0 f => Sys2Proof.Machine.execSltu c0 f s
  | .rdinfo c0 f => Sys2Proof.Machine.execRdinfo c0 f s
  | .pset c0 f => Sys2Proof.Machine.execPset c0 f s
  | .pget c0 f => Sys2Proof.Machine.execPget c0 f s
  | .br c0 f => Sys2Proof.Machine.execBr c0 f s
  | .fend c0 f => Sys2Proof.Machine.execFend c0 f s
  | .mmw c0 f => Sys2Proof.Machine.execMmw c0 f s
  | .mmf c0 f => Sys2Proof.Machine.execMmf c0 f s
  | .mmd c0 f => Sys2Proof.Machine.execMmd c0 f s
  | .mmStreamStart t => Sys2Proof.Machine.execMmStreamStart t s
  | .mmComplete t n => Sys2Proof.Machine.execMmComplete t s n
  | .vcr c0 f => Sys2Proof.Machine.execVcr c0 f s
  | .vcStart t => Sys2Proof.Machine.execVcStart t s
  | .vcComplete t => Sys2Proof.Machine.execVcComplete t s
  | .vdl c0 f => Sys2Proof.Machine.execVdl c0 f s
  | .ld c0 f => Sys2Proof.Machine.execLd c0 f s
  | .st c0 f => Sys2Proof.Machine.execSt c0 f s
  | .ldt c0 f => Sys2Proof.Machine.execLdt c0 f s
  | .stc c0 f => Sys2Proof.Machine.execStc c0 f s
  | .lds c0 f => Sys2Proof.Machine.execLds c0 f s
  | .sts c0 f => Sys2Proof.Machine.execSts c0 f s
  | .loadStoreComplete t n g => Sys2Proof.Machine.execLoadStoreComplete t n s g
  | .din c0 f => Sys2Proof.Machine.execDin c0 f s
  | .dout c0 f => Sys2Proof.Machine.execDout c0 f s
  | .queueRoom t id => Sys2Proof.Machine.execQueueRoom t id s
  | .dmaComplete t id n => Sys2Proof.Machine.execDmaComplete t id s n
  | .put c0 f => Sys2Proof.Machine.execPut c0 f s
  | .get c0 f => Sys2Proof.Machine.execGet c0 f s
  | .wait c0 f => Sys2Proof.Machine.execWait c0 f s
  | .evset c0 f => Sys2Proof.Machine.execEvset c0 f s
  | .evadd c0 f => Sys2Proof.Machine.execEvadd c0 f s
  | .fence c0 f => Sys2Proof.Machine.execFence c0 f s
  | .sync c0 f => Sys2Proof.Machine.execSync c0 f s
  | .claunch c0 f => Sys2Proof.Machine.execClaunch c0 f s
  | .cefence c0 f => Sys2Proof.Machine.execCefence c0 f s
  | .scommit c0 f => Sys2Proof.Machine.execScommit c0 f s
  | .sabort c0 f => Sys2Proof.Machine.execSabort c0 f s
  | .dclose c0 f => Sys2Proof.Machine.execDclose c0 f s
  | .dstat c0 f => Sys2Proof.Machine.execDstat c0 f s
  | .voteSend j => Sys2Proof.Machine.execVoteSend j s
  | .decideVote j d => Sys2Proof.Machine.execDecideVote j d s
  | .attemptOpen j => Sys2Proof.Machine.execAttemptOpen j s
  | .voteTimeout j missing => Sys2Proof.Machine.execVoteTimeout j missing s
  | .hostAbort j => Sys2Proof.Machine.execHostAbort j s
  | .peerRepairDone j addr data => Sys2Proof.Machine.execPeerRepairDone j addr data s
  | .digestReceive j group region digest => Sys2Proof.Machine.execDigestReceive j group region digest s
  | .digestRereadDone j region own agree => Sys2Proof.Machine.execDigestRereadDone j region own agree s
  | .digestReplacementDone j region data digest all => Sys2Proof.Machine.execDigestReplacementDone j region data digest s all
  | .rejoin j => Sys2Proof.Machine.execRejoin j s
  | .rejoinCopyDone j step epoch copies digests all => Sys2Proof.Machine.execRejoinCopyDone j step epoch copies s digests all
  | .installationAct j ready => Sys2Proof.Machine.execInstallationAct j ready s
  | .repairRequest v => Sys2Proof.Machine.execRepairRequest v s
  | .repairCopyDone q => Sys2Proof.Machine.execRepairCopyDone q s
  | .repairFailed q lines => Sys2Proof.Machine.execRepairFailed q lines s
  | .repairThreshold q chan => Sys2Proof.Machine.execRepairThreshold q chan s
  | .bondGroupFailure q chan => Sys2Proof.Machine.execBondGroupFailure q chan s
  | .patrolScrub line r other => Sys2Proof.Machine.execPatrolScrub line r s other
  | .eccClear => Sys2Proof.Machine.execEccClear s
  | .lookupRequest q rows => Sys2Proof.Machine.execLookupRequest q rows s
  | .lookupDone q n => Sys2Proof.Machine.execLookupDone q n s
  | .glogAppend q => Sys2Proof.Machine.execGlogAppend q s
  | .glogApply j w acc => Sys2Proof.Machine.execGlogApply j w acc s
  | .glogWritebackDone j => Sys2Proof.Machine.execGlogWritebackDone j s
  | .codecBuild q => Sys2Proof.Machine.execCodecBuild q s
  | .codecBuildDone j slot => Sys2Proof.Machine.execCodecBuildDone j slot s
  | .codecRelease q => Sys2Proof.Machine.execCodecRelease q s
  | .idleFrame p h => Sys2Proof.Machine.execIdleFrame p h s
  | .dataFrame p h k => Sys2Proof.Machine.execDataFrame p h k s
  | .nak p h next => Sys2Proof.Machine.execNak p h next s
  | .retryTimeout p => Sys2Proof.Machine.execRetryTimeout p s
  | .lane p f => Sys2Proof.Machine.execLane p f s
  | .laneFailure p lane rx => Sys2Proof.Machine.execLaneFailure p lane rx s
  | .laneRotation p => Sys2Proof.Machine.execLaneRotation p s
  | .prbsTestDone p lane pass => Sys2Proof.Machine.execPrbsTestDone p lane pass s
  | .lightAndLock p lanes => Sys2Proof.Machine.execLightAndLock p lanes s
  | .linkTrained p rtt nonce => Sys2Proof.Machine.execLinkTrained p rtt nonce s
  | .trainTimeout p => Sys2Proof.Machine.execTrainTimeout p s
  | .downHoldExpiry p => Sys2Proof.Machine.execDownHoldExpiry p s
  | .hello p f => Sys2Proof.Machine.execHello p f s
  | .helloRepeat p => Sys2Proof.Machine.execHelloRepeat p s
  | .ident p f => Sys2Proof.Machine.execIdent p f s
  | .identTimeout p => Sys2Proof.Machine.execIdentTimeout p s
  | .stateFrame p f => Sys2Proof.Machine.execStateFrame p f s
  | .linkDown p => Sys2Proof.Machine.execLinkDown p s
  | .portEnable p en => Sys2Proof.Machine.execPortEnable p en s
  | .quarantineRelease p => Sys2Proof.Machine.execQuarantineRelease p s
  | .putPacket k => Sys2Proof.Machine.execPutPacket k s
  | .getReq k => Sys2Proof.Machine.execGetReq k s
  | .getData k => Sys2Proof.Machine.execGetData k s
  | .completion k => Sys2Proof.Machine.execCompletion k s
  | .transferResend id => Sys2Proof.Machine.execTransferResend id s
  | .fullResendDelay id => Sys2Proof.Machine.execFullResendDelay id s
  | .e2eTimeout id => Sys2Proof.Machine.execE2eTimeout id s
  | .logEntry k => Sys2Proof.Machine.execLogEntry k s
  | .linkState tag n => Sys2Proof.Machine.execLinkState tag n s
  | .absentHoldExpiry j dev => Sys2Proof.Machine.execAbsentHoldExpiry j dev s
  | .bypassArmWrite arm => Sys2Proof.Machine.execBypassArmWrite arm s
  | .collectiveStart j cid => Sys2Proof.Machine.execCollectiveStart j cid s
  | .ready k b => Sys2Proof.Machine.execReady k b s
  | .chunk k => Sys2Proof.Machine.execChunk k s
  | .collectiveDone j cid => Sys2Proof.Machine.execCollectiveDone j cid s
  | .reportSeal j r => Sys2Proof.Machine.execReportSeal j r s
  | .reportVote j r => Sys2Proof.Machine.execReportVote j r s
  | .reportApplied j r held => Sys2Proof.Machine.execReportApplied j r s held
  | .decideSeal j d => Sys2Proof.Machine.execDecideSeal j d s
  | .decideExclude j d => Sys2Proof.Machine.execDecideExclude j d s
  | .epochAdvance j => Sys2Proof.Machine.execEpochAdvance j s
  | .roundClose j => Sys2Proof.Machine.execRoundClose j s
  | .liveReadDone j => Sys2Proof.Machine.execLiveReadDone j s
  | .tableBuild j peer round => Sys2Proof.Machine.execTableBuild j peer round s
  | .blockEncodeDone j peer k => Sys2Proof.Machine.execBlockEncodeDone j peer s k
  | .blockSend j peer => Sys2Proof.Machine.execBlockSend j peer s
  | .delta u blocks whole => Sys2Proof.Machine.execDelta u blocks whole s
  | .table u b => Sys2Proof.Machine.execTable u b s
  | .tableRetire u b => Sys2Proof.Machine.execTableRetire u b s
  | .manifest u m => Sys2Proof.Machine.execManifest u m s
  | .outerUpdateDone j others => Sys2Proof.Machine.execOuterUpdateDone j s others
  | .nextCopyReceive j shard a m digest => Sys2Proof.Machine.execNextCopyReceive j shard a m digest s
  | .countersign u c => Sys2Proof.Machine.execCountersign u c s
  | .receipt u r => Sys2Proof.Machine.execReceipt u r s
  | .join u b => Sys2Proof.Machine.execJoin u b s
  | .heart u h => Sys2Proof.Machine.execHeart u h s
  | .heartSend j => Sys2Proof.Machine.execHeartSend j s
  | .pathSilence j entry secondary => Sys2Proof.Machine.execPathSilence j entry secondary s
  | .pathReturn j entry => Sys2Proof.Machine.execPathReturn j entry s
  | .cutoff j round reports => Sys2Proof.Machine.execCutoff j round s reports
  | .manifestDeadline j => Sys2Proof.Machine.execManifestDeadline j s
  | .beaconAbsent j => Sys2Proof.Machine.execBeaconAbsent j s
  | .takeoverTimeout j => Sys2Proof.Machine.execTakeoverTimeout j s
  | .anchorDigestTimeout j => Sys2Proof.Machine.execAnchorDigestTimeout j s
  | .stallLimit j => Sys2Proof.Machine.execStallLimit j s
  | .refetchTimeout j => Sys2Proof.Machine.execRefetchTimeout j s
  | .refetchDone j site base others => Sys2Proof.Machine.execRefetchDone j site base others s
  | .gapTimeout j shard round blocks peer => Sys2Proof.Machine.execGapTimeout j shard round blocks peer s
  | .nackResend j shard round peer => Sys2Proof.Machine.execNackResend j shard round peer s
  | .ack u b => Sys2Proof.Machine.execAck u b s
  | .nack u b => Sys2Proof.Machine.execNack u b s
  | .ackCoalesceExpiry j peer => Sys2Proof.Machine.execAckCoalesceExpiry j peer s
  | .blockResendTimeout j peer => Sys2Proof.Machine.execBlockResendTimeout j peer s
  | .fragmentResend msg index => Sys2Proof.Machine.execFragmentResend msg index s
  | .fragmentDiscard src msg => Sys2Proof.Machine.execFragmentDiscard src msg s
  | .ctrlNop r op rsv => Sys2Proof.Machine.execCtrlNop r s op rsv
  | .read r addr len => Sys2Proof.Machine.execRead r addr len s
  | .write r addr data => Sys2Proof.Machine.execWrite r addr data s
  | .jobStart r a => Sys2Proof.Machine.execJobStart r a s
  | .jobStop r job mode => Sys2Proof.Machine.execJobStop r job mode s
  | .bulkExport r addr len udp page => Sys2Proof.Machine.execBulkExport r addr len udp page s
  | .bulkImport r addr len page => Sys2Proof.Machine.execBulkImport r addr len page s
  | .subscribe r mask => Sys2Proof.Machine.execSubscribe r mask s
  | .drain r => Sys2Proof.Machine.execDrain r s
  | .reset r => Sys2Proof.Machine.execReset r s
  | .close r => Sys2Proof.Machine.execClose r s
  | .sessionTimeout slot => Sys2Proof.Machine.execSessionTimeout slot s
  | .sessionKill slots => Sys2Proof.Machine.execSessionKill slots s
  | .statsClear => Sys2Proof.Machine.execStatsClear s
  | .bulkData u xfer segment offset data last => Sys2Proof.Machine.execBulkData u xfer segment offset data last s
  | .bulkRequest u obj round first count => Sys2Proof.Machine.execBulkRequest u obj round first count s
  | .bulkSegmentResend xfer segment => Sys2Proof.Machine.execBulkSegmentResend xfer segment s
  | .bulkAbandon xfer peer => Sys2Proof.Machine.execBulkAbandon xfer s peer
  | .notifyResend slot => Sys2Proof.Machine.execNotifyResend slot s
  | .neighborSolicitation target from_ => Sys2Proof.Machine.execNeighborSolicitation target from_ s
  | .echoRequest from_ data => Sys2Proof.Machine.execEchoRequest from_ data s
  | .init b => Sys2Proof.Machine.execInit b s
  | .resp b => Sys2Proof.Machine.execResp b s
  | .fin b => Sys2Proof.Machine.execFin b s
  | .finAck u => Sys2Proof.Machine.execFinAck u s
  | .initResend peer kind page => Sys2Proof.Machine.execInitResend peer kind page s
  | .handshakeTimeout peer => Sys2Proof.Machine.execHandshakeTimeout peer s
  | .keyEpochAge page assoc => Sys2Proof.Machine.execKeyEpochAge page assoc s
  | .epochRelease page assoc => Sys2Proof.Machine.execEpochRelease page assoc s
  | .cipherKat pair pass => Sys2Proof.Machine.execCipherKat pair pass s
  | .cipherFence pair => Sys2Proof.Machine.execCipherFence pair s
  | .wedgeTimeout blk queued => Sys2Proof.Machine.execWedgeTimeout blk queued s
  | .tileStorageUe p word => Sys2Proof.Machine.execTileStorageUe p word s
  | .tileControlParity p index time => Sys2Proof.Machine.execTileControlParity p index time s
  | .faultInject v => Sys2Proof.Machine.execFaultInject v s
  | .tileRemap t => Sys2Proof.Machine.execTileRemap t s
  | .tileMapSwitch t => Sys2Proof.Machine.execTileMapSwitch t s
  | .remapTimeout t => Sys2Proof.Machine.execRemapTimeout t s
  | .remap t => Sys2Proof.Machine.execRemap t s
  | .testChannel q chan => Sys2Proof.Machine.execTestChannel q chan s
  | .tileBistDone p pass => Sys2Proof.Machine.execTileBistDone p pass s
  | .spareTileTest p pass => Sys2Proof.Machine.execSpareTileTest p pass s
  | .spareChannelTest q chan => Sys2Proof.Machine.execSpareChannelTest q chan s
  | .bondRecentre q chan => Sys2Proof.Machine.execBondRecentre q chan s
  | .loadFw => Sys2Proof.Machine.execLoadFw s
  | .fwLoadDone back => Sys2Proof.Machine.execFwLoadDone back s
  | .handover => Sys2Proof.Machine.execHandover s
  | .handoverQuietPoint => Sys2Proof.Machine.execHandoverQuietPoint s
  | .handoverBusy => Sys2Proof.Machine.execHandoverBusy s
  | .fwConfirm => Sys2Proof.Machine.execFwConfirm s
  | .handoverConfirmTimeout => Sys2Proof.Machine.execHandoverConfirmTimeout s
  | .loadUcode => Sys2Proof.Machine.execLoadUcode s
  | .ucodeLoadDone back => Sys2Proof.Machine.execUcodeLoadDone back s
  | .swapUcode => Sys2Proof.Machine.execSwapUcode s
  | .loadConfig => Sys2Proof.Machine.execLoadConfig s
  | .configLoadDone back => Sys2Proof.Machine.execConfigLoadDone back s
  | .setMinVersion => Sys2Proof.Machine.execSetMinVersion s
  | .programOwner => Sys2Proof.Machine.execProgramOwner s
  | .freezeNFall cycles => Sys2Proof.Machine.execFreezeNFall cycles s
  | .dbgFreeze cycles => Sys2Proof.Machine.execDbgFreeze cycles s
  | .thaw => Sys2Proof.Machine.execThaw s
  | .pmEnter => Sys2Proof.Machine.execPmEnter s
  | .lightLost p => Sys2Proof.Machine.execLightLost p s
  | .pllLost domain => Sys2Proof.Machine.execPllLost domain s
  | .powerSample watts => Sys2Proof.Machine.execPowerSample watts s
  | .channelMarchTestDone q chan pass => Sys2Proof.Machine.execChannelMarchTestDone q chan pass s
  | .scanShift bits => Sys2Proof.Machine.execScanShift bits s
  | .hostLinkDown => Sys2Proof.Machine.execHostLinkDown s
  | .discardedFrame w => Sys2Proof.Machine.execDiscardedFrame w s

end Sys2Proof.Machine
end

