-- ==== Sys2Proof/Safety.lean ====
section
/-! DEFINITION. What holds of every state that the block comes to, and when a tile instruction issues, in the terms that
claims use. -/
namespace Sys2Proof.Machine

/-! ## Canonical form -/

/-- DRAM as the state holds it: addresses rising, no byte listed that reads as an unlisted one does. -/
def State.dramWf (s : State) : Bool := Memory.wf s.dram

/-- The register words: keys rising, none listed at its reset value (R407). -/
def State.regsWf (s : State) : Bool := canonical s.regs regReset

/-- The tables of tiles, stack domains, jobs and ports are in canonical form. -/
def State.partsWf (s : State) : Bool :=
  canonical s.tiles (fun _ => Tile.reset) && canonical s.domains (fun _ => Domain.reset) && canonical s.jobs (fun _ => Job.reset) &&
    canonical s.ports (fun _ => Port.reset)

/-- A tile's register file, memories, predicates, descriptors, event counters, stationary registers and scalar registers are
in canonical form. -/
def Tile.wf (x : Tile) : Bool :=
  Memory.wf x.vrf && Memory.wf x.spad && Memory.wf x.imem && canonical x.preds (fun _ => 0) && canonical x.descs (fun _ => 0) &&
    canonical x.events (fun _ => 0) && canonical x.live (fun _ => Stat.reset) && canonical x.shadow (fun _ => none) && canonical x.ctx0.regs (fun _ => 0) && canonical x.ctx1.regs (fun _ => 0) &&
    canonical x.ctx2.regs (fun _ => 0)

/-- A job's barriers, codebook slots, codec counters, digests, exception records and exchange tables are in canonical form. -/
def Job.wf (x : Job) : Bool :=
  canonical x.barriers (fun _ => (0, 0)) && canonical x.slots (fun _ => CodeSlot.reset) && canonical x.counters (fun _ => 0) &&
    canonical x.dig.acc (fun _ => 0) && canonical x.dig.lines (fun _ => 0) && canonical x.dig.kept (fun _ => 0) &&
    canonical x.led.excs (fun _ => ⟨0, none⟩) && canonical x.dxe.anchor (fun _ => 0) && canonical x.dxe.anchorNext (fun _ => 0) &&
    canonical x.dxe.mom (fun _ => 0) && canonical x.dxe.momNext (fun _ => 0) && canonical x.dxe.resid (fun _ => 0)

/-- A port's credits are in canonical form. -/
def Port.wf (x : Port) : Bool := canonical x.credits (fun _ => 0)

/-- Every table of the state is in canonical form, so that equal contents are equal data. -/
def State.wf (s : State) : Bool :=
  s.dramWf && s.regsWf && s.partsWf && s.tiles.all (fun p => p.2.wf) && s.jobs.all (fun p => p.2.wf) && s.ports.all (fun p => p.2.wf) &&
    canonical s.svc.shifts (fun _ => 0) && canonical s.turns (fun _ => []) && canonical s.sec.pairs (fun _ => Pair.reset)

/-! ## The issue of a tile instruction (R116, R118, R128) -/

/-- The instruction is the one that the context issues next: the context may issue, and the word at its index is the
instruction's. -/
structure Issues (op : Instr) (s : State) (i : At) : Prop where
  may : mayIssue s i = true
  word : tileWord op = some (s.fetched i)

/-- The instruction issues, at an index that has a next one. -/
structure Ready (op : Instr) (s : State) (i : At) : Prop extends Issues op s i where
  inside : (s.ctxOf i).index ≠ 4095

/-- The index of the instruction after. -/
def State.nextIndex (s : State) (i : At) : Nat := (s.ctxOf i).index + 1

/-- The sequencer after an instruction has issued: the context's index, which context issued last, what follows of itself
in the tile, and the release of R142 when the attempt has been abandoned. -/
def issuedAt (n : Nat) (s : State) (i : At) : State :=
  releaseIfAborting ((s.passOn i n).settle i.tile) i

/-- The job a tile's instruction runs for. -/
def State.jobAt (s : State) (i : At) : Nat := (s.jobOfTile i.tile).getD 0

/-! ## Reading states -/

/-- A request comes in a datagram that is admitted under the keys of its session; the state with what admission counts (R331,
R344). -/
structure Admits (s r : State) (slot : Nat) (q : Req) : Prop where
  page : q.head.page = 0xFF
  known : openFor s q = true
  comes : admitHost s q.head slot pairRx 1 true = (r, true)

/-- A session's request would be executed now: the host port is up, the session open, the request next in order, and no
other in progress (R309, R310). -/
structure NextRequest (s : State) (slot : Nat) (x : Session) (q : Req) : Prop where
  up : s.hostUp = true
  slotIs : q.session.toNat % 8 = slot
  open_ : assoc s.host.sessions slot = some x
  same : x.id = q.session
  order : q.msg.toNat = x.last + 1
  noHeld : x.held = []
  free : x.busy = none
  runs : s.ctrlWaits = false

end Sys2Proof.Machine
end

