-- ==== Sys2Proof/Certificates/Slice0/Obligations.lean ====
section
/-! DEFINITION. The statements for the provers, by the families of the commands. A statement that joins parts is their conjunction. -/

open Sys2Proof Sys2Proof.Machine

/-! ## Tile instructions: scalar and control (R118 to R120, R95, R103, R110) -/

/-- The two-operand instructions and what each computes of 64-bit operands, as Table PRG-4 says it. -/
def Sys2Proof.Machine.aluRows : List ((At → LayR → Instr) × (Word → Word → Word)) :=
  [(.add, fun a b => a + b), (.sub, fun a b => a - b), (.mul, fun a b => a * b), (.and, fun a b => a &&& b),
   (.or, fun a b => a ||| b), (.xor, fun a b => a ^^^ b), (.shl, fun a b => a <<< (b.toNat % 64)),
   (.shr, fun a b => a >>> (b.toNat % 64)), (.sra, fun a b => a.sshiftRight (b.toNat % 64)),
   (.slt, fun a b => if a.toInt < b.toInt then 1 else 0), (.sltu, fun a b => if a.toNat < b.toNat then 1 else 0)]

/-- ADD to SLTU complete: with the second operand in a register or in the immediate, sd takes sa op sb, and nothing else
changes but what the sequencer does after an issue. -/
def Sys2Proof.Claims.ScalarArithmetic : Prop :=
  ∀ row ∈ aluRows, ∀ (i : At) (f : LayR) (s : State), Ready (row.1 i f) s i →
    (f.aux = 0 → unusedZero f { a := true, b := true, c := true, aux := 1 } = true → s.sregBusy i [f.fa, f.fb, f.fc] = false →
      exec (row.1 i f) s = .next (issuedAt (s.nextIndex i) (s.putSreg i f.fa (row.2 (s.sreg i f.fb) (s.sreg i f.fc))) i)) ∧
    (f.aux = 1 → unusedZero f { a := true, b := true, aux := 1, imm := immAll } = true → s.sregBusy i [f.fa, f.fb] = false →
      exec (row.1 i f) s = .next (issuedAt (s.nextIndex i) (s.putSreg i f.fa (row.2 (s.sreg i f.fb) f.imm)) i))

/-- s0 reads as zero and discards writes; a write of another register changes it alone (R119). -/
def Sys2Proof.Claims.ScalarRegisterZero : Prop :=
  ∀ (x : Ctx) (r q : Nat) (v : Word), keysAbove 0 x.regs = true →
    x.sreg 0 = 0 ∧ x.setSreg 0 v = x ∧ (x.setSreg r v).sreg q = if q = 0 then 0 else if q = r then v else x.sreg q

/-- NOP, RDINFO, PSET and PGET complete: RDINFO reads its six selectors, PSET and PGET a predicate, of which p0 reads as
all ones and discards writes. -/
def Sys2Proof.Claims.ScalarReads : Prop :=
  ∀ (i : At) (f : LayR) (s : State),
    (Ready (.nop i f) s i → unusedZero f {} = true → exec (.nop i f) s = .next (issuedAt (s.nextIndex i) s i)) ∧
    (Ready (.rdinfo i f) s i → unusedZero f { a := true, imm := immAll } = true → s.sregBusy i [f.fa] = false → f.imm.toNat < 6 →
      exec (.rdinfo i f) s = .next (issuedAt (s.nextIndex i) (s.putSreg i f.fa (BitVec.ofNat 64
        ([i.tile.val, i.ctx.val, s.step (s.jobAt i), (s.tile i.tile).frame - 1, s.jobAt i, i.tile.val / 256].getD f.imm.toNat 0))) i)) ∧
    (∀ p < 8, f.aux = BitVec.ofNat 26 p → s.predBusy i.tile p = false →
      (Ready (.pset i f) s i → unusedZero f { b := true, aux := 7 } = true → s.sregBusy i [f.fb] = false →
        exec (.pset i f) s = .next (issuedAt (s.nextIndex i) (s.modTile i.tile (fun x =>
          if p = 0 then x else { x with preds := store x.preds p (s.sreg i f.fb) 0 })) i)) ∧
      (Ready (.pget i f) s i → unusedZero f { a := true, aux := 7 } = true → s.sregBusy i [f.fa] = false →
        exec (.pget i f) s = .next (issuedAt (s.nextIndex i) (s.putSreg i f.fa
          (if p = 0 then BitVec.allOnes 64 else look (s.tile i.tile).preds p 0)) i)))

/-- The condition of BR by its code (Table PRG-4). -/
def Sys2Proof.Machine.branchTaken (c : Nat) (a b : Word) : Bool :=
  match c with
  | 0 => true
  | 1 => decide (a = b)
  | 2 => decide (a ≠ b)
  | 3 => decide (a.toInt < b.toInt)
  | 4 => decide (b.toInt ≤ a.toInt)
  | 5 => decide (a.toNat < b.toNat)
  | 6 => decide (b.toNat ≤ a.toNat)
  | _ => false

/-- BR goes to index + imm when its condition holds and that lies within the memory, and on to the next instruction when
it does not hold; FEND ends its context's frame with the next entry of its immediate. -/
def Sys2Proof.Claims.ControlFlow : Prop :=
  (∀ (i : At) (f : LayR) (s : State) (c : Nat), Issues (.br i f) s i → c < 7 → f.aux = BitVec.ofNat 26 c →
    unusedZero f { b := decide (c ≠ 0), c := decide (c ≠ 0), aux := 7, imm := immAll } = true → s.sregBusy i [f.fb, f.fc] = false →
    (branchTaken c (s.sreg i f.fb) (s.sreg i f.fc) = true → 0 ≤ ((s.ctxOf i).index : Int) + f.imm.toInt →
      ((s.ctxOf i).index : Int) + f.imm.toInt < 4096 →
      exec (.br i f) s = .next (s.passOn i (((s.ctxOf i).index : Int) + f.imm.toInt).toNat)) ∧
    (branchTaken c (s.sreg i f.fb) (s.sreg i f.fc) = false → (s.ctxOf i).index ≠ 4095 →
      exec (.br i f) s = .next (issuedAt (s.nextIndex i) s i))) ∧
  (∀ (i : At) (f : LayR) (s : State), Issues (.fend i f) s i → unusedZero f { imm := 0xFFF } = true →
    (s.tile i.tile).syncDone i.ctx = true →
    exec (.fend i f) s = .next (((s.modTile i.tile (fun x => x.modCtx i.ctx (fun y => { y with
      run := .ended, next := f.imm.toNat }))).modTile i.tile (fun x => { x with last := i.ctx, passed := [] })).settle i.tile))

/-- A non-zero unused field or reserved bit is rejected with code OPCODE, and so is a word whose opcode Table PRG-4 does not
list, whatever instruction is given with it: nothing further issues on the tile, and TILE_STATUS names the context and the index
(R118, R128). -/
def Sys2Proof.Claims.UnusedFieldRejected : Prop :=
  (∀ (i : At) (f : LayR) (s : State), Issues (.nop i f) s i → unusedZero f {} = false →
    exec (.nop i f) s = .next (rejectAt s i.tile i.ctx (s.ctxOf i).index 1)) ∧
  (∀ (i : At) (f : LayR) (s : State), mayIssue s i = true → tileInstr i (s.fetched i) = none →
    exec (.nop i f) s = .next (rejectAt s i.tile i.ctx (s.ctxOf i).index 1) ∧
    ∀ row ∈ aluRows, exec (row.1 i f) s = .next (rejectAt s i.tile i.ctx (s.ctxOf i).index 1))

/-- The last index is 4,095: an instruction there that would go on to 4,096 is rejected with code RANGE (R118). -/
def Sys2Proof.Claims.LastIndexRejected : Prop :=
  ∀ (i : At) (f : LayR) (s : State), Issues (.nop i f) s i → unusedZero f {} = true → (s.ctxOf i).index = 4095 →
    exec (.nop i f) s = .next (rejectAt s i.tile i.ctx 4095 5)

/-- A context that may not issue changes nothing: its tile runs no frame, a rejection has ended issuing, or it waits. -/
def Sys2Proof.Claims.NothingIssuesWhenHeld : Prop :=
  ∀ row ∈ aluRows, ∀ (i : At) (f : LayR) (s : State), mayIssue s i = false → exec (row.1 i f) s = .next s

/-- What the sequencer does after an issue stays within the tile: registers, predicates, descriptors, memories and instructions in flight
stand, as does all of the state outside the tile, unless the attempt has been abandoned (R142). The model's choices in it: log entry 11 (a
held instruction passes its turn); log entry 13 (waits under an abort). -/
def Obligations.IssueFrame : Prop :=
  ∀ (n : Nat) (s : State) (i : At), s.partsWf = true →
    ({ issuedAt n s i with tiles := s.tiles } = s) ∧
    (∀ t : Nat, t ≠ i.tile → (issuedAt n s i).tile t = s.tile t) ∧
    ((issuedAt n s i).tile i.tile).vrf = (s.tile i.tile).vrf ∧ ((issuedAt n s i).tile i.tile).spad = (s.tile i.tile).spad ∧
    ((issuedAt n s i).tile i.tile).imem = (s.tile i.tile).imem ∧ ((issuedAt n s i).tile i.tile).preds = (s.tile i.tile).preds ∧
    ((issuedAt n s i).tile i.tile).descs = (s.tile i.tile).descs ∧ ((issuedAt n s i).tile i.tile).mms = (s.tile i.tile).mms ∧
    ((issuedAt n s i).tile i.tile).vcs = (s.tile i.tile).vcs ∧ ((issuedAt n s i).tile i.tile).ls = (s.tile i.tile).ls ∧
    ((issuedAt n s i).tile i.tile).asyncs = (s.tile i.tile).asyncs ∧
    ((∀ j ∈ s.jobOfTile i.tile, (s.job j).phase ≠ .aborting ∧ (s.job j).phase ≠ .repairing) →
      ((issuedAt n s i).tile i.tile).ctx0.regs = (s.tile i.tile).ctx0.regs ∧
      ((issuedAt n s i).tile i.tile).ctx1.regs = (s.tile i.tile).ctx1.regs ∧
      ((issuedAt n s i).tile i.tile).ctx2.regs = (s.tile i.tile).ctx2.regs)

/-- ADD to SLTU complete with what Table PRG-4 computes, and s0 reads as zero and discards writes. -/
def Obligations.ScalarOperations : Prop :=
  Sys2Proof.Claims.ScalarArithmetic ∧ Sys2Proof.Claims.ScalarRegisterZero

/-- NOP, RDINFO, PSET, PGET, BR and FEND complete as Table PRG-4 says. -/
def Obligations.ScalarAndControl : Prop :=
  Sys2Proof.Claims.ScalarReads ∧ Sys2Proof.Claims.ControlFlow

/-! ## Tile instructions: loads, stores and descriptors (R88, R119, R122, R123, R129) -/

/-- LD, ST and LDT issue within the register file and the scratchpad: ST captures its bytes at issue, LD and LDT
stand in flight and hold the registers they will write. -/
def Sys2Proof.Claims.WideLoadsIssue : Prop :=
  ∀ (i : At) (f : LayR) (s : State),
    let a := effAddr (s.sreg i f.fb) f.imm
    let n := lsLen f
    256 * lsReg f + n ≤ 16384 →
    (unusedZero f { b := true, aux := lsAux, imm := immAll } = true → s.sregBusy i [f.fb] = false → a + n ≤ 262144 →
      (Ready (.ld i f) s i → s.writable i.tile [(lsReg f, regsOf n)] = true →
        exec (.ld i f) s = .next (issuedAt (s.nextIndex i) (s.putLs i (.ld a (256 * lsReg f) n) (0, 0) [] false false) i)) ∧
      (Ready (.st i f) s i → s.readable i.tile [(lsReg f, regsOf n)] = true →
        exec (.st i f) s = .next (issuedAt (s.nextIndex i)
          (s.putLs i (.st a (rdN (s.tile i.tile).vrf (256 * lsReg f) n) (8 * n)) (0, 0) [] false false) i))) ∧
    (Ready (.ldt i f) s i → unusedZero f { b := true, c := true, aux := lsAux, imm := immAll } = true → s.sregBusy i [f.fb, f.fc] = false → n % 512 = 0 →
      (∀ r < 16, (a + r * (s.sreg i f.fc).toNat) % 2 ^ 64 + n / 16 ≤ 262144) → s.writable i.tile [(lsReg f, regsOf n)] = true →
      exec (.ldt i f) s = .next (issuedAt (s.nextIndex i) (s.putLs i (.ldt a (s.sreg i f.fc) (256 * lsReg f) (n / 32)) (0, 0) [] false false) i))

/-- LDS, STS and VDL issue for an access within the scratchpad: STS takes the low bytes of its register at issue, VDL's
address is a multiple of 32 and its slot named by no vector instruction in flight. -/
def Sys2Proof.Claims.ScalarLoadsIssue : Prop :=
  ∀ (i : At) (f : LayR) (s : State),
    let a := effAddr (s.sreg i f.fb) f.imm
    (∀ k < 4, f.aux.toNat % 4 = k → a + 2 ^ k ≤ 262144 →
      (Ready (.lds i f) s i → unusedZero f { a := true, b := true, aux := 7, imm := immAll } = true → s.sregBusy i [f.fa, f.fb] = false →
        exec (.lds i f) s = .next (issuedAt (s.nextIndex i)
          (s.putLs i (.lds a (2 ^ k) (f.aux.getLsbD 2) f.fa.toNat) (0, 0) [] false false) i)) ∧
      (Ready (.sts i f) s i → unusedZero f { b := true, c := true, aux := 3, imm := immAll } = true → s.sregBusy i [f.fb, f.fc] = false →
        exec (.sts i f) s = .next (issuedAt (s.nextIndex i)
          (s.putLs i (.st a (toLE (2 ^ k) (s.sreg i f.fc).toNat) (8 * 2 ^ k)) (0, 0) [] false false) i))) ∧
    (Ready (.vdl i f) s i → unusedZero f { b := true, aux := 31, imm := immAll } = true → s.sregBusy i [f.fb] = false → a + 32 ≤ 262144 →
      a % 32 = 0 → (∀ v ∈ (s.tile i.tile).vcs, v.lay.slot.toNat ≠ f.aux.toNat) →
      exec (.vdl i f) s = .next (issuedAt (s.nextIndex i) (s.putLs i (.vdl a f.aux.toNat) (0, 0) [] false false) i))

/-- STC converts the accumulators it reads at issue and stores them packed at completion; it holds its source until then. -/
def Sys2Proof.Claims.StoreConverted : Prop :=
  ∀ (i : At) (f : LayR) (s : State), Ready (.stc i f) s i →
    let n := auxBits f 14 25 + 1
    let v := auxBits f 0 5
    let fmt := auxBits f 8 11
    let scaled := f.imm.getLsbD 36
    let a := effAddr (s.sreg i f.fb) (BitVec.signExtend 64 (f.imm.extractLsb' 0 32))
    let j := s.jobAt i
    unusedZero f { b := true, c := true, d := true, e := true, f := scaled, aux := 0x3FFFF3F, imm := 0x1FFFFFFFFF } = true →
    auxBits f 12 13 ≠ 3 → fmt < 9 → (scaled = true → scalingOk fmt .tensor = true) →
    s.sregBusy i [f.fb, f.fc, f.fd, f.fe, f.ff] = false → 256 * v + 8 * n ≤ 16384 → a + (n * fmtBits fmt + 7) / 8 ≤ 262144 →
    s.readable i.tile [(v, regsOf (8 * n))] = true →
    ∃ tensors loss grad, exec (.stc i f) s = .next (issuedAt (s.nextIndex i) (s.putLs i (.st a
      (packStream (fmtBits fmt) ((stcConvert (s.fld NUM_SEED_seed j) (s.step j) (decide (s.fld NUM_CTRL_rounding j = 1)) fmt
        (auxBits f 12 13) scaled (2 ^ bits f.imm.toNat 32 35) ((s.sreg i f.fc).toNat % 2 ^ 32) (s.sreg i f.fd).toNat
        (s.sreg i f.fe).toNat ((s.sreg i f.ff).toNat % 256)
        ((List.range n).map (fun q => leNat (rdN (s.tile i.tile).vrf (256 * v + 8 * q) 8) % 2 ^ 64))).map (·.conv.code)) 0)
      (n * fmtBits fmt)) (v, regsOf (8 * n)) tensors loss grad) i)

/-- A load or store reads or writes the scratchpad line by line, in as many accesses as have been granted. With accesses still
to come it stays in flight, and registers and descriptors stand. Once all have been granted it leaves the tile's list: LD and LDT
have written the register file, ST and STS the scratchpad, LDS its register and VDL its descriptor; every other byte of the
register file and the scratchpad, and every other tile, is as it was. A store writes the lines that are still to be granted. -/
def Sys2Proof.Claims.LoadStoreEffects : Prop :=
  ∀ (t : Fin 1024) (n g : Nat) (s : State) (l : LsOp), (s.tile t).ls[n]? = some l → s.partsWf = true →
    (s.tile t).wf = true → s.blocksRun = true →
    (l.granted + g < l.kind.accesses.length → ∃ u y, exec (.loadStoreComplete t n g) s = .next u ∧
      (u.tile t).ls = modFirst (fun z => decide (z.op = l.op)) (fun _ => y) (s.tile t).ls ∧ y.granted = l.granted + g ∧ y.kind = l.kind ∧
      y.holds = l.holds ∧ (u.tile t).vrf = (s.tile t).vrf ∧ (u.tile t).descs = (s.tile t).descs ∧
      ((∀ a data nbits, l.kind ≠ .st a data nbits) → (u.tile t).spad = (s.tile t).spad) ∧ ∀ x : Nat, x ≠ t → u.tile x = s.tile x) ∧
    (l.granted = 0 → l.buf = [] → l.kind.accesses.length ≤ g → ∃ u, exec (.loadStoreComplete t n g) s = .next u ∧
      (u.tile t).ls = (s.tile t).ls.filter (fun y => y.op ≠ l.op) ∧ (∀ x : Nat, x ≠ t → u.tile x = s.tile x) ∧
      match l.kind with
      | .ld a base k => (u.tile t).spad = (s.tile t).spad ∧ (u.tile t).descs = (s.tile t).descs ∧
          ∀ x, rd (u.tile t).vrf x = if base ≤ x ∧ x < base + k then rd (s.tile t).spad (a + (x - base)) else rd (s.tile t).vrf x
      | .ldt a pitch base k => (u.tile t).spad = (s.tile t).spad ∧ (u.tile t).descs = (s.tile t).descs ∧
          ∀ x, rd (u.tile t).vrf x = if base ≤ x ∧ x < base + 32 * k
            then rd (s.tile t).spad ((a + (x - base) % 32 / 2 * pitch.toNat) % 2 ^ 64 + 2 * ((x - base) / 32) + (x - base) % 2)
            else rd (s.tile t).vrf x
      | .st a data nbits => (u.tile t).vrf = (s.tile t).vrf ∧ (u.tile t).descs = (s.tile t).descs ∧
          (nbits = 8 * data.length → ∀ x, rd (u.tile t).spad x = if a ≤ x ∧ x < a + data.length then data.getD (x - a) 0 else rd (s.tile t).spad x)
      | .lds a k sgn sd => (u.tile t).vrf = (s.tile t).vrf ∧ (u.tile t).spad = (s.tile t).spad ∧ (u.tile t).descs = (s.tile t).descs ∧
          (l.ctx < 3 → 0 < sd →
            ((u.tile t).ctx l.ctx).sreg sd = BitVec.ofNat 64 (if sgn then unsigned 64 (signed (8 * k) (leNat (rdN (s.tile t).spad a k)))
              else leNat (rdN (s.tile t).spad a k)))
      | .vdl a slot => (u.tile t).vrf = (s.tile t).vrf ∧ (u.tile t).spad = (s.tile t).spad ∧
          (u.tile t).descs = store (s.tile t).descs slot (BitVec.ofNat 256 (leNat (rdN (s.tile t).spad a 32))) 0) ∧
    (∀ a data nbits, l.kind = .st a data nbits → nbits = 8 * data.length → l.kind.accesses.length ≤ l.granted + g →
      ∃ u, exec (.loadStoreComplete t n g) s = .next u ∧ (u.tile t).ls = (s.tile t).ls.filter (fun y => y.op ≠ l.op) ∧
        (u.tile t).vrf = (s.tile t).vrf ∧
        ∀ x, rd (u.tile t).spad x = if (l.kind.accesses.drop l.granted).any (fun p => decide (p.1 ≤ x ∧ x < p.1 + p.2)) then data.getD (x - a) 0
          else rd (s.tile t).spad x)


/-- An access that does not lie within the 256 KiB scratchpad, or a register range past v63, is rejected with code RANGE; a
descriptor address that is no multiple of 32 with code ALIGN (Table PRG-7). -/
def Sys2Proof.Claims.RangesRejected : Prop :=
  ∀ (i : At) (f : LayR) (s : State),
    let a := effAddr (s.sreg i f.fb) f.imm
    (unusedZero f { b := true, aux := lsAux, imm := immAll } = true → s.sregBusy i [f.fb] = false →
      (16384 < 256 * lsReg f + lsLen f ∨ 262144 < a + lsLen f) →
      (Issues (.ld i f) s i → exec (.ld i f) s = .next (rejectAt s i.tile i.ctx (s.ctxOf i).index 5)) ∧
      (Issues (.st i f) s i → exec (.st i f) s = .next (rejectAt s i.tile i.ctx (s.ctxOf i).index 5))) ∧
    (Issues (.vdl i f) s i → unusedZero f { b := true, aux := 31, imm := immAll } = true → s.sregBusy i [f.fb] = false → a + 32 ≤ 262144 → a % 32 ≠ 0 →
      exec (.vdl i f) s = .next (rejectAt s i.tile i.ctx (s.ctxOf i).index 6))

/-- Loads and stores of vector registers and of scalar registers issue. The model's choices in it: log entry 11 (an instruction command
carries its fields); log entry 12 (order of the checks). -/
def Obligations.LoadsIssue : Prop :=
  Sys2Proof.Claims.WideLoadsIssue ∧ Sys2Proof.Claims.ScalarLoadsIssue

/-- What STC stores, and what every load and store does when it completes. The model's choices in it: log entry 10 (accesses granted by
now). -/
def Obligations.LoadsAndStores : Prop :=
  Sys2Proof.Claims.StoreConverted ∧ Sys2Proof.Claims.LoadStoreEffects

/-! ## Tile instructions: matrix and vector (R34, R40 to R43, R82 to R101, R121) -/

/-- The three matrix instructions with the axis each reads. -/
def Sys2Proof.Machine.mmRowsOf : List ((At → LayMM → Instr) × MmKind) := [(.mmw, .warp), (.mmf, .weft), (.mmd, .diag)]

/-- MMW, MMF and MMD issue when they break no rule of Table PRG-7, no other matrix instruction of the tile waits to stream, their sources
are no busy results and their destination is free: the instruction stands last in the tile's list, not yet streaming, its registers held. An
MMW or MMF loads its stationary blocks: into the shadow registers of an array that an instruction in flight uses, else straight into its
live registers. The model's choices in it: log entry 11 (what waits at issue); log entry 12 (order of the checks); log entry 35 (scale
registers as sources). -/
def Obligations.MatrixIssue : Prop :=
  (∀ row ∈ mmRowsOf, ∀ (i : At) (l : LayMM) (s : State), Ready (row.1 i l) s i →
    mmReject row.2 l (s.kl5 i.tile) (s.sreg i l.xaddr).toNat = none → s.sregBusy i [l.xaddr] = false →
    (∀ m ∈ (s.tile i.tile).mms, m.streaming = true) →
    s.readable i.tile ((mmSpans row.2 l).map (fun p => (p.1, regsOf p.2))) = true →
    s.writable i.tile [(l.dbase.toNat, l.dcount.toNat + 1)] = true →
    let x := s.tile i.tile
    ∃ m : MmOp, exec (row.1 i l) s = .next (issuedAt (s.nextIndex i)
        (s.setTile i.tile { (if row.2 = .diag then x else loadBlocks x l) with opNext := x.opNext + 1, mms := x.mms ++ [m] }) i) ∧
      m.op = x.opNext ∧ m.ctx = i.ctx ∧ m.index = (s.ctxOf i).index ∧ m.kind = row.2 ∧ m.lay = l ∧ m.streaming = false ∧ m.ended = false ∧
      m.fed = [] ∧ m.xaddr = (s.sreg i l.xaddr).toNat ∧ (∀ r, r ∈ m.srcs ++ m.streams ↔ r ∈ (mmSpans row.2 l).map (fun p => (p.1, regsOf p.2)))) ∧
  (∀ (x : Tile) (l : LayMM), x.wf = true →
    (loadBlocks x l).vrf = x.vrf ∧ (loadBlocks x l).spad = x.spad ∧
    (∀ a, a ∉ LayMM.chain l → look (loadBlocks x l).live a Stat.reset = look x.live a Stat.reset ∧
      look (loadBlocks x l).shadow a none = look x.shadow a none) ∧
    ∀ (p a : Nat), (LayMM.chain l)[p]? = some a →
      ((∃ m ∈ x.mms, a ∈ LayMM.chain m.lay) → look (loadBlocks x l).live a Stat.reset = look x.live a Stat.reset ∧
        look (loadBlocks x l).shadow a none = some (blockOf x.vrf l p)) ∧
      ((∀ m ∈ x.mms, a ∉ LayMM.chain m.lay) → look (loadBlocks x l).live a Stat.reset = blockOf x.vrf l p ∧
        look (loadBlocks x l).shadow a none = look x.shadow a none))

/-- Rejections of matrix instructions (Table PRG-7): a reserved format code; under KL5-EXACT a format or scale it does not permit;
INT8 or FP64 paired with another format; no array selected. -/
def Sys2Proof.Claims.MatrixRejected : Prop :=
  ∀ row ∈ mmRowsOf, ∀ (i : At) (l : LayMM) (s : State), Issues (row.1 i l) s i → s.sregBusy i [l.xaddr] = false → mmUnusedZero row.2 l = true →
    let no (c : Nat) : Prop := exec (row.1 i l) s = .next (rejectAt s i.tile i.ctx (s.ctxOf i).index c)
    ((10 ≤ l.sfmt.toNat ∨ 10 ≤ l.xfmt.toNat) → no 2) ∧
    (l.sfmt.toNat < 10 → l.xfmt.toNat < 10 → s.kl5 i.tile = true →
      (l.sfmt.toNat < 3 ∨ l.sfmt.toNat = 9 ∨ l.xfmt.toNat < 3 ∨ l.xfmt.toNat = 9 ∨ l.smx = 1 ∨ l.xmx = 1) → no 4) ∧
    (l.smx = 0 → l.xmx = 0 → s.kl5 i.tile = false → l.sfmt.toNat < 10 → l.xfmt.toNat < 10 → l.sfmt ≠ l.xfmt →
      (l.sfmt = 5 ∨ l.sfmt = 9 ∨ l.xfmt = 5 ∨ l.xfmt = 9) → no 3) ∧
    (l.smx = 0 → l.xmx = 0 → s.kl5 i.tile = false → l.sfmt = 6 → l.xfmt = 6 → l.arrays = 0 → no 5)

/-- A matrix instruction that waits begins to stream unless a change of axis or a change between FP64 and other formats makes it
wait for what streams: the stream before has ended and what it computes is fixed, and the cells of its arrays swap in the blocks
of their shadow registers. Completion waits for the accesses of a stream from the scratchpad; it makes the results readable and
ends the hold on registers. -/
def Sys2Proof.Claims.MatrixStreams : Prop :=
  ∀ (t : Fin 1024) (s : State) (m : MmOp), s.partsWf = true → s.blocksRun = true →
    ((s.tile t).wf = true → (s.tile t).mms.find? (fun x => !x.streaming) = some m →
      (∀ y ∈ (s.tile t).mms, y.streaming = true → y.kind = m.kind ∧ (y.lay.sfmt.toNat = 9 ↔ m.lay.sfmt.toNat = 9)) →
      ∃ u, exec (.mmStreamStart t) s = .next u ∧
        (u.tile t).mms = modFirst (fun y => decide (y.op = m.op)) (fun y => { y with streaming := true })
          ((s.tile t).mms.map (endStream t (s.kl5 t) (s.tile t))) ∧
        (∀ a, look (u.tile t).live a Stat.reset = if m.kind ≠ .diag ∧ a ∈ LayMM.chain m.lay
          then (look (s.tile t).shadow a none).getD (look (s.tile t).live a Stat.reset) else look (s.tile t).live a Stat.reset) ∧
        (u.tile t).vrf = (s.tile t).vrf ∧ (u.tile t).spad = (s.tile t).spad ∧ ∀ x : Nat, x ≠ t → u.tile x = s.tile x) ∧
    ((s.tile t).mms.find? (·.streaming) = some m → ∀ n,
      (n < m.unfed.length → ∃ u, exec (.mmComplete t n) s = .next u ∧
        (u.tile t).mms = modFirst (fun y => decide (y.op = m.op)) (fun y => y.feed (s.tile t).spad n) (s.tile t).mms ∧
        (u.tile t).vrf = (s.tile t).vrf ∧ (u.tile t).spad = (s.tile t).spad ∧ ∀ x : Nat, x ≠ t → u.tile x = s.tile x) ∧
      (m.unfed.length ≤ n → let r := (endStream t (s.kl5 t) (s.tile t) m).result
        ∃ u, exec (.mmComplete t n) s = .next u ∧ (u.tile t).mms = (s.tile t).mms.filter (fun y => y.op ≠ m.op) ∧
        (u.tile t).vrf = wrAll (s.tile t).vrf r.bytes ∧ (u.tile t).spad = (s.tile t).spad ∧
        (u.tile t).excs = (s.tile t).excs ++ r.excs ∧ ∀ x : Nat, x ≠ t → u.tile x = s.tile x))

/-- What a matrix instruction writes lies in its destination: 128 bytes a slot from register dbase, two slots a register. -/
def Sys2Proof.Claims.MatrixWritesDestination : Prop :=
  ∀ (tile frame : Nat) (kl5 : Bool) (x : Tile) (m : MmOp),
    ∀ p ∈ (mmResult tile frame kl5 x m).bytes,
      256 * m.lay.dbase.toNat ≤ p.1 ∧ p.1 < 256 * (m.lay.dbase.toNat + m.lay.dcount.toNat + 1)

/-- VCR issues when its descriptor breaks no rule, no descriptor load in flight names its slot, and what it reads and writes is free:
descriptor, scalars and predicate are taken as they stand. The model's choices in it: log entry 11 (what waits at issue); log entry 12
(order of the checks); log entry 42 (reserved aux codes); log entry 110 (a descriptor load in flight). -/
def Obligations.VectorIssue : Prop :=
  ∀ (i : At) (l : LayVC) (s : State), Ready (.vcr i l) s i →
    let d := look (s.tile i.tile).descs l.slot.toNat 0
    let h := chainOf d.toNat
    let srcs := (vcSpans h l).map (fun p => (p.1, regsOf ((p.2 + 7) / 8)))
    vcReject l h = none → (∀ x ∈ (s.tile i.tile).ls, ∀ a k, x.kind = .vdl a k → k ≠ l.slot.toNat) →
    s.sregBusy i (h.scalars l) = false → s.readable i.tile srcs = true →
    s.writable i.tile [(l.dbase.toNat, regsOf ((resultBits h (vcN l) + 7) / 8))] = true →
    s.predBusy i.tile l.pred.toNat = false → (∀ p ∈ h.predsOut, s.predBusy i.tile p = false) →
    ∃ o : VcOp, exec (.vcr i l) s = .next (issuedAt (s.nextIndex i)
        (s.setTile i.tile { (s.tile i.tile) with opNext := (s.tile i.tile).opNext + 1, vcs := (s.tile i.tile).vcs ++ [o] }) i) ∧
      o.lay = l ∧ o.desc = d ∧ o.k0 = s.sreg i l.k0 ∧ o.k1 = s.sreg i l.k1 ∧ o.tid = s.sreg i l.tid ∧ o.e0 = s.sreg i l.e0 ∧
      o.g = s.sreg i l.g ∧ o.mask = (s.tile i.tile).pred l.pred.toNat ∧ o.streaming = false ∧ o.ended = false ∧ o.srcs = srcs

/-- The oldest chain that has not started reads its operands, and those before have read theirs; at completion its result stands in the register file and its
predicates are written, each in the bits that the chain computed. -/
def Sys2Proof.Claims.ChainRuns : Prop :=
  ∀ (t : Fin 1024) (s : State) (o : VcOp), s.partsWf = true → s.blocksRun = true →
    ((s.tile t).vcs.find? (fun x => !x.streaming) = some o →
      ∃ u r, exec (.vcStart t) s = .next u ∧
        (u.tile t).vcs = modFirst (fun y => decide (y.op = o.op)) (fun y => { y with streaming := true, result := r })
          ((s.tile t).vcs.map (fun y => { y with ended := y.streaming })) ∧
        r.bytes = (vcResult t ((s.tile t).frame - 1) (s.fld NUM_SEED_seed ((s.jobOfTile t).getD 0)) (s.step ((s.jobOfTile t).getD 0))
          (decide (s.fld NUM_CTRL_rounding ((s.jobOfTile t).getD 0) = 1)) (s.tile t).vrf o).bytes ∧
        (u.tile t).vrf = (s.tile t).vrf ∧ ∀ x : Nat, x ≠ t → u.tile x = s.tile x) ∧
    ((s.tile t).vcs.find? (·.streaming) = some o →
      ∃ u, exec (.vcComplete t) s = .next u ∧ (u.tile t).vcs = (s.tile t).vcs.filter (fun y => y.op ≠ o.op) ∧
        (u.tile t).vrf = wrAll (s.tile t).vrf o.result.bytes ∧ (u.tile t).spad = (s.tile t).spad ∧
        (o.result.preds = [] → (u.tile t).preds = (s.tile t).preds) ∧
        (∀ p m v, o.result.preds = [(p, m, v)] → 0 < p → (s.tile t).wf = true →
          (u.tile t).pred p = ((s.tile t).pred p &&& ~~~m) ||| (v &&& m)) ∧
        ∀ x : Nat, x ≠ t → u.tile x = s.tile x)

/-- The update programs (R158): every chain of SGD with momentum, AdamW and Lion is one that VCR accepts, and what the chains make of one
element's master weight, optimiser state, moving average and gradient is, bit for bit, what the reference of the program makes of them;
the working copy is the new weight converted with the weight-update tag. -/
def Sys2Proof.Claims.UpdatePrograms : Prop :=
  ∀ (fmt seed step tid e0 g : Nat) (update : Bool) (p : UpdConst → BitVec 32) (w m v e grad : BitVec 32), fmt < 10 →
    let x : UpdElem := ⟨fp32 w.toNat, fp32 m.toNat, fp32 v.toNat, fp32 e.toNat, fp32 grad.toNat⟩
    let env : UpdVar → List XVal
      | .w => [x.w]
      | .m => [x.m]
      | .v => [x.v]
      | .e => [x.e]
      | .g => [x.g]
      | _ => []
    let made (prog : List UpdStep) (r : UpdElem) : Prop :=
      (∀ k ∈ prog, ∀ n, 0 < n → n ≤ 4096 → chainReject (chainOf k.desc) n = none) ∧
        let u := runUpdate (fun k => (p k).toNat) seed step tid e0 g update prog env
        u .newW = [r.w] ∧ u .newM = [r.m] ∧ u .newE = [r.e] ∧ u .q = [decodeFmt fmt false (cvtSr fmt seed step tid (logicalIndex e0 g 16 0) r.w)]
    let c (k : UpdConst) : XVal := fp32 (p k).toNat
    made (sgdmProgram fmt) (sgdmRef c x) ∧ made (adamwProgram fmt) (adamwRef c x) ∧ made (lionProgram fmt) (lionRef c x) ∧
      runUpdate (fun k => (p k).toNat) seed step tid e0 g update (adamwProgram fmt) env .newV = [(adamwRef c x).v]

/-- A vector chain reads its operands and writes its result, and the update programs compute what their references say. The model's choices
in it: log entry 10 (the result is fixed at the start); log entry 18 (where working copies stand); log entry 124 (order of the parameter
block). -/
def Obligations.VectorRuns : Prop :=
  Sys2Proof.Claims.ChainRuns ∧ Sys2Proof.Claims.UpdatePrograms

/-- A matrix instruction streams, completes, and writes its destination registers and nothing else of the register file. The model's choices
in it: log entry 10 (accesses granted by now); log entry 106 (rows past the last slot); log entry 108 (the column exponent). -/
def Obligations.MatrixResults : Prop :=
  Sys2Proof.Claims.MatrixStreams ∧ Sys2Proof.Claims.MatrixWritesDestination

/-! ## Tile instructions: transfers (R124, R125, R169, R170, R202 to R208) -/

/-- The transfers of one direction that a tile has in flight. -/
def Sys2Proof.Machine.dmasOf (x : Tile) (out : Bool) : List Async :=
  x.asyncs.filter (fun a => match a.kind with
    | .dma e => decide (e.out = out)
    | _ => false)

/-- The operands of a DIN or DOUT as its registers and fields give them. -/
def Sys2Proof.Machine.dmaOf (out : Bool) (i : At) (f : LayR) (s : State) : Dma :=
  { out := out, spad := s.sreg i f.fa, mem := s.sreg i f.fb, len := s.sreg i f.fc, mpitch := s.sreg i f.fd, spitch := s.sreg i f.fe,
    rows := f.aux.toNat / 1024 + 1, codec := f.aux.getLsbD 1, imem := f.aux.getLsbD 0, blocks := 0 }

/-- DIN and DOUT start a transfer when they break no rule and their engine runs fewer than 16: the transfer stands in flight with its event,
its rows still to move. A codec DOUT with a HELD slot queues its blocks there. The model's choices in it: log entry 39 (queue windows); log
entry 40 (block boundaries of codec transfers). -/
def Obligations.TransferIssue : Prop :=
  ∀ (i : At) (f : LayR) (s : State), s.sregBusy i [f.fa, f.fb, f.fc, f.fd, f.fe] = false →
    let j := s.jobAt i
    let mode := s.fld MEM_CODEC_CFG_mode j
    let a (d : Dma) : Async :=
      { id := (s.tile i.tile).asyncId, ctx := i.ctx, index := (s.ctxOf i).index, kind := .dma d, event := f.aux.toNat / 32 % 32,
        done := 0, status := 0, part := 0, buf := [] }
    (Ready (.din i f) s i → unusedZero f { a := true, b := true, c := true, d := true, e := true, aux := 0x3FFFFE3 } = true →
      dmaReject (s.job j).mask.toNat mode (dmaOf false i f s) = none → (dmasOf (s.tile i.tile) false).length < 16 →
      exec (.din i f) s = .next (issuedAt (s.nextIndex i)
        (s.modTile i.tile (fun x => { x with asyncs := x.asyncs ++ [a (dmaOf false i f s)] })) i)) ∧
    (Ready (.dout i f) s i → unusedZero f { a := true, b := true, c := true, d := true, e := true, aux := 0x3FFFFE2 } = true →
      dmaReject (s.job j).mask.toNat mode (dmaOf true i f s) = none → (dmasOf (s.tile i.tile) true).length < 16 →
      let slot := (s.sreg i f.fc).toNat / 2 ^ 60
      let d := dmaOf true i f s
      let n := d.rows * (d.rowLen / 128)
      (f.aux.getLsbD 1 = false ∨ ((s.job j).slot slot).st ≠ .held →
        exec (.dout i f) s = .next (issuedAt (s.nextIndex i) (s.modTile i.tile (fun x => { x with asyncs := x.asyncs ++ [a d] })) i)) ∧
      (f.aux.getLsbD 1 = true → ((s.job j).slot slot).st = .held →
        exec (.dout i f) s = .next (issuedAt (s.nextIndex i)
          ((s.modSlot j slot (fun c => { c with queued := c.queued + n })).modTile i.tile (fun x => { x with
            asyncs := x.asyncs ++ [a { d with blocks := n }] })) i)))

/-- A DIN without codec whose rows lie in DRAM, no line of them uncorrectable, has moved every row into the scratchpad, or into the
instruction memory, once all its accesses are granted: its event has counted, it stands in flight no longer, and DRAM is unchanged.
It waits while a channel that holds one of them makes no progress. -/
def Sys2Proof.Claims.InboundMoves : Prop :=
  ∀ (t : Fin 1024) (id n : Nat) (s : State) (a : Async) (d : Dma) (j : Nat), s.halted (s.phys t) = false →
    (s.tile t).asyncs.find? (fun x => decide (x.id = id)) = some a → a.kind = .dma d → s.jobOfTile t = some j →
    d.out = false → d.codec = false → a.done = 0 → a.part = 0 → a.status = 0 → s.ue = [] → s.partsWf = true → s.blocksRun = true →
    0 < d.rowLen → d.total ≤ n →
    (∀ r ∈ d.rowsAt, r.2 + d.rowLen ≤ 4 * quarter) →
    (s.rowsStopped j a d = true → exec (.dmaComplete t id n) s = .next s) ∧
    (s.rowsStopped j a d = false → ∃ u, exec (.dmaComplete t id n) s = .next u ∧ u.dram = s.dram ∧
      (u.tile t).asyncs = (s.tile t).asyncs.filter (fun x => x.id ≠ id) ∧
      (d.imem = false → (u.tile t).imem = (s.tile t).imem ∧
        (u.tile t).spad = d.rowsAt.foldl (fun m r => wrN m r.1 (rdN s.dram r.2 d.rowLen)) (s.tile t).spad) ∧
      (d.imem = true → (u.tile t).spad = (s.tile t).spad ∧
        (u.tile t).imem = d.rowsAt.foldl (fun m r => wrN m r.1 (rdN s.dram r.2 d.rowLen)) (s.tile t).imem) ∧
      ((s.tile t).evadds = [] → (s.tile t).wf = true →
        ∀ e, (u.tile t).event e = if e = a.event then (s.tile t).event e + 1 else (s.tile t).event e))

/-- A DOUT of one row of 64 bytes to a device queue waits while the queue is full; once QUEUE_ROOM or DMA_COMPLETE finds room its
row enters at the end of the queue, with the tile, context and index it came from, and the transfer is done. -/
def Sys2Proof.Claims.QueueEntry : Prop :=
  ∀ (t : Fin 1024) (id : Nat) (s : State) (a : Async) (d : Dma) (j : Nat) (q k : Nat), s.halted (s.phys t) = false →
    (s.tile t).asyncs.find? (fun x => decide (x.id = id)) = some a → a.kind = .dma d → s.jobOfTile t = some j →
    d.out = true → d.codec = false → d.rows = 1 → d.rowLen = 64 → a.done = 0 → a.part = 0 → a.status = 0 → q < 4 → k < 3 →
    d.mem.toNat = queueBase + 0x10000 * q + 0x1000 * k → s.partsWf = true → s.blocksRun = true →
    ((256 ≤ ((s.dom q).queue k).length →
        ∃ u, exec (.queueRoom t id) s = .next u ∧ u.dom q = s.dom q ∧ (u.tile t).asyncs.map (·.id) = (s.tile t).asyncs.map (·.id)) ∧
      (((s.dom q).queue k).length < 256 → ∀ c ∈ [Instr.queueRoom t id, .dmaComplete t id 1],
        ∃ u, exec c s = .next u ∧
          (u.dom q).queue k = (s.dom q).queue k ++ [⟨t, a.ctx, a.index, rdN (s.tile t).spad d.spad.toNat 64⟩] ∧
          (u.tile t).asyncs = (s.tile t).asyncs.filter (fun x => x.id ≠ id)))

/-- PUT and GET start a transfer of 1 byte to 64 MiB between the job's own addresses and an address of another device: numbered in its
stream, its packets leave; one to a device that has no route completes at once with an error. The model's choices in it: log entry 2 (free
values); log entry 69 (transfers to the own index). -/
def Obligations.PutGetIssue : Prop :=
  ∀ (i : At) (f : LayR) (s : State) (get : Bool), Ready (if get then .get i f else .put i f) s i → s.sregBusy i [f.fa, f.fb, f.fc] = false →
    let j := s.jobAt i
    let here := (s.sreg i f.fa).toNat
    let g := (s.sreg i f.fb).toNat
    let n := (s.sreg i f.fc).toNat
    let a : Async :=
      { id := (s.tile i.tile).asyncId, ctx := i.ctx, index := (s.ctxOf i).index,
        kind := if get then .get else .put (f.aux.toNat % 4), event := f.aux.toNat / 4 % 32, done := 0, status := 0,
        part := 0, buf := [] }
    let s' := s.modTile i.tile (fun x => { x with asyncs := x.asyncs ++ [a] })
    unusedZero f { a := true, b := true, c := true, aux := if get then 0x7F else if f.aux.getLsbD 7 then 0x7FFFFF else 0xFF } = true →
    0 < n → n ≤ 2 ^ 26 → inJob (s.job j).mask.toNat here n = true →
    ((s.tile i.tile).asyncs.filter (fun a => match a.kind with
      | .put _ => true
      | .get => true
      | _ => false)).length < 64 →
    (s.noRoute j g n = true → exec (if get then .get i f else .put i f) s =
      .next (issuedAt (s.nextIndex i) (asyncDone s' i.tile (s.tile i.tile).asyncId 8) i)) ∧
    (s.noRoute j g n = false → s.ue = [] → ∃ y : Xfer,
      exec (if get then .get i f else .put i f) s = .next (issuedAt (s.nextIndex i) (startXfer s' y) i) ∧
      y.job = j ∧ y.tile = i.tile ∧ y.async = (s.tile i.tile).asyncId ∧ y.get = get ∧ y.cls = f.aux.toNat % 4 ∧ y.len = n ∧
      y.dst.toNat = g / 2 ^ 42 % 4096 ∧
      (get = false → y.data = (s'.readAt here n).1 ∧ y.dstAddr.toNat = g % 2 ^ 42) ∧
      (get = true → y.srcAddr.toNat = g % 2 ^ 42 ∧ y.dstAddr.toNat = here))

/-! ## Tile instructions: events, fences, barriers (R130 to R134, R249) -/

/-- EVSET writes a counter, EVADD counts its value in the order of its context, WAIT and FENCE hold their context until their
condition is met: the value is the register's low 32 bits or the immediate's. -/
def Sys2Proof.Claims.Events : Prop :=
  ∀ (i : At) (f : LayR) (s : State) (imm : Bool), f.aux.getLsbD 5 = imm →
    let e := f.aux.toNat % 32
    let v : BitVec 32 := if imm then f.imm.setWidth 32 else (s.sreg i f.fb).setWidth 32
    (unusedZero f { b := !imm, aux := 0x3F, imm := if imm then 0xFFFFFFFF else 0 } = true →
      s.sregBusy i [if imm then 0 else f.fb] = false →
      (Ready (.evset i f) s i →
        exec (.evset i f) s = .next (issuedAt (s.nextIndex i) (s.modTile i.tile (fun x => { x with events := store x.events e v 0 })) i)) ∧
      (Ready (.evadd i f) s i → exec (.evadd i f) s = .next (issuedAt (s.nextIndex i) (s.modTile i.tile (fun x => { x with
        opNext := x.opNext + 1, evadds := x.evadds ++ [(x.opNext, (i.ctx : Nat), e, v)] })) i)) ∧
      (Ready (.wait i f) s i → exec (.wait i f) s = .next (issuedAt (s.nextIndex i) (s.modTile i.tile (fun x => x.modCtx i.ctx (fun y => { y with
        run := .wait e v }))) i))) ∧
    (Ready (.fence i f) s i → unusedZero f { aux := 0xFF } = true →
      exec (.fence i f) s = .next (issuedAt (s.nextIndex i) (s.modTile i.tile (fun x => x.modCtx i.ctx (fun y => { y with
        run := .fence (f.aux.setWidth 8) }))) i))

/-- A context goes on when the event counter has reached the value, the signed difference deciding (R130), or when nothing its
fence covers is in flight; a fence of mask zero holds nothing. -/
def Sys2Proof.Claims.WaitsResume : Prop :=
  ∀ (x : Tile) (c : Nat), c < 3 →
    (∀ e v, (x.ctx c).run = .wait e v →
      ((x.resume c).ctx c).run = if 0 ≤ (look x.events e 0 - v).toInt then .running else .wait e v) ∧
    ((x.ctx c).run = .fence 0 → ((x.resume c).ctx c).run = .running) ∧
    (∀ m : BitVec 8, (x.ctx c).run = .fence m → m.getLsbD 1 = true → (∃ a ∈ x.asyncs, a.ctx = c ∧ ∃ d, a.kind = .dma d) →
      ((x.resume c).ctx c).run = .fence m)

/-- SYNC arrives at its barrier: one of the first count - 1 contexts of a generation waits there, the last one sets every waiting
context of the job going and the barrier is as new (R134). -/
def Sys2Proof.Claims.Barriers : Prop :=
  ∀ (i : At) (f : LayR) (s : State) (imm : Bool), Ready (.sync i f) s i → f.aux.getLsbD 5 = imm →
    unusedZero f { b := !imm, aux := 0x2F, imm := if imm then 0xFFFFFFFF else 0 } = true →
    s.sregBusy i [if imm then 0 else f.fb] = false →
    let b := f.aux.toNat % 16
    let n := if imm then f.imm.toNat % 2 ^ 32 else (s.sreg i f.fb).toNat
    let j := s.jobAt i
    let g := look (s.job j).barriers b (0, 0)
    let s' := s.modTile i.tile (fun x => x.modCtx i.ctx (fun y => { y with run := .sync b }))
    0 < n → n ≤ 3072 →
    ((g.1 = 0 ∨ g.1 = n) → g.2 + 1 < n → exec (.sync i f) s = .next (issuedAt (s.nextIndex i)
      (s'.modJob j (fun x => { x with barriers := store x.barriers b (n, g.2 + 1) (0, 0) })) i)) ∧
    ((g.1 = 0 ∨ g.1 = n) → g.2 + 1 = n → exec (.sync i f) s = .next (issuedAt (s.nextIndex i)
      (resumeWhere (s'.modJob j (fun x => { x with barriers := store x.barriers b (0, 0) (0, 0) })) j (fun r => decide (r = .sync b))) i)) ∧
    (g.1 ≠ 0 → g.1 ≠ n → exec (.sync i f) s = .next (rejectAt s i.tile i.ctx (s.ctxOf i).index 12))

/-- Inbound rows land, and descriptors enter the queues of the stack domains in order. The model's choices in it: log entry 10 (accesses
granted by now); log entry 39 (rows in queue windows). -/
def Obligations.QueueMoves : Prop :=
  Sys2Proof.Claims.InboundMoves ∧ Sys2Proof.Claims.QueueEntry

/-- Events count, waits end when their condition holds, and barriers release the tiles that have arrived. The model's choices in it: log
entry 13 (only waits that block are released); log entry 41 (counts of SYNC). -/
def Obligations.EventsAndBarriers : Prop :=
  Sys2Proof.Claims.Events ∧ Sys2Proof.Claims.WaitsResume ∧ Sys2Proof.Claims.Barriers

/-- CEFENCE holds its context until every collective of an earlier layout epoch has completed or been abandoned. CLAUNCH of a well-formed
collective puts it in the job's list, not yet started, with the operands of its registers; a bucket takes the next bucket number's place. A
launch that breaks a rule completes with an error and CXE_STATUS counts it (R224 to R228, R249). The model's choices in it: log entry 12
(order of the checks). -/
def Obligations.CollectiveInstructions : Prop :=
  ∀ (i : At) (f : LayR) (s : State),
    let j := s.jobAt i
    (Ready (.cefence i f) s i → unusedZero f { b := true } = true → s.sregBusy i [f.fb] = false →
      exec (.cefence i f) s = .next (issuedAt (s.nextIndex i) (resumeCefence (s.modTile i.tile (fun x => x.modCtx i.ctx (fun y => { y with
        run := .cefence (s.sreg i f.fb) }))) j) i)) ∧
    (Ready (.claunch i f) s i → unusedZero f { a := true, b := true, c := true, d := true, e := true, aux := 0x7FFF } = true → auxBits f 2 5 < 10 →
      s.sregBusy i [f.fa, f.fb, f.fc, f.fd, f.fe] = false →
      ((s.tile i.tile).asyncs.filter (fun a => decide (a.kind = .launch))).length < 4 →
      let w := s.sreg i f.fd
      let a : Async :=
        { id := (s.tile i.tile).asyncId, ctx := i.ctx, index := (s.ctxOf i).index, kind := .launch, event := auxBits f 10 14, done := 0,
          status := 0, part := 0, buf := [] }
      let s' := s.modTile i.tile (fun x => { x with asyncs := x.asyncs ++ [a] })
      ∃ c : Coll, c.cid = w.setWidth 32 ∧ c.tile = i.tile ∧ c.async = a.id ∧ c.op.toNat = f.aux.toNat % 4 ∧
        c.fmt.toNat = auxBits f 2 5 ∧ c.dims.toNat = auxBits f 6 9 ∧ c.src = (s.sreg i f.fa).toNat ∧ c.dst = (s.sreg i f.fb).toNat ∧
        c.len = (s.sreg i f.fc).toNat ∧ c.root.toNat = (s.sreg i f.fe).toNat % 4096 ∧ c.bucket = w.getLsbD 63 ∧
        c.bucketNo = bits w.toNat 32 47 ∧ c.phase = .waiting ∧
        (badLaunch s' j c w = true → exec (.claunch i f) s =
          .next (issuedAt (s.nextIndex i) (asyncDone (s'.count CXE_STATUS_err 1 j) i.tile a.id 3) i)) ∧
        (badLaunch s' j c w = false → exec (.claunch i f) s = .next (issuedAt (s.nextIndex i) (s'.modJob j (fun x => { x with
          colls := x.colls ++ [c], bucketNext := x.bucketNext + (if c.bucket then 1 else 0),
          led := { x.led with buckets := x.led.buckets + (if c.bucket then 1 else 0) } })) i)))

/-- SCOMMIT, SABORT, DCLOSE and DSTAT on context 2 of a lead tile: SCOMMIT of the step being computed holds its context for the vote, SABORT
aborts with its program reason, DCLOSE of the round whose last step has committed stands in flight until the close has read live state (at
once, when it has done so already), and DSTAT reads the current round, the last sealed round, or whether an anchor awaits installation
(R117, R126, R127). The model's choices in it: log entry 2 (bytes of a round before round 0). -/
def Obligations.StepInstructions : Prop :=
  ∀ (i : At) (f : LayR) (s : State), s.isLead i.tile = true → i.ctx = 2 →
    let j := s.jobAt i
    let r := s.sreg i f.fb
    (Ready (.scommit i f) s i → unusedZero f { a := true, b := true } = true → s.sregBusy i [f.fa, f.fb] = false → r.toNat = s.step j →
      exec (.scommit i f) s = .next (issuedAt (s.nextIndex i) (s.modTile i.tile (fun x => x.modCtx i.ctx (fun y => { y with
        run := .scommit f.fa.toNat }))) i)) ∧
    (Ready (.sabort i f) s i → unusedZero f { b := true, aux := 0xFF } = true → s.sregBusy i [f.fb] = false → r.toNat = s.step j →
      exec (.sabort i f) s = .next (issuedAt (s.nextIndex i) (raiseAbort s j 4 (f.aux.toNat % 256)) i)) ∧
    (Ready (.dclose i f) s i → unusedZero f { b := true, aux := 0x1F } = true → s.sregBusy i [f.fb] = false →
      let a : Async :=
        { id := (s.tile i.tile).asyncId, ctx := i.ctx, index := (s.ctxOf i).index, kind := .dclose r, event := f.aux.toNat % 32,
          done := 0, status := 0, part := 0, buf := [] }
      let s' := s.modTile i.tile (fun x => { x with asyncs := x.asyncs ++ [a] })
      (s.fld DXE_CTRL_enable j = 0 →
        exec (.dclose i f) s = .next (issuedAt (s.nextIndex i) (asyncDone s' i.tile a.id 2) i)) ∧
      (s.fld DXE_CTRL_enable j = 1 → s.closable j = some r.toNat → (s.job j).dxe.closed = some r.toNat → (s.job j).dxe.liveReading = false →
        exec (.dclose i f) s = .next (issuedAt (s.nextIndex i) (asyncDone s' i.tile a.id 0) i)) ∧
      (s.fld DXE_CTRL_enable j = 1 → s.closable j = some r.toNat → ((s.job j).dxe.closed ≠ some r.toNat ∨ (s.job j).dxe.liveReading = true) →
        exec (.dclose i f) s = .next (issuedAt (s.nextIndex i) (s'.modAtt j (fun y => { y with dcloses := addTo i.tile y.dcloses })) i))) ∧
    (Ready (.dstat i f) s i → unusedZero f { a := true, imm := immAll } = true → s.sregBusy i [f.fa] = false →
      (f.imm = 0 → s.fld DXE_ROUND_s0 j ≤ s.step j → exec (.dstat i f) s = .next (issuedAt (s.nextIndex i) (s.putSreg i f.fa
        (BitVec.ofNat 64 ((s.step j - s.fld DXE_ROUND_s0 j) / s.fld DXE_CTRL_h j))) i)) ∧
      (f.imm = 1 → 0 < (s.job j).dxe.sealedNext → exec (.dstat i f) s = .next (issuedAt (s.nextIndex i) (s.putSreg i f.fa
        (BitVec.ofNat 64 ((s.job j).dxe.sealedNext - 1))) i)) ∧
      (f.imm = 2 → exec (.dstat i f) s = .next (issuedAt (s.nextIndex i) (s.putSreg i f.fa
        (if (s.job j).anchorReady then 1 else 0)) i)))

/-- The instructions of the classes STEP and DXE. -/
def Sys2Proof.Machine.stepRows : List ((At → LayR → Instr) × Uses) :=
  [(.scommit, { a := true, b := true }), (.sabort, { b := true, aux := 0xFF }), (.dclose, { b := true, aux := 0x1F }),
   (.dstat, { a := true, imm := 1 })]

/-- A step operand of SCOMMIT or SABORT that is not the step being computed is rejected with code STEP. -/
def Sys2Proof.Claims.StepOperandRejected : Prop :=
  ∀ (i : At) (f : LayR) (s : State), s.isLead i.tile = true → i.ctx = 2 → (s.sreg i f.fb).toNat ≠ s.step (s.jobAt i) →
    (Issues (.scommit i f) s i → unusedZero f { a := true, b := true } = true → s.sregBusy i [f.fa, f.fb] = false →
      exec (.scommit i f) s = .next (rejectAt s i.tile i.ctx (s.ctxOf i).index 11)) ∧
    (Issues (.sabort i f) s i → unusedZero f { b := true, aux := 0xFF } = true → s.sregBusy i [f.fb] = false →
      exec (.sabort i f) s = .next (rejectAt s i.tile i.ctx (s.ctxOf i).index 11))

/-- Rejections at issue: a non-zero unused field, an index beyond the last, ranges and alignment, matrix rules, a step operand that is not
the present step; and a context that may not issue changes nothing. The model's choices in it: log entry 11 (a context that may not issue);
log entry 12 (order of the checks). -/
def Obligations.IssueRejections : Prop :=
  Sys2Proof.Claims.UnusedFieldRejected ∧ Sys2Proof.Claims.LastIndexRejected ∧ Sys2Proof.Claims.NothingIssuesWhenHeld ∧ Sys2Proof.Claims.RangesRejected ∧ Sys2Proof.Claims.MatrixRejected ∧ Sys2Proof.Claims.StepOperandRejected

/-! ## The training step (R108 to R114, R126, R135 to R165, R359) -/

/-- A tile whose frame is due starts it: its contexts run from their next entries and the frame counts on; registers,
register file, scratchpad and instructions stand, and no other tile changes. -/
def Sys2Proof.Claims.FrameStarts : Prop :=
  ∀ (t : Fin 1024) (s : State) (j : Nat), s.jobOfTile t = some j → mayStart s t j = true → (s.job j).att.started = true →
    s.partsWf = true →
    ∃ u, exec (.frameStart t) s = .next u ∧ (u.tile t).busy = true ∧ (u.tile t).frame = (s.tile t).frame + 1 ∧
      (u.tile t).serves = (s.job j).ledgerSeq ∧ (u.tile t).rejected = false ∧
      (u.tile t).lastStart = s.fld TICK_COUNT_count ∧
      (∀ c : Nat, c < 3 → ((u.tile t).ctx c).run = (if s.ctxEnabled t c = true ∧ (c = 0 ∨ s.isLead t = true) then .running else .idle) ∧
        (s.ctxEnabled t c = true → (c = 0 ∨ s.isLead t = true) → ((u.tile t).ctx c).index = ((s.tile t).ctx c).next) ∧
        ((u.tile t).ctx c).regs = ((s.tile t).ctx c).regs) ∧
      (u.tile t).vrf = (s.tile t).vrf ∧ (u.tile t).spad = (s.tile t).spad ∧ (u.tile t).imem = (s.tile t).imem ∧
      u.regs = s.regs ∧ u.dram = s.dram ∧ u.jobs = s.jobs ∧ ∀ x : Nat, x ≠ t → u.tile x = s.tile x

/-- The vote conditions hold: the device has voted, its phase is VOTING. With no reports due and no loss still to be decided, the
combined record is its own: it goes on to the next device of the reporting order, or the coordinator decides by it. -/
def Sys2Proof.Claims.VoteSends : Prop :=
  ∀ (j : Fin 4) (s : State), s.blocksRun = true → voteReady s j = true → s.partsWf = true →
    (∃ u, exec (.voteSend j) s = .next u ∧ (u.job j).phase = .voting ∧ (u.job j).att.voted = true ∧
      u.tiles = s.tiles ∧ u.regs = s.regs ∧ u.dram = s.dram) ∧
    (s.dueReports j = [] → (s.job j).lossOpen (s.groupOfDev j) = false → (s.job j).att.sent = false →
      let v := s.modJob j (fun x => { x with phase := .voting, att := { x.att with voted := true, sent := true } })
      let own := voteRecord s j 0 (s.job j).anchorReady
      exec (.voteSend j) s = .next (if s.isCoordinator j then issueDecision v j 3 { (voteDecision own) with rejoin := s.rejoinGroup j }
        else reportOn v j 2 own))

/-- The open attempt is abandoned with a reason of its own: HOST_ABORT (13) while OPEN or VOTING, VOTE_TIMEOUT (12) while VOTING:
phase ABORTING, the reason kept and shown in the register; a job in another phase is as it was. -/
def Sys2Proof.Claims.AbortsBegin : Prop :=
  ∀ (j : Fin 4) (s : State) (missing : List (BitVec 12)), (s.job j).att.started = true → (s.job j).att.reason = none →
    s.blocksRun = true → s.partsWf = true → s.regsWf = true →
    ((s.job j).phase = .opened ∨ (s.job j).phase = .voting →
      ∃ u, exec (.hostAbort j) s = .next u ∧ (u.job j).phase = .aborting ∧
        (u.job j).att.reason = some (13, 0, BitVec.ofNat 22 s.origin) ∧ u.reg (0x6030 + 0x100 * j) % 256 = 13 ∧ u.dram = s.dram) ∧
    ((s.job j).phase = .voting →
      ∃ u, exec (.voteTimeout j missing) s = .next u ∧ (u.job j).phase = .aborting ∧
        (u.job j).att.reason = some (12, 0, BitVec.ofNat 22 s.origin) ∧ u.reg (0x6030 + 0x100 * j) % 256 = 12 ∧ u.dram = s.dram) ∧
    ((s.job j).phase ≠ .opened → (s.job j).phase ≠ .voting → exec (.hostAbort j) s = .next s)

/-- An abandoned attempt that has drained is closed: the ledger has one entry more, the attempt counter counts, and below
max_attempts, with no damage to repair and no copy to replace, the next attempt may open; the step stands. -/
def Sys2Proof.Claims.AttemptReopens : Prop :=
  ∀ (j : Fin 4) (s : State), (s.job j).running = true → (s.job j).phase = .aborting → jobQuiet s j = true → mapsOut s j = false →
    s.plat.dev = .run → (s.job j).att.stopNext = false → (s.job j).att.fault = false → (s.job j).att.damage = [] →
    (s.job j).att.replace = false → (s.job j).early = [] →
    (s.job j).attemptNo + 1 < s.fld STEP_CTRL_max_attempts j → s.partsWf = true → s.regsWf = true →
    ∃ u, exec (.attemptOpen j) s = .next u ∧ (u.job j).phase = .opened ∧ (u.job j).attemptNo = (s.job j).attemptNo + 1 ∧
      (u.job j).ledgerSeq = (s.job j).ledgerSeq + 1 ∧ (u.job j).colls = [] ∧ (u.job j).att.started = false ∧
      (u.job j).glog = (s.job j).glog.filter (·.committed) ∧ u.step j = s.step j

/-- The decision VOTE next in sequence, without veto, non-finite mark or a norm past the limit, carries: the device has committed
when it applied it: the step counts on, the ledger has one entry more, and the attempt counter is zero; with a veto the attempt is
abandoned for the reason decided and the step stands. -/
def Sys2Proof.Claims.VoteDecides : Prop :=
  ∀ (j : Fin 4) (d : Decision) (s : State), s.blocksRun = true → s.halted blkCxe = false → (s.job j).running = true → (s.job j).phase = .voting → (s.job j).att.started = true →
    (∀ e ∈ (s.job j).att.decisions, e.1 ≤ (s.job j).att.decided) → s.tagOrder j d.tag = .eq →
    d.number.toNat = (s.job j).att.decided + 1 → (s.job j).early = [] → s.partsWf = true → s.regsWf = true →
    (refusal s j d = 0 → (s.job j).dxe.liveReading = false → s.plat.dev = .run → (s.job j).att.stopNext = false →
      (s.job j).att.stopCommit = false → d.flags.getLsbD 2 = false →
      ∃ u, exec (.decideVote j d) s = .next u ∧ u.step j = (s.step j + 1) % 2 ^ 64 ∧ (u.job j).attemptNo = 0 ∧
        (u.job j).ledgerSeq = (s.job j).ledgerSeq + 1 ∧ (u.job j).colls = [] ∧
        ((u.job j).phase = .opened ∨ (u.job j).phase = .repairing)) ∧
    (refusal s j d ≠ 0 → (s.job j).att.reason = none →
      ∃ u, exec (.decideVote j d) s = .next u ∧ (u.job j).phase = .aborting ∧ u.step j = s.step j ∧
        ∃ p, (u.job j).att.reason = some (BitVec.ofNat 8 (refusal s j d), p, BitVec.ofNat 22 d.origin.toNat))

/-- What makes a decision VOTE refuse: its veto, the non-finite marks of the loss (1) and of gradients (2), or a squared norm past
norm_limit (3); of several the lowest code. -/
def Sys2Proof.Claims.VoteRefusals : Prop :=
  ∀ (s : State) (j : Nat) (d : Decision),
    (d.veto = 0 → d.flags.getLsbD 0 = false → d.flags.getLsbD 1 = false → s.fld STEP_CTRL_norm_limit j = 0 → refusal s j d = 0) ∧
    (d.veto = 0 → d.flags.getLsbD 0 = true → refusal s j d = 1) ∧
    (d.veto = 0 → d.flags.getLsbD 0 = false → d.flags.getLsbD 1 = true → refusal s j d = 2) ∧
    (d.veto = 0 → d.flags.getLsbD 0 = false → d.flags.getLsbD 1 = false → s.fld STEP_CTRL_norm_limit j ≠ 0 →
      normMeets d.norm.toNat (s.fld STEP_CTRL_norm_limit j) = false → refusal s j d = 3) ∧
    (d.veto ≠ 0 → refusal s j d ≤ d.veto.toNat ∧ refusal s j d ≠ 0)

/-- A round close that has finished reading lets every DCLOSE of the job complete. -/
def Sys2Proof.Claims.LiveReadEnds : Prop :=
  ∀ (j : Fin 4) (s : State), s.blocksRun = true → s.halted blkDxe = false → (s.job j).dxe.liveReading = true → (s.job j).att.commitHeld = false →
    s.partsWf = true →
    ∃ u, exec (.liveReadDone j) s = .next u ∧ (u.job j).dxe.liveReading = false ∧ (u.job j).running = (s.job j).running ∧ u.dram = s.dram ∧
      (∀ t : Nat, (s.job j).hasTile t = true → ∀ a ∈ (u.tile t).asyncs, ∀ r, a.kind ≠ .dclose r)

/-- Damage of a live copy that a peer's copy covers is repaired: the bytes stand in DRAM and the lines are damaged no longer; a
region's replacement takes the peer's live copy and write digest. The phase REPAIRING ends once nothing is left
here and every replacement of the job is complete. -/
def Sys2Proof.Claims.CopiesRepaired : Prop :=
  ∀ (j : Fin 4) (s : State) (data : Bytes), (s.job j).running = true → (s.job j).phase = .repairing → s.plat.dev = .run →
    (s.job j).att.stopNext = false → s.partsWf = true →
    (∀ (addr : BitVec 42) (l : Nat), l ∈ (s.job j).att.damage → addr.toNat ≤ l → l + 64 ≤ addr.toNat + data.length →
      ∃ u, exec (.peerRepairDone j addr data) s = .next u ∧ u.dram = wrN s.dram addr.toNat data ∧ l ∉ (u.job j).att.damage ∧
        ((s.job j).att.damage = [l] → (s.job j).dig.replacing = [] → (s.job j).waitAll = false → (s.job j).holdAct = false → (s.job j).rejoining = [] →
          (u.job j).phase = .opened)) ∧
    (∀ (region : BitVec 16) (digest : BitVec 256) (all : Bool) (r : Region), (s.regions j)[region.toNat]? = some r →
      region.toNat ∈ (s.job j).dig.replacing → data.length = r.size →
      ∃ u, exec (.digestReplacementDone j region data digest all) s = .next u ∧ u.dram = wrN s.dram r.live data ∧
        region.toNat ∉ (u.job j).dig.replacing ∧
        ((s.job j).dig.replacing = [region.toNat] → (s.job j).att.damage = [] → (s.job j).holdAct = false → (s.job j).rejoining = [] →
          (u.job j).phase = if all = true ∨ (s.job j).waitAll = false then .opened else .repairing))

/-- Uncorrectable lines of the round state, which the exchange engine meets at its reads (R280): a copy from a peer group mends the range
it covers, and the engine's tables are what the area then holds. The outer update waits while a line that a peer group holds is
damaged. Without another contributing group the residual of a damaged line is +0 and the line counts as lost mass; the rest of the
residual stands, and the receive store gains nothing. -/
def Sys2Proof.Claims.RoundStateMended : Prop :=
  ∀ (j : Fin 4) (s : State), s.blocksRun = true → (s.job j).running = true → (s.job j).dxe.active = true → s.partsWf = true → s.regsWf = true →
    (∀ (addr : BitVec 42) (data : Bytes) (l : Nat),
      ¬ ((s.job j).phase = .repairing ∧ ∃ d ∈ (s.job j).att.damage, addr.toNat ≤ d ∧ d + 64 ≤ addr.toNat + data.length) →
      l ∈ s.areaUe j → addr.toNat ≤ l → l + 64 ≤ addr.toNat + data.length →
      ∃ u, exec (.peerRepairDone j addr data) s = .next u ∧ u.dram = wrN s.dram addr.toNat data ∧ l ∉ u.ue ∧ u.regs = s.regs ∧
        ∀ k < 5, ∀ e < (s.job j).dxe.elems, look ((u.job j).dxe.table k) e 0 = BitVec.ofNat 32 (u.word32 (u.tableAt j k + 4 * e))) ∧
    (∀ (others : List (BitVec 32 × BitVec 256)) (y : Round) (b : ManifestBody), s.halted blkDxe = false →
      (s.job j).dxe.round (s.job j).dxe.installed = some y → y.manifest = some b → y.ownDigest = none → (s.job j).dxe.refetch = none →
      ∃ u, exec (.outerUpdateDone j others) s = .next u ∧ (∀ p ∈ (u.job j).dxe.store, p ∈ (s.job j).dxe.store) ∧
        (s.otherGroups j ≠ [] → (u.job j).dxe.resid = (s.job j).dxe.resid ∧
          ((∃ l ∈ s.ueIn (s.areaBase j) (s.areaBytes j), s.areaFree j [0, 1, 2, 3, 4, 5] l = false) →
            (u.job j).dxe.anchorNext = (s.job j).dxe.anchorNext ∧ (u.job j).dxe.momNext = (s.job j).dxe.momNext ∧ u.dram = s.dram)) ∧
        (s.otherGroups j = [] →
          u.fld DXE_STATUS_lost_mass j = satTo 32 (s.fld DXE_STATUS_lost_mass j + ((s.areaUe j).filter (fun l => !(s.areaAt j 4 l).isEmpty)).length) ∧
          ∀ e, look (u.job j).dxe.resid e 0 = if (s.areaUe j).any (fun l => (s.areaAt j 4 l).contains e) then 0 else look (s.job j).dxe.resid e 0))

/-- The first write digest of a group for a region is kept. For a region under comparison, once the last group's has come: all
alike resolve it and the ledger entry says so; else the entry counts a mismatch (Table STP-5). -/
def Sys2Proof.Claims.DigestsCompare : Prop :=
  ∀ (j : Fin 4) (group : BitVec 8) (region : BitVec 16) (digest : BitVec 256) (s : State), s.blocksRun = true → (s.job j).running = true →
    s.partsWf = true → (∀ p ∈ (s.job j).dig.peers, p.1 ≠ group.toNat ∨ p.2.1 ≠ region.toNat) →
    let k := region.toNat
    (k ∉ (s.job j).dig.open_ → exec (.digestReceive j group region digest) s =
      .next (s.modJob j (fun x => { x with dig := { x.dig with peers := x.dig.peers ++ [(group.toNat, k, digest)] } }))) ∧
    (k ∈ (s.job j).dig.open_ → s.otherGroups j = [group.toNat] →
      ∃ u, exec (.digestReceive j group region digest) s = .next u ∧ u.regs = s.regs ∧ u.dram = s.dram ∧
        (digest = look (s.job j).dig.kept k 0 → k ∉ (u.job j).dig.open_ ∧ (u.job j).led.flags = (s.job j).led.flags ||| 2) ∧
        (digest ≠ look (s.job j).dig.kept k 0 → k ∈ (u.job j).dig.open_ ∧ (u.job j).led.flags = (s.job j).led.flags ||| 4 ∧
          (u.job j).led.mismatches = satTo 16 ((s.job j).led.mismatches + 1)))

/-- Two groups differ and both re-reads agree with their write digests: a job fault. Of more groups, one outside the strict majority
replaces its own copy, the cause kept (memory when its re-read differs from its write digest, else computation): the open attempt
aborts with DIGEST_REPAIR (R162, Table STP-5). -/
def Sys2Proof.Claims.DigestRereads : Prop :=
  ∀ (j : Fin 4) (region : BitVec 16) (own : BitVec 256) (agree : List (BitVec 8 × Bool)) (s : State) (w : BitVec 256)
    (rest : List (BitVec 256)), s.blocksRun = true → (s.job j).running = true → region.toNat ∈ (s.job j).dig.open_ →
    digestsHeld s j region.toNat = some (w :: rest) → (∃ d ∈ rest, d ≠ w) →
    (∀ d, majorDigest (w :: rest) = some d → d ≠ w →
      exec (.digestRereadDone j region own agree) s = .next (replaceOwn (noteDivergence s j region.toNat (decide (own ≠ w))) j region.toNat)) ∧
    (∀ g : BitVec 8, majorDigest (w :: rest) = none → s.otherGroups j = [g.toNat] → agree = [(g, true)] → own = w →
      exec (.digestRereadDone j region own agree) s = .next (jobFault s j 0x102))

/-- A group that is to rejoin is marked for the next commit. When the copies from the contributing group stand, the device takes the
step, the layout epoch and the write digests copied, and the mark is gone; once every copy of the job is complete the group
contributes again, on every device. A job without step regions advances its layout epoch by command. -/
def Sys2Proof.Claims.RejoinAndEpoch : Prop :=
  ∀ (j : Fin 4) (s : State), s.blocksRun = true → s.partsWf = true → s.regsWf = true →
    (∃ u, exec (.rejoin j) s = .next u ∧ u.fld STEP_CTRL_rejoin j = 1 ∧ (u.job j).att.rejoinDue = true ∧ u.tiles = s.tiles ∧ u.dram = s.dram) ∧
    (∀ (step : BitVec 64) (epoch : BitVec 32) (copies : List (BitVec 42 × Bytes)) (digests : List (BitVec 16 × BitVec 256)),
      (s.job j).running = true → (s.job j).phase = .repairing → s.ownGroup j ∈ (s.job j).rejoining → (s.job j).att.rejoinDue = true →
      s.fld DXE_CTRL_enable j = 0 →
      ∃ u, exec (.rejoinCopyDone j step epoch copies digests false) s = .next u ∧ u.step j = step.toNat ∧
        u.fld CXE_EPOCH_epoch j = epoch.toNat ∧ u.fld STEP_CTRL_rejoin j = 0 ∧ (u.job j).attemptNo = 0 ∧ (u.job j).att.rejoinDue = false ∧
        (u.job j).dig.kept = digests.foldl (fun m d => store m d.1.toNat d.2 0) []) ∧
    (∀ (step : BitVec 64) (epoch : BitVec 32) (copies : List (BitVec 42 × Bytes)) (digests : List (BitVec 16 × BitVec 256)),
      (s.job j).running = true → (s.job j).phase = .repairing → (s.job j).rejoining ≠ [] → (s.job j).att.rejoinDue = false →
      s.plat.dev = .run → (s.job j).att.stopNext = false → (s.job j).att.damage = [] → (s.job j).dig.replacing = [] →
      (s.job j).waitAll = false → (s.job j).holdAct = false → (s.job j).dxe.active = false →
      ∃ u, exec (.rejoinCopyDone j step epoch copies digests true) s = .next u ∧ (u.job j).rejoining = [] ∧
        (∀ k, k ∈ (u.job j).excludedGroups ↔ k ∈ (s.job j).excludedGroups ∧ k ∉ (s.job j).rejoining) ∧ (u.job j).phase = .opened) ∧
    ((s.regions j) = [] →
      ∃ u, exec (.epochAdvance j) s = .next u ∧ u.fld CXE_EPOCH_epoch j = (s.fld CXE_EPOCH_epoch j + 1) % 2 ^ 32 ∧ u.jobs = s.jobs ∧
        u.dram = s.dram ∧ u.tiles = s.tiles) ∧
    ((s.regions j) ≠ [] → exec (.epochAdvance j) s = .next s)

/-- Damage of live copies, of replaced regions and of round state is repaired. The model's choices in it: log entry 18 (where the round
state stands); log entry 123 (completion on the other devices). -/
def Obligations.Repairs : Prop :=
  Sys2Proof.Claims.CopiesRepaired ∧ Sys2Proof.Claims.RoundStateMended

/-- An open attempt is abandoned with its reason, closed and opened again. The model's choices in it: log entry 37 (which aborts write a
lantern entry); log entry 15 (its source code). -/
def Obligations.Aborts : Prop :=
  Sys2Proof.Claims.AbortsBegin ∧ Sys2Proof.Claims.AttemptReopens

/-- A decided vote commits the step, or refuses it. The model's choices in it: log entry 55 (ledger flag bit 6); log entry 56 (t_vote); log
entry 116 (a rejoin with the vote). -/
def Obligations.Decisions : Prop :=
  Sys2Proof.Claims.VoteDecides ∧ Sys2Proof.Claims.VoteRefusals

/-- Live reads end, a group rejoins, the layout epoch advances. The model's choices in it: log entry 58 (decisions of a device that
rejoins); log entry 116 (the request to rejoin); log entry 123 (completion on the other devices); log entry 92 (rejoin written 0). -/
def Obligations.LiveReads : Prop :=
  Sys2Proof.Claims.LiveReadEnds ∧ Sys2Proof.Claims.RejoinAndEpoch

/-- Digests of written regions are compared, and damage is found and replaced. The model's choices in it: log entry 22 (no strict majority;
the own digest as the majority); log entry 123 (completion on the other devices). -/
def Obligations.Digests : Prop :=
  Sys2Proof.Claims.DigestsCompare ∧ Sys2Proof.Claims.DigestRereads

/-! ## Collectives, seals, votes (R155, R156, R224 to R245) -/

/-- Part i of n of a range runs from where part i - 1 ends to where part i + 1 starts, the first from its start, the last to its
end: the parts cover the range and share no element (R230). -/
def Sys2Proof.Claims.PartsCoverRange : Prop :=
  ∀ (r : Nat × Nat) (n : Nat), 0 < n → r.1 ≤ r.2 →
    (partOf r n 0).1 = r.1 ∧ (partOf r n (n - 1)).2 = r.2 ∧ (∀ i, (partOf r n i).1 ≤ (partOf r n i).2) ∧
    (∀ i, (partOf r n i).2 = (partOf r n (i + 1)).1) ∧ ∀ e, r.1 ≤ e → e < r.2 → ∃ i < n, (partOf r n i).1 ≤ e ∧ e < (partOf r n i).2

/-- A launched collective starts when fewer than 64 are in flight: READY with its parameters goes to every ring neighbour before
anything else. A READY that comes before the own start is kept; one of the collective that has started counts for its sender and lets
the chunks due to it leave, and one with other parameters ends the collective with an error (R227, R228, R235). -/
def Sys2Proof.Claims.CollectivesStart : Prop :=
  ∀ (s : State) (j : Nat) (c : Coll), s.blocksRun = true → s.halted blkCxe = false → s.partsWf = true → j < 4 → (s.job j).coll c.cid = some c →
    (∀ k : Fin 4, k = j → c.phase = .waiting → s.ue = [] → (s.job j).readyEarly = [] →
      ((s.job j).colls.filter (fun c => decide (c.phase = .inFlight) || decide (c.phase = .reduced) || decide (c.phase = .sealing))).length < 64 →
      ∃ u c' rest, exec (.collectiveStart k c.cid) s = .next u ∧ (u.job j).coll c.cid = some c' ∧
        (c'.phase = .inFlight ∨ c'.phase = .reduced) ∧ c'.asked = c.asked ++ s.neighbours j c ∧
        c'.run = (if c.bucket then (s.job j).led.exclusions.length else 0) ∧
        u.out = ((s.neighbours j c).foldl (fun s v => sendPacket s (readyPkt (s.readyPacket j c v) c.readyBody)) s).out ++ rest) ∧
    (∀ (p : ColPacket) (b : ReadyBody), s.jobOfTag p.jobTag = some j →
      ((s.job j).coll p.cid = none ∨ p.cid = c.cid ∧ (c.phase = .waiting ∨ c.tagged p = false) → exec (.ready p b) s =
        .next (s.modJob j (fun x => { x with readyEarly := x.readyEarly ++ [(p, b)] }))) ∧
      (p.cid = c.cid → c.phase ≠ .waiting → c.tagged p = true → b = c.readyBody →
        let d := { c with readies := c.readies ++ [p.src.toNat] }
        (d.ready p.src.toNat = false → exec (.ready p b) s = .next (s.putColl j d)) ∧
        (d.ready p.src.toNat = true → exec (.ready p b) s = .next ((c.due.filter (fun q => decide (q.dst.toNat = p.src.toNat))).foldl
          (fun s q => sendPacket s (chunkPkt q))
          (s.putColl j { d with due := c.due.filter (fun q => !decide (q.dst.toNat = p.src.toNat)) })))) ∧
      (p.cid = c.cid → c.phase ≠ .waiting → c.phase ≠ .done → c.tagged p = true → b ≠ c.readyBody →
        ∃ u c', exec (.ready p b) s = .next u ∧ (u.job j).coll c.cid = some c' ∧ c'.phase = .done ∧ c'.err = true))

/-- A chunk of another step or attempt is discarded and counted; one that the collective expects from the neighbour before is
counted once (R235, R236). -/
def Sys2Proof.Claims.ChunksCount : Prop :=
  ∀ (k : ColPacket) (s : State) (j : Nat), s.blocksRun = true → s.halted blkCxe = false → s.partsWf = true → s.jobOfTag k.jobTag = some j →
    (k.step.toNat ≠ s.step j % 2 ^ 32 ∨ k.attempt.toNat ≠ (s.job j).attemptNo % 2 ^ 16 ∨ (s.job j).coll k.cid = none →
      exec (.chunk k) s = .next (s.count CXE_STATUS_discarded 1 j)) ∧
    (∀ (c : Coll) (i : Nat), (s.job j).att.started = true → k.step.toNat = s.step j % 2 ^ 32 → k.attempt.toNat = (s.job j).attemptNo % 2 ^ 16 →
      (s.job j).coll k.cid = some c → c.phase = .inFlight → k.epoch = c.epoch → k.run.toNat = c.run % 256 → 2 ≤ (s.ownRing j k.dim.toNat).length →
      k.contributor.toNat = hop (s.ownRing j k.dim.toNat).length (s.position j k.dim.toNat) (!k.minus) 1 → s.expectedPart j c k = some i →
      ∃ u c', exec (.chunk k) s = .next u ∧ (u.job j).coll k.cid = some c' ∧
        c'.seen = (k.dim.toNat, k.gather, k.minus, i, k.chunk.toNat) :: c.seen ∧ s.expectedPart j c' k ≠ some i)

/-- A collective that is reduced ends: its result is written at its destination; its event counts, or for a bucket its seal is
due (R225, R226, R239). -/
def Sys2Proof.Claims.CollectivesEnd : Prop :=
  ∀ (j : Fin 4) (s w : State) (c : Coll) (r : Nat × Nat), s.blocksRun = true → s.halted blkCxe = false → (s.job j).coll c.cid = some c → c.phase = .reduced →
    c.err = false → r = (if c.op = 0 then s.ownRange j c else (0, c.work.length)) →
    s.writeAt j c.dst (wirePack (if c.bucket then 4 else c.width) ((c.work.drop r.1).take (r.2 - r.1))) = (w, 0, []) →
    (c.bucket = false → exec (.collectiveDone j c.cid) s =
      .next (resumeCefence (asyncDone (w.putColl j { c with phase := .done, work := [] }) c.tile c.async 0) j)) ∧
    (c.bucket = true → ∃ n, exec (.collectiveDone j c.cid) s =
      .next (trySeals (w.putColl j { c with phase := .sealing, err := false, work := [] }) j n))

/-- A SEAL report of the present attempt is kept, one of a later attempt held until then, one of an earlier attempt discarded; at the coordinator, once the reports due for the lowest bucket not yet sealed are in and its own part is
ready, the bucket is sealed. The decision SEAL completes the bucket: its event counts, its partial norm and non-finite mark are
taken (R145, R146, R239, R240). -/
def Sys2Proof.Claims.BucketsSeal : Prop :=
  ∀ (j : Fin 4) (s : State), s.blocksRun = true → s.halted blkCxe = false → (s.job j).running = true → s.partsWf = true →
    (∀ r : Report, s.tagOrder j r.tag = .eq → ∃ u, exec (.reportSeal j r) s = .next u ∧
      (u.job j).sealReports = (s.job j).sealReports ++ [(r.bucket.toNat, r.sender.toNat)] ∧
      (∀ c, s.isCoordinator j = true → (s.job j).lossOpen (s.groupOfDev j) = false → (s.job j).sealedNext = r.bucket.toNat →
        (s.job j).unreported r.bucket.toNat = some c → (∀ d ∈ s.dueReports j, (r.bucket.toNat, d.1) ∈ (u.job j).sealReports) →
        r.bucket.toNat < (u.job j).sealedNext ∧ (s.job j).att.issued < (u.job j).att.issued ∧
        (s.self < 4096 → ∃ k : Packet, Output.packet k ∈ u.out ∧ k.op.toNat = opDecide ∧ k.payload.take 1 = [1] ∧
          (k.payload.drop 8).take 4 = toBE 4 r.bucket.toNat))) ∧
    (∀ (d : Decision) (c : Coll), s.tagOrder j d.tag = .eq → (s.job j).early = [] →
      (∀ e ∈ (s.job j).att.decisions, e.1 ≤ (s.job j).att.decided) → d.number.toNat = (s.job j).att.decided + 1 →
      (s.job j).colls.find? (fun c => c.bucket && decide (c.bucketNo = d.bucket.toNat)) = some c → c.phase = .sealing → c.err = false →
      ∃ u, exec (.decideSeal j d) s = .next u ∧ (u.job j).att.decided = d.number.toNat ∧ d.bucket.toNat < (u.job j).sealedNext ∧
        (u.job j).att.normPart = BitVec.ofNat 64 (add64 (s.job j).att.normPart.toNat c.norm.toNat) ∧
        (u.job j).att.gradNf = ((s.job j).att.gradNf || c.nonFinite) ∧ (∀ a ∈ (u.tile c.tile).asyncs, a.id ≠ c.async)) ∧
    (∀ r : Report, s.tagOrder j r.tag = .gt → exec (.reportSeal j r) s =
      .next (s.modJob j (fun x => { x with early := x.early ++ [.reportSeal j r] }))) ∧
    (∀ r : Report, s.tagOrder j r.tag = .lt → exec (.reportSeal j r) s = .next s)

/-- Vote records combine: the lowest veto code and its lowest origin, the non-finite marks of either, the ready mark of both, the
partial norms added in FP64 (R144). -/
def Sys2Proof.Claims.VotesCombine : Prop :=
  ∀ a b : Report, let c := combineVote a b
    (a.veto = 0 → c.veto = b.veto) ∧ (b.veto = 0 → c.veto = a.veto) ∧
    (a.veto ≠ 0 → b.veto ≠ 0 → c.veto.toNat = min a.veto.toNat b.veto.toNat) ∧
    c.flags.getLsbD 0 = (a.flags.getLsbD 0 || b.flags.getLsbD 0) ∧ c.flags.getLsbD 1 = (a.flags.getLsbD 1 || b.flags.getLsbD 1) ∧
    c.flags.getLsbD 2 = (a.flags.getLsbD 2 && b.flags.getLsbD 2) ∧ c.norm = BitVec.ofNat 64 (add64 a.norm.toNat b.norm.toNat) ∧
    (a.veto ≠ 0 → b.veto = a.veto → c.origin.toNat = min a.origin.toNat b.origin.toNat)

/-- A vote record without veto is kept, one for each sender; a veto abandons the open attempt with its code and origin, and goes on
at once. A request for a rejoin is kept by the coordinator. An APPLIED report is kept, one for each sender; a new coordinator waits
until every other live device has reported (R144, R241, R244, R359). -/
def Sys2Proof.Claims.ReportsArrive : Prop :=
  ∀ (j : Fin 4) (r : Report) (s : State), s.blocksRun = true → s.halted blkCxe = false → (s.job j).running = true →
    s.partsWf = true → s.regsWf = true →
    (r.rejoin = none → s.tagOrder j r.tag = .eq → r.veto = 0 → ∃ u, exec (.reportVote j r) s = .next u ∧
      (u.job j).att.votes = (s.job j).att.votes.filter (fun v => v.sender ≠ r.sender) ++ [r] ∧ u.tiles = s.tiles) ∧
    (r.rejoin = none → s.tagOrder j r.tag = .eq → r.veto ≠ 0 → ((s.job j).phase = .opened ∨ (s.job j).phase = .voting) →
      (s.job j).att.started = true → (s.job j).att.reason = none →
      ∃ u, exec (.reportVote j r) s = .next u ∧ (u.job j).phase = .aborting ∧ u.out = (sendVeto s j r).out ∧
        (u.job j).att.reason = some (r.veto, 0, r.origin.setWidth 22)) ∧
    (r.rejoin ≠ none → s.isCoordinator j = true → exec (.reportVote j r) s =
      .next (s.modJob j (fun x => { x with rejoinAsked := addTo r.sender.toNat x.rejoinAsked }))) ∧
    (∀ held : List (Fin 4 × Decision), s.tagOrder j r.tag = .eq →
      let applied := (s.job j).att.applied.filter (fun q => decide (q.sender ≠ r.sender)) ++ [r]
      ((s.job j).att.gathering = false ∨
          (∃ v ∈ (s.job j).devices s.dims, s.liveDev j v = true ∧ v ≠ s.self ∧ ∀ q ∈ applied, q.sender.toNat ≠ v) →
        ∃ u, exec (.reportApplied j r held) s = .next u ∧ (u.job j).att.applied = applied ∧ (u.job j).att.gathering = (s.job j).att.gathering ∧
          (∀ d ∈ held, d.2.number.toNat ≤ (s.job j).att.decided ∨ ∃ e ∈ (u.job j).att.decisions, e.1 = d.2.number.toNat) ∧ u.out = s.out) ∧
      ((s.job j).att.gathering = true →
        (∀ v ∈ (s.job j).devices s.dims, s.liveDev j v = true → v ≠ s.self → ∃ q ∈ applied, q.sender.toNat = v) →
        ∃ u, exec (.reportApplied j r held) s = .next u ∧ (u.job j).att.gathering = false))

/-- A decision EXCLUDE next in sequence: a device of the group abandons the attempt; elsewhere, while enough groups
remain and fewer than four have been excluded, the ledger lists the exclusion and the divisor holds from the bucket given. With too
few groups left the job faults: an open attempt is abandoned first, and without one the job stops (R155, R156, R243, Table STP-2). -/
def Obligations.GroupsExcluded : Prop :=
  ∀ (j : Fin 4) (d : Decision) (s : State), s.blocksRun = true → s.halted blkCxe = false → (s.job j).running = true → s.partsWf = true →
    s.tagOrder j d.tag = .eq → (s.job j).early = [] → (∀ e ∈ (s.job j).att.decisions, e.1 ≤ (s.job j).att.decided) →
    d.number.toNat = (s.job j).att.decided + 1 → (s.job j).colls = [] →
    let left := ((s.job j).groups.filter (fun g => decide (g ≠ d.group.toNat))).length
    (s.ownGroup j = d.group.toNat → (s.job j).phase = .opened → (s.job j).att.started = true →
      ∃ u, exec (.decideExclude j d) s = .next u ∧ (u.job j).phase = .aborting) ∧
    (s.ownGroup j ≠ d.group.toNat → s.fld STEP_CTRL_min_groups j ≤ left → (s.job j).led.exclusions.length < 4 →
      ∃ u, exec (.decideExclude j d) s = .next u ∧
        (u.job j).led.exclusions = (s.job j).led.exclusions ++ [(d.group.toNat, d.bucket.toNat)] ∧
        (u.job j).divisors = (s.job j).divisors ++ [(d.bucket.toNat, d.divisor.toNat)] ∧
        (u.job j).excludedGroups = addTo d.group.toNat (s.job j).excludedGroups ∧ u.tiles = s.tiles ∧ u.dram = s.dram) ∧
    (s.ownGroup j ≠ d.group.toNat → left < s.fld STEP_CTRL_min_groups j → s.svc.paused = false →
      ∃ u, exec (.decideExclude j d) s = .next u ∧
        ((s.job j).att.started = true → (s.job j).phase = .opened ∨ (s.job j).phase = .voting →
          (u.job j).phase = .aborting ∧ (u.job j).att.fault = true) ∧
        ((s.job j).att.started = false → (u.job j).running = false ∧ (u.job j).phase = .stopped))

/-- Votes leave, arrive and combine along the reporting order. The model's choices in it: log entry 56 (t_vote is noted at the vote); log
entry 116 (requests to rejoin); log entry 121 (reports of another attempt); log entry 122 (decisions with APPLIED). -/
def Obligations.Votes : Prop :=
  Sys2Proof.Claims.VoteSends ∧ Sys2Proof.Claims.VotesCombine ∧ Sys2Proof.Claims.ReportsArrive

/-- The parts of a collective cover its range once, and a collective starts. The model's choices in it: log entry 17 (rings of a broadcast);
log entry 120 (READYs and runs). -/
def Obligations.CollectivesBegin : Prop :=
  Sys2Proof.Claims.PartsCoverRange ∧ Sys2Proof.Claims.CollectivesStart

/-- Chunks count once, collectives end, buckets seal in order. The model's choices in it: log entry 120 (READYs and runs). -/
def Obligations.CollectivesRun : Prop :=
  Sys2Proof.Claims.ChunksCount ∧ Sys2Proof.Claims.CollectivesEnd ∧ Sys2Proof.Claims.BucketsSeal

/-! ## Supplies, reset, the configuration image and the boot chain (R320, R363, R387 to R401, R420, R426) -/

/-! ## TRAIN (R387 to R390) -/

/-- The first tick: with both references locked it falls at an aligned instant of site time, and when ptp_wait has passed at once,
free-running; TICK_COUNT is 0 (R390). -/
def Sys2Proof.Claims.FirstTick : Prop :=
  ∀ (s : State), s.plat.dev = .train → s.clock.ticking = false → s.regsWf = true →
    (∀ time : BitVec 64, s.fld PTP_STATUS_lock = 1 → s.fld PPS_STATUS_lock = 1 →
      ((time.toNat : Int) - signed 32 (s.fld TICK_PHASE_phase)) % (1000 * s.fld TICK_PERIOD_period : Nat) = 0 →
      ∃ u, exec (.firstTick time) s = .next u ∧ u.clock.ticking = true ∧ u.clock.freeRun = false ∧ u.clock.siteTime = time.toNat ∧
        u.fld TICK_COUNT_count = 0) ∧
    (∃ u, exec .ptpWaitExpiry s = .next u ∧ u.clock.ticking = true ∧ u.clock.freeRun = true ∧ u.fld TICK_COUNT_count = 0 ∧
      u.clock.siteTime = s.clock.siteTime)

/-- A tile starts a frame at a tick, and the first tick falls as R390 places it. The model's choices in it: log entry 34 (the tick is a
command); log entry 58 (devices that rejoin); log entry 90 (wedged and stalled blocks). -/
def Obligations.FrameStart : Prop :=
  Sys2Proof.Claims.FrameStarts ∧ Sys2Proof.Claims.FirstTick

/-- Supplies and reset, and the boot chain that ends in TRAIN, in BOOT or in FAULT. POWER_ON brings the device from OFF to RESET. RESET_N
driven low, in every state but OFF, and POWER_LOSS reset every block: memory, tiles, jobs, sessions and keys are gone, the registers at
their reset values but for the withdrawn stack domains; the lantern log, the flash and the fuses stay, and the bypass is closed (R363, R398,
R426). Each completes in every state. PLL_LOCK in RESET runs the boot chain: the boot counts, the identity key is derived from the seed,
which is locked. When every check passes the device is in TRAIN with every stage passed, the bypass open and the lasers on, running the
firmware of the slot that passes first, the boot slot or else the other; the operator key of the configuration copy in force is measured
(R318, R320, R387, R392). A device whose own certificate or firmware check fails stays in BOOT, whichever of the two stages failed; one that
fails a later stage is in FAULT, entered from BOOT, the light as it was and no session can open; a configuration copy that is not valid is
never the one in use (R320, R323, R394). Outside RESET the lock of a PLL changes nothing. The model's choices in it: log entry 5 (tile state
is 0 after a reset); log entry 7 (pins and supplies); log entry 30 (PLL_LOCK runs the boot chain); log entry 8 (signatures are opaque); log
entry 94 (reason codes of failed stages). -/
def Obligations.SuppliesAndBoot : Prop :=
  (
  ∀ (s : State) (high : Bool),
    let cleared (u : State) (d : DevState) : Prop := u.plat.dev = d ∧ u.dram = [] ∧ u.tiles = [] ∧ u.domains = [] ∧ u.jobs = [] ∧ u.ports = [] ∧
      u.host = HostPort.reset ∧ u.sec = Sec.reset ∧ u.svc = Svc.reset ∧ u.staged = [] ∧ u.clock = Clock.reset ∧
      u.lantern.entries = s.lantern.entries ∧ u.lantern.seq = s.lantern.seq ∧ u.lantern.bootCount = s.lantern.bootCount ∧
      u.plat.flash = s.plat.flash ∧ u.plat.fuses = { s.plat.fuses with seedLocked := false } ∧ u.plat.lsEn = false ∧
      u.fld FAB_BYPASS_STATUS_closed = 15 ∧ u.pending = s.pending ∧ (∀ q < 4, s.withdrawn q = true → u.withdrawn q = true)
    (∃ u, exec (.powerOn high) s = .next u ∧ (s.plat.dev = .off → u = (s.modPlat (fun p => { p with resetLow := !high })).setDev .reset) ∧
      (s.plat.dev ≠ .off → u = s)) ∧
    (∃ u, exec .powerLoss s = .next u ∧ cleared u .off) ∧
    (∃ u, exec .resetNAssert s = .next u ∧ (s.plat.dev ≠ .off → cleared u .reset) ∧
      (s.plat.dev = .off → u = s.modPlat (fun p => { p with resetLow := true })))) ∧
  (
  ∀ (b : BootInput) (s : State), s.plat.dev = .reset → s.regsWf = true →
    let key := identityOf s.plat.fuses.seed
    let body := (cfgRead b (newerCfg b)).body
    ∃ u, exec (.pllLock b) s = .next u ∧ u.lantern.bootCount = s.lantern.bootCount + 1 ∧ u.plat.idKey = key ∧
      u.plat.fuses = { s.plat.fuses with seedLocked := true } ∧ u.dram = s.dram ∧
      (∀ slot, b.fuseOk = true → vendorCert Config.serial (Config.ed448Public key) Config.certSig = true → bootSlotOf s b = some slot →
        cfgReject s (cfgRead b (newerCfg b)) = none → (ucodeCopy s b).isSome = true →
        u.plat.dev = .train ∧ u.fld SEC_STATUS_stage = 6 ∧ u.plat.running = slot ∧ u.plat.flash.bootSlot = slot ∧ u.plat.lsEn = true ∧
          u.fld FAB_BYPASS_STATUS_closed = 0 ∧ u.plat.opKey = cfgKey body ∧ u.plat.keyDigest = Config.shake256 (cfgKeyBytes body) 256)) ∧
  (
  ∀ (b : BootInput) (s : State), s.regsWf = true →
    let cert := vendorCert Config.serial (Config.ed448Public (identityOf s.plat.fuses.seed)) Config.certSig
    let unsound (c : ConfigRead) : Prop := cfgHeadOk c.body = false ∨ ownerOk s c.body = false ∨ cfgSigned c.body c.sig = false
    let newer := newerCfg b
    (s.plat.dev ≠ .reset → exec (.pllLock b) s = .next s) ∧
    (s.plat.dev = .reset → ∃ u, exec (.pllLock b) s = .next u ∧
      ((b.fuseOk = false ∨ cert = false ∨ bootSlotOf s b = none) →
        u.plat.dev = .boot ∧ u.fld SEC_STATUS_reason ≠ 0 ∧ u.plat.lsEn = s.plat.lsEn) ∧
      (b.fuseOk = true → cert = true → (bootSlotOf s b).isSome = true →
        ((unsound b.cfg0 ∧ unsound b.cfg1) ∨ (cfgReject s (cfgRead b newer) = none ∧ ucodeCopy s b = none) →
          u.plat.dev = .fault ∧ u.plat.faultFromBoot = true ∧ u.fld SEC_STATUS_reason ≠ 0 ∧ u.plat.lsEn = s.plat.lsEn ∧ u.hostRuns = false) ∧
        (cfgReject s (cfgRead b newer) ≠ none → u.plat.dev = .fault ∨ (u.plat.dev = .train ∧ u.plat.flash.cfgInUse = !newer)))))

/-- The typed records of a configuration image, and what makes an image invalid. The records of the image that give the device its place,
its torus, its tick and its power mode, each well formed and the first of its kind: its fields stand in the registers that Table BOT-5
names, and the image has one record more of the kind. The records of ports, of the host port and of its hosts, of register words, and notes.
A record that is not well formed, or the second of a kind that stands once, makes the image invalid and writes nothing else (R395, R396).
The model's choices in it: log entry 29 (power mode at once); log entry 30 (records are given in RESET); log entry 91 (reserved values). -/
def Obligations.ImageRecords : Prop :=
  (
  ∀ (s : State), s.plat.dev = .reset → s.regsWf = true →
    (∀ (site : BitVec 16) (coord : Quad) (flags : BitVec 8), site.toNat < 1024 → (∀ c ∈ quadList coord, c < 64) → flags.toNat ≤ 1 →
      (flags = 0 ∨ s.plat.vbypOk = true) → s.plat.image.device = 0 →
      ∃ u, exec (.deviceRecord ⟨16, true⟩ site coord flags) s = .next u ∧ u.fld FAB_COORD_site = site.toNat ∧ u.coord = quadList coord ∧
        u.fld FAB_BYPASS_STATUS_bypass_arm = flags.toNat ∧ u.plat.image.device = 1 ∧ u.plat.image.valid = s.plat.image.valid) ∧
    (∀ (dims : Quad) (mode : BitVec 8) (wait : BitVec 16) (eps : List Endpoint) (n : BitVec 32), (∀ d ∈ quadList dims, 1 ≤ d ∧ d ≤ 64) →
      mode.toNat ≤ 1 → 100 ≤ wait.toNat → wait.toNat ≤ 60000 → (∀ e ∈ eps, e.port = 8 ∨ e.port = 9) → n.toNat = 16 + 8 * eps.length →
      s.plat.image.topology = 0 →
      ∃ u, exec (.topologyRecord ⟨n, true⟩ dims mode wait eps) s = .next u ∧ u.dims = quadList dims ∧
        u.fld FAB_TOPO_MODE_mode = mode.toNat ∧ u.fld FAB_TOPO_MODE_link_wait = wait.toNat ∧ u.plat.image.endpoints = eps ∧
        u.plat.image.topology = 1) ∧
    (∀ (period : BitVec 16) (phase wait : BitVec 32), tickOk period.toNat phase.toInt = true → wait.toNat ≤ 600000 → s.plat.image.tick = 0 →
      ∃ u, exec (.tickRecord ⟨16, true⟩ period phase wait) s = .next u ∧ u.fld TICK_PERIOD_period = period.toNat ∧
        u.fld TICK_PERIOD_ptp_wait = wait.toNat ∧ u.fld TICK_PHASE_phase = phase.toNat ∧ u.plat.image.tick = 1) ∧
    (∀ (mode : BitVec 8) (limit : BitVec 32), mode.toNat ≤ 2 → 400 ≤ limit.toNat → limit.toNat ≤ 1600 → s.plat.image.power = 0 →
      ∃ u, exec (.powerRecord ⟨8, true⟩ mode limit) s = .next u ∧ u.fld PWR_MODE_mode = mode.toNat ∧
        u.coreMHz = [1850, 1600, 1350].getD mode.toNat 0 ∧ u.fld PWR_LIMIT_watts = limit.toNat ∧ u.plat.image.power = 1)) ∧
  (
  ∀ (s : State), s.plat.dev = .reset → s.regsWf = true →
    (∀ (p : BitVec 8) (flags buf : BitVec 8) (lanes : Quad), p.toNat ≤ 9 → flags.toNat ≤ 1 → buf.toNat ≤ 3 →
      (∀ l ∈ quadList lanes, l ≤ 4) → (quadList lanes).Nodup → p.toNat ∉ s.plat.image.ports →
      ∃ u, exec (.portRecord ⟨8, true⟩ p flags buf lanes) s = .next u ∧ u.fld FAB_PORT_CTRL_port_en p.toNat = flags.toNat ∧
        u.fld (FAB_CREDIT_CFG_buf p.toNat) = buf.toNat ∧
        (∀ l < 4, u.lanePhys p.toNat false l = (quadList lanes).getD l 0 ∧ u.lanePhys p.toNat true l = (quadList lanes).getD l 0) ∧
        u.plat.image.ports = s.plat.image.ports ++ [p.toNat]) ∧
    (∀ n : HostNet, n.pmdSel.toNat ≤ 1 → 1 ≤ n.vlan.toNat → n.vlan.toNat ≤ 4094 → n.dscpCtrl.toNat ≤ 63 → n.dscpBulk.toNat ≤ 63 →
      s.plat.image.hostNet = 0 →
      ∃ u, exec (.hostNetRecord ⟨48, true⟩ n) s = .next u ∧ u.fld HST_PORT_CTRL_pmd_sel = n.pmdSel.toNat ∧
        u.fld HST_MAC_ADDR_mac = n.mac.toNat ∧ u.globalAddr = n.address ∧ u.fld HST_IP_CFG_vlan = n.vlan.toNat ∧
        u.fld HST_IP_CFG_ubtik_port = n.ubtikPort.toNat ∧ u.fld HST_IP_CFG_ptp_domain = n.ptpDomain.toNat ∧ u.plat.image.hostNet = 1) ∧
    (∀ (n : BitVec 32) (hosts : List (BitVec 128)), n.toNat = 8 + 16 * hosts.length → 1 ≤ hosts.length → hosts.length ≤ 64 →
      s.plat.image.hostList = 0 →
      exec (.hostListRecord ⟨n, true⟩ hosts) s =
        .next (s.modPlat (fun p => { p with image := { p.image with hostList := 1, hosts := hosts } }))) ∧
    (∀ (n : BitVec 32) (es : List (BitVec 32 × BitVec 64)), n.toNat = 16 * es.length →
      exec (.regRecord ⟨n, true⟩ es) s = .next (es.foldl (fun s e => imageWrite s e.1.toNat e.2.toNat) s)) ∧
    (∀ n : BitVec 32, n.toNat ≤ 4096 → exec (.noteRecord ⟨n, true⟩) s = .next s)) ∧
  (
  ∀ (s : State) (h : RecHead), s.plat.dev = .reset →
    let bad : Host.Outcome State Fault Refusal := .next (s.modPlat (fun p => { p with image := { p.image with valid := false } }))
    (∀ site coord flags, h.length ≠ 16 ∨ h.rsvZero = false ∨ 1024 ≤ site.toNat ∨ s.plat.image.device ≠ 0 →
      exec (.deviceRecord h site coord flags) s = bad) ∧
    (∀ dims mode wait eps, h.length.toNat ≠ 16 + 8 * eps.length ∨ h.rsvZero = false ∨ 1 < mode.toNat ∨ wait.toNat < 100 ∨ 60000 < wait.toNat ∨
        s.plat.image.topology ≠ 0 → exec (.topologyRecord h dims mode wait eps) s = bad) ∧
    (∀ period phase wait, h.length ≠ 16 ∨ h.rsvZero = false ∨ tickOk period.toNat phase.toInt = false ∨ 600000 < wait.toNat ∨ s.plat.image.tick ≠ 0 →
      exec (.tickRecord h period phase wait) s = bad) ∧
    (∀ mode limit, h.length ≠ 8 ∨ 2 < mode.toNat ∨ limit.toNat < 400 ∨ 1600 < limit.toNat → exec (.powerRecord h mode limit) s = bad) ∧
    (∀ p flags buf lanes, h.length ≠ 8 ∨ 9 < p.toNat ∨ ¬ (quadList lanes).Nodup ∨ p.toNat ∈ s.plat.image.ports →
      exec (.portRecord h p flags buf lanes) s = bad) ∧
    (∀ n : HostNet, h.length ≠ 48 ∨ h.rsvZero = false ∨ 1 < n.pmdSel.toNat ∨ n.vlan = 0 ∨ 4094 < n.vlan.toNat ∨ s.plat.image.hostNet ≠ 0 →
      exec (.hostNetRecord h n) s = bad) ∧
    (∀ hosts, hosts = [] ∨ 64 < hosts.length → exec (.hostListRecord h hosts) s = bad) ∧
    (∀ es, h.length.toNat ≠ 16 * es.length ∨ h.rsvZero = false → exec (.regRecord h es) s = bad) ∧
    (4096 < h.length.toNat ∨ h.rsvZero = false → exec (.noteRecord h) s = bad))

/-- The conditions for leaving TRAIN, and READY once they hold. In TRAIN the self-test of tiles, and the training of a stack, in which
nothing fails or had failed, each report once: tile state is zero, the stack is trained. Optical calibration, the waits, and the host link,
which may come up wherever the host port runs, each set their condition of R388. TRAIN ends in READY when every condition of R388 holds, and
not before. The model's choices in it: log entry 95 (self-test reports). -/
def Obligations.Training : Prop :=
  (
  ∀ (s : State), s.training = true → s.regsWf = true →
    (s.plat.train.tilesDone = false → s.spares.badTiles = [] →
      ∃ u, exec (.tileSelfTestDone []) s = .next u ∧ u.tiles = [] ∧ u.plat.train.tilesDone = true ∧ u.domains = s.domains) ∧
    (∀ q : Fin 4, s.plat.train.stacksUp.getLsbD q.val = false → s.spares.badChans = [] → s.withdrawn q = false →
      ∃ u, exec (.stackTrained q []) s = .next u ∧ u.fld MEM_STACK_STATUS_trained q = 1 ∧ u.plat.train.stacksUp.getLsbD q.val = true ∧
        u.tiles = s.tiles) ∧
    (∃ u, exec .opticalCalDone s = .next u ∧ u.plat.train.opticalDone = true ∧ u.dram = s.dram) ∧
    exec .hostLinkWaitExpiry s = .next (s.modPlat (fun p => { p with train := { p.train with hostWaived := true } })) ∧
    (s.plat.train.opticalDone = true →
      exec .linkWaitExpiry s = .next (s.modPlat (fun p => { p with train := { p.train with linkWaitOver := true } }))) ∧
    (s.hostRuns = true → exec .hostLinkUp s = .next ((s.setFld HST_PORT_STATUS_link_up 1).setFld HST_PORT_STATUS_fec_lock 1)) ∧
    exec .hostLinkDown s = .next ((s.setFld HST_PORT_STATUS_link_up 0).setFld HST_PORT_STATUS_fec_lock 0)) ∧
  (
  ∀ (s : State), s.training = true →
    let t := s.plat.train
    let met := (∀ q < 4, t.stacksUp.getLsbD q = true ∨ s.withdrawn q = true) ∧ t.tilesDone = true ∧
      (s.fld HST_PORT_STATUS_link_up = 1 ∨ t.hostWaived = true) ∧
      (t.linkWaitOver = true ∨ ∀ p < 10, (s.port p).st = .disabled ∨ (s.port p).st = .up ∨ (s.port p).st = .quarantine) ∧
      s.clock.ticking = true ∧ t.kat = 7
    (met → ∃ u, exec .trainComplete s = .next u ∧ u.plat.dev = .ready ∧ u.regs = s.regs ∧ u.dram = s.dram ∧ u.tiles = s.tiles) ∧
    (¬ met → exec .trainComplete s = .next s))

/-! ## Clocks, time, power and the tick (R4, R16, R17, R20, R21, R173, R174, R304, R370, R376, R377, R390, R411, R421 to R434) -/

/-- Site time and its references: a Sync, or its Follow_Up, of the device's domain is answered by a Delay_Req, whose answer gives half
the difference of the two ways as the offset and corrects the time, which the ticks follow by slewing;
locks and their loss show in the status registers; of PPS edges one more than 1 µs off is ignored but for its error. None of them
touches tiles, jobs or memory. A tick setting that is not reserved is taken in READY. -/
def Sys2Proof.Claims.TimeReferences : Prop :=
  ∀ (s : State), s.regsWf = true →
    let kept (u : State) : Prop := u.tiles = s.tiles ∧ u.jobs = s.jobs ∧ u.dram = s.dram ∧ u.out = s.out
    (∀ m : PtpMessage, s.hostUp = true → m.domain.toNat = s.fld HST_IP_CFG_ptp_domain →
      let asked (u : State) (seq : BitVec 16) (origin arrival : Nat) : Prop :=
        u.clock.meas = some ⟨seq, some origin, arrival, some (stamp m.departure)⟩ ∧ u.clock.siteTime = s.clock.siteTime ∧
          u.out = s.out ++ [.delayReq (BitVec.ofNat 16 s.clock.delaySeq)] ∧ u.regs = s.regs ∧ u.tiles = s.tiles ∧ u.jobs = s.jobs ∧ u.dram = s.dram
      (∀ seq origin, m.kind = .sync false seq origin → ∃ u, exec (.ptpMessage m) s = .next u ∧ asked u seq origin.toNat (stamp m.arrival)) ∧
      (∀ seq origin, m.kind = .sync true seq origin → ∃ u, exec (.ptpMessage m) s = .next u ∧
        u.clock.meas = some ⟨seq, none, stamp m.arrival, none⟩ ∧ u.regs = s.regs ∧ kept u) ∧
      (∀ seq origin a, m.kind = .followUp seq origin → s.clock.meas = some ⟨seq, none, a, none⟩ →
        ∃ u, exec (.ptpMessage m) s = .next u ∧ asked u seq origin.toNat a) ∧
      (∀ seq q received o a d, m.kind = .delayResp seq received → s.clock.meas = some ⟨q, some o, a, some d⟩ →
        seq.toNat = (s.clock.delaySeq + 65535) % 65536 →
        let off : Int := (((a : Int) - o) - ((received.toNat : Int) - d)) / 2
        ∃ u, exec (.ptpMessage m) s = .next u ∧ u.fld PTP_STATUS_offset = unsigned 32 off ∧ u.clock.meas = none ∧
          u.clock.siteTime = ((stamp m.arrival : Int) - off).toNat ∧
          u.clock.phaseErr = (if s.clock.ticking then s.clock.phaseErr + off else s.clock.phaseErr) ∧ kept u)) ∧
    (∀ e : Int, ∃ u, exec (.ptpLock true true e) s = .next u ∧ u.fld PTP_STATUS_lock = 1 ∧ u.fld PTP_STATUS_holdover = 0 ∧
      u.fld PPS_STATUS_lock = 1 ∧ u.clock.siteTime = s.clock.siteTime ∧ (s.clock.ticking = true → u.clock.phaseErr = e) ∧ kept u) ∧
    (∃ u, exec (.ptpLockLost true true) s = .next u ∧ u.fld PTP_STATUS_lock = 0 ∧ u.fld PPS_STATUS_lock = 0 ∧
      u.fld PTP_STATUS_holdover = (if s.fld PTP_STATUS_lock = 1 then 1 else s.fld PTP_STATUS_holdover) ∧ u.clock = s.clock ∧ kept u) ∧
    (∀ e : BitVec 32, ∃ u, exec (.ppsEdge e) s = .next u ∧ u.fld PPS_STATUS_edge_err = e.toNat ∧
      u.fld PPS_STATUS_present = (if e.toInt.natAbs ≤ 1000 then 1 else s.fld PPS_STATUS_present) ∧ u.clock = s.clock ∧ kept u) ∧
    (∃ u, exec .ppsAbsent s = .next u ∧ u.fld PPS_STATUS_present = 0 ∧ u.fld PPS_STATUS_lock = s.fld PPS_STATUS_lock ∧ kept u) ∧
    (∀ v : BitVec 64, s.plat.dev = .ready → periodOk (v.toNat % 256) = true → bits v.toNat 32 51 ≤ 600000 →
      ∃ u, exec (.tickWrite false v) s = .next u ∧ u.fld TICK_PERIOD_period = v.toNat % 256 ∧
        u.fld TICK_PERIOD_ptp_wait = bits v.toNat 32 51 ∧ kept u) ∧
    (∀ v : BitVec 64, s.plat.dev = .ready → (signed 32 v.toNat).natAbs < s.fld TICK_PERIOD_period * 1000 →
      ∃ u, exec (.tickWrite true v) s = .next u ∧ u.fld TICK_PHASE_phase = v.toNat % 2 ^ 32 ∧ kept u)

/-- The tick (Table ARC-2): time goes on by the period and at most 10 ns of slew, TICK_COUNT counts, a tile still busy overruns and
is held. -/
def Sys2Proof.Claims.FrameTicks : Prop :=
  ∀ (s : State), s.ticks = true → s.clock.realign = false → s.regsWf = true → s.partsWf = true → (∀ p ∈ s.host.sessions, p.2.held = []) →
    ∃ u, exec .frameTick s = .next u ∧ u.clock.tickAt = s.clock.tickAt + s.period + s.slew ∧ u.clock.siteTime = u.clock.tickAt.toNat ∧
      (-10 ≤ s.slew ∧ s.slew ≤ 10) ∧ u.clock.uptime = s.clock.uptime + s.period ∧
      u.fld TICK_COUNT_count = (s.fld TICK_COUNT_count + 1) % 2 ^ 64 ∧ u.out = s.out ∧
      ((∀ p ∈ s.tiles, ∀ j, s.jobOfTile p.1 = some j → p.2.serves = (s.job j).ledgerSeq) → u.dram = s.dram) ∧
      ∀ t : Nat, (u.tile t).held = (s.tile t).busy ∧ (u.tile t).busy = (s.tile t).busy ∧
        u.fld TILE_OVERRUN_overrun_flag t = (if (s.tile t).busy = true then 1 else s.fld TILE_OVERRUN_overrun_flag t) ∧
        u.fld TILE_OVERRUN_overrun_count t =
          (if (s.tile t).busy = true then satTo 32 (s.fld TILE_OVERRUN_overrun_count t + 1) else s.fld TILE_OVERRUN_overrun_count t)

/-- What happens at a tick before frames start, in the order of Table ARC-2: a staged write whose block is idle lands and one whose
block is not waits on; a repair's channel map switches onto the spare; idle tiles' microcode swaps; a tile's state is copied for a
remap, and at a later tick its map switches. -/
def Sys2Proof.Claims.TickActions : Prop :=
  ∀ (s : State), s.blocksRun = true → 1 ≤ s.clock.order → s.regsWf = true → s.partsWf = true →
    (∀ x : Staged, s.clock.order ≤ 2 → s.staged = [x] → x.block ≠ 1 → x.lo ≤ x.hi → x.hi < 64 →
      ∃ u, exec .stagedWriteLand s = .next u ∧ u.tiles = s.tiles ∧ u.jobs = s.jobs ∧ u.dram = s.dram ∧
        (stageIdle s x = true → u.staged = [] ∧ bits (u.reg x.key) x.lo x.hi = x.value % 2 ^ (x.hi + 1 - x.lo)) ∧
        (stageIdle s x = false → u.staged = [x] ∧ u.regs = s.regs)) ∧
    (∀ m : Nat, s.clock.order ≤ 2 → m < 3 → s.staged = [⟨1, 0x1010, 0, 1, m⟩] → allIdle s = true →
      ∃ u, exec .stagedWriteLand s = .next u ∧ u.staged = [] ∧ u.fld PWR_MODE_mode = m ∧ u.coreMHz = [1850, 1600, 1350].getD m 0) ∧
    (∀ q : Fin 4, s.clock.order ≤ 3 → s.repairState q = 2 → s.clock.tickAt ≠ (s.dom q).repair.since → (s.dom q).repair.wanted = [] → (s.dom q).repair.chan < 64 → (s.dom q).repair.spare < 66 →
      let r := (s.dom q).repair
      ∃ u, exec (.channelSwitch q) s = .next u ∧ u.chanPhys q r.chan = r.spare ∧ u.repairState q = 3 ∧ u.dram = s.dram ∧
        (66 * q.val + s.chanPhys q r.chan) ∈ (if r.test then u.spares.testChans else u.spares.badChans)) ∧
    (∀ q : Fin 4, s.clock.order ≤ 4 → ucodeDue s q = true → (∀ p ∈ s.tiles, p.1 / 256 = q.val → p.2.busy = false) →
      ∃ u, exec (.microcodeSwap q) s = .next u ∧ (u.dom q).ucodeActive = !(s.dom q).ucodeActive ∧ (u.dom q).ucodeSwap = none ∧
        u.lantern.eventCount = s.lantern.eventCount + 1 ∧ u.tiles = s.tiles) ∧
    (∀ (t : Fin 1024) (r : Remap), s.clock.order ≤ 3 → s.busy t = false → s.svc.remaps = [r] → r.tile = t.val →
      (r.copied = none → namesTile s t = false → exec (.tileRemap t) s =
        .next { s with svc := { s.svc with remaps := [{ r with copied := some (s.fld TICK_COUNT_count) }] } }) ∧
      (∀ n, r.copied = some n → n ≠ s.fld TICK_COUNT_count → r.spare < 1056 →
        ∃ u, exec (.tileMapSwitch t) s = .next u ∧ u.phys t = r.spare ∧ u.svc.remaps = [] ∧ u.tiles = s.tiles ∧
          s.phys t ∈ (if r.byOp then u.spares.testTiles else u.spares.badTiles)))

/-- A change of power mode (R20, R423): into a slower or the same mode the write is staged at once; a faster mode first raises its
voltage and is staged once that has settled; without settling the previous voltage returns and nothing is staged; a change into or
out of SITE outside READY is ignored. While such a change is under way a write of its mode changes nothing and any other is
refused (the model's choice, DEDUCED, log entry 107). A bond-rate retrain ends in READY at the new DRAM clock. -/
def Sys2Proof.Claims.PowerModes : Prop :=
  ∀ (s : State), s.regsWf = true →
    (∀ (v : BitVec 64) (k : BitVec 2), s.plat.train.retrain = some k →
      exec (.pwrModeWrite v) s = .next (if v.toNat % 4 = k.toNat ∧ k.toNat < 3 then s else s.cfgReject)) ∧
    (∀ v : BitVec 64, s.plat.train.retrain = none → let m := v.toNat % 4
      (m = 3 ∨ (m = 2 ↔ s.fld PWR_MODE_mode ≠ 2) ∧ s.plat.dev ≠ .ready → exec (.pwrModeWrite v) s = .next s.cfgReject) ∧
      (m < 3 → (m = 2 ↔ s.fld PWR_MODE_mode = 2) → s.fld PWR_MODE_mode ≤ m →
        exec (.pwrModeWrite v) s = .next { s with
          staged := s.staged.filter (fun x => decide (x.block ≠ 1)) ++ [⟨1, 0x1010, 0, 1, m⟩]
          plat := { s.plat with pwr := .staged (BitVec.ofNat 2 m) } }) ∧
      ((m = 2 ↔ s.fld PWR_MODE_mode = 2) → m < s.fld PWR_MODE_mode →
        ∃ u, exec (.pwrModeWrite v) s = .next u ∧ u.out = s.out ++ [.vddCore ([780, 720, 660].getD m 0)] ∧
          u.plat.pwr = .rising (BitVec.ofNat 2 m) ∧ u.regs = s.regs ∧ u.plat.vddCore = s.plat.vddCore)) ∧
    (∀ m : BitVec 2, s.plat.pwr = .rising m → (s.staged.filter (fun x => decide (x.block = 1))).length < 64 →
      ∃ u, exec .vddCoreSettled s = .next u ∧ u.plat.vddCore = modeMv m.toNat ∧ u.plat.pwr = .staged m ∧ u.regs = s.regs ∧
        u.staged = s.staged ++ [⟨1, 0x1010, 0, 1, m.toNat⟩]) ∧
    (∀ m : BitVec 2, s.plat.pwr = .rising m → s.plat.train.retrain = none →
      ∃ u, exec .regulatorTimeout s = .next u ∧ u.plat.pwr = .none ∧ u.out = s.out ++ [.vddCore s.plat.vddCore] ∧
        u.plat.cfgReject = true ∧ u.regs = s.regs ∧ u.staged = s.staged ∧ u.plat.dev = s.plat.dev) ∧
    (∀ m : BitVec 2, s.plat.train.retrain = some m → s.plat.dev = .train → s.fld PWR_MODE_mode = m.toNat →
      ∃ u, exec .bondRateRetrainDone s = .next u ∧ u.plat.dev = .ready ∧ u.plat.train.retrain = none ∧
        u.fld CLK_CORE_CFG_dram_mhz = (if m = 2 then 700 else 850) ∧ u.tiles = s.tiles ∧ u.dram = s.dram)

/-- Samples of power and of temperatures (R21, R173, R174, R434): the throttle of frame starts shows while the power passes its limit; a stack
above 85 °C refreshes at double, above 95 °C at the highest rate, and above 105 °C is throttled; a critical reading is a fatal
fault and raises THERM_ALERT. -/
def Sys2Proof.Claims.PowerAndTemperature : Prop :=
  ∀ (s : State), s.regsWf = true →
    (∀ w : BitVec 16, ∃ u, exec (.powerSample w) s = .next u ∧ u.fld PWR_TELEM_power_w = w.toNat ∧
      u.fld PWR_TELEM_throttle = (if s.fld PWR_LIMIT_watts < w.toNat then 1 else 0) ∧
      u.tiles = s.tiles ∧ u.jobs = s.jobs ∧ u.dram = s.dram) ∧
    (∀ x : TempSample, s.plat.dev = .ready ∨ s.plat.dev = .run ∨ s.plat.dev = .drain →
      (critical x = none → ∃ u, exec (.tempSample x) s = .next u ∧ u.plat.dev = s.plat.dev ∧
        u.fld THERM_STATUS_logic_temp = unsigned 16 (hottest x.logic).1 ∧
        ∀ q : Nat, q < 4 → let l := [x.stack0, x.stack1, x.stack2, x.stack3].getD q []
          u.fld MEM_TEMP_temp q = unsigned 16 (hottest l).1 ∧
          (16 * 95 < (hottest l).1 → u.fld MEM_REFRESH_STATE_rate q = 2) ∧
          (16 * 85 < (hottest l).1 → 1 ≤ u.fld MEM_REFRESH_STATE_rate q) ∧
          (16 * 105 < (hottest l).1 → u.fld MEM_STACK_STATUS_throttle q = 1)) ∧
      (∀ c, critical x = some c → ∃ u, exec (.tempSample x) s = .next u ∧ u.plat.dev = .fault ∧ u.plat.thermAlert = true))

/-- Fatal faults (R354): loss of the reference, of a PLL, of a rail, and a lockstep mismatch bring the device into FAULT: every job is
stopped, staged writes are gone, DRAM is in self-refresh, the light is off, and an armed bypass closes. VBYP
out of tolerance, and what the regulator reports, do not. An injected fault of class 4 is ignored while a job runs. -/
def Sys2Proof.Claims.FatalFaults : Prop :=
  ∀ (s : State), s.mayFail = true → s.regsWf = true → s.partsWf = true →
    (∀ (rail : Fin 10) (mv pc : BitVec 64) (d : BitVec 5), rail ≠ 9 → (d.toNat ≤ 8 ∨ 16 ≤ d.toNat ∧ d.toNat < 26) →
      let failed (u : State) : Prop := u.plat.dev = .fault ∧ u.runningJobs = [] ∧ u.staged = [] ∧ u.plat.selfRefresh = true ∧
        u.plat.lsEn = false ∧ u.dram = s.dram ∧ (s.fld FAB_BYPASS_STATUS_bypass_arm = 1 → u.fld FAB_BYPASS_STATUS_closed = 15)
      (∃ u, exec .refclkLoss s = .next u ∧ failed u) ∧ (∃ u, exec (.supplyFault rail mv) s = .next u ∧ failed u) ∧
        (∃ u, exec (.lockstepMismatch pc) s = .next u ∧ failed u) ∧ (∃ u, exec (.pllLost d) s = .next u ∧ failed u)) ∧
    (∀ mv : BitVec 64, exec (.supplyFault 9 mv) s =
      .next { s with plat := { s.plat with vbypOk := decide (4500 ≤ mv.toNat) && decide (mv.toNat ≤ 5500) } }) ∧
    (∀ status, exec (.pmbAlert status) s = .next s) ∧
    (∀ v : BitVec 64, v.getLsbD 63 = true → bits v.toNat 16 18 = 4 → s.runningJobs ≠ [] → exec (.faultInject v) s = .next s.cfgReject) ∧
    (∀ v : BitVec 64, v.getLsbD 63 = true → bits v.toNat 16 18 = 3 → bits v.toNat 0 7 = 2 → bits v.toNat 8 15 = 0x0C →
      ∀ j < 4, bits v.toNat 20 31 = j → (s.job j).running = true → s.svc.paused = false →
        ∃ u, exec (.faultInject v) s = .next u ∧ ((s.job j).att.started = false → (u.job j).running = false) ∧
          ((s.job j).att.started = true → (s.job j).phase = .opened → (u.job j).phase = .aborting ∧ (u.job j).att.fault = true))

/-! ## Register writes (R8, R9, R402 to R419) -/

/-- The words whose fields trigger actions, or that have checks of their own. -/
def Sys2Proof.Machine.actingWords : List Nat :=
  [0x1010, 0x2000, 0x2008, 0x3000, 0x3010, 0x6008, 0x7000, 0x7218, 0x8010, 0xA000, 0xA018, 0xC018, 0xD010, 0xD020, 0xE000]

/-- A write of a word that triggers no action: RW fields take their values, W1C bits written 1 are cleared, a STATIC field takes its
value where its owner is stopped and is ignored where it runs; read-only fields are as they were. A reserved value in one field makes
the whole write ignored, and a word that takes no write ignores it. -/
def Sys2Proof.Claims.RegisterWrites : Prop :=
  ∀ (slot : Fin 9) (off : BitVec 16) (v : BitVec 64) (s : State), slot ≠ 8 → off.toNat % 8 = 0 → off ≠ 0x18 → s.regsWf = true →
    (s.takesWrite off.toNat = false → exec (.registerWrite slot off v) s = .next s) ∧
    (assoc fieldTable (normal off.toNat) = none → exec (.registerWrite slot off v) s = .next s) ∧
    (∀ fs, assoc fieldTable (normal off.toNat) = some fs → s.takesWrite off.toNat = true → normal off.toNat ∉ actingWords →
      ((∃ f ∈ fs, f.reserved v.toNat = true) → exec (.registerWrite slot off v) s = .next s.cfgReject) ∧
      ((∀ f ∈ fs, f.reserved v.toNat = false) → s.badWord slot off.toNat v.toNat = false →
        ∃ u, exec (.registerWrite slot off v) s = .next u ∧ u.tiles = s.tiles ∧ u.dram = s.dram ∧ u.jobs = s.jobs ∧
          let k := s.keyFor slot off.toNat
          (∀ x : Nat, x ≠ k → u.reg x = s.reg x) ∧
          ∀ f ∈ fs, bits (u.reg k) f.lo f.hi =
            match f.acc with
            | .rw => bits v.toNat f.lo f.hi
            | .w1c => bits (s.reg k) f.lo f.hi - (bits (s.reg k) f.lo f.hi &&& bits v.toNat f.lo f.hi)
            | .fixed => if s.stopped slot off.toNat v.toNat f then bits v.toNat f.lo f.hi else bits (s.reg k) f.lo f.hi
            | _ => bits (s.reg k) f.lo f.hi))

/-- Writes with an effect of their own: the bypass is armed, but not while VBYP is out of tolerance (R425); the error counters of
memory (R412) and the counters of the host port (R417) are zeroed. -/
def Sys2Proof.Claims.ClearsAndArming : Prop :=
  ∀ (s : State), s.regsWf = true →
    (∀ arm : Bool, (arm = true → s.plat.vbypOk = true) → ∃ u, exec (.bypassArmWrite arm) s = .next u ∧
      u.fld FAB_BYPASS_STATUS_bypass_arm = (if arm then 1 else 0) ∧ u.fld FAB_BYPASS_STATUS_closed = s.fld FAB_BYPASS_STATUS_closed ∧ u.out = s.out) ∧
    (s.plat.vbypOk = false → exec (.bypassArmWrite true) s = .next s.cfgReject) ∧
    (∃ u, exec .eccClear s = .next u ∧ u.reg 0x3008 = 0 ∧ (∀ k, k ≠ 0x3008 → u.reg k = s.reg k) ∧ u.ue = s.ue) ∧
    (∃ u, exec .statsClear s = .next u ∧ u.fld HST_PORT_STATUS_frame_discards = 0 ∧ u.fld HST_PORT_STATUS_ubtik_discards = 0 ∧
      u.fld HST_PORT_STATUS_fec_uncorr = 0 ∧ u.fld HST_PORT_STATUS_link_up = s.fld HST_PORT_STATUS_link_up)

/-- Site time, the tick, and what happens at it in the order of Table ARC-2. The model's choices in it: log entry 34 (the tick is a
command); log entry 61 (PTP measurements); log entry 65 (the channel that a repair frees); log entry 33 (held requests run at a tick). -/
def Obligations.TimeAndTicks : Prop :=
  Sys2Proof.Claims.TimeReferences ∧ Sys2Proof.Claims.FrameTicks ∧ Sys2Proof.Claims.TickActions

/-- Power modes change voltage and clock in order, and power and temperature limits act. The model's choices in it: log entry 107 (writes
during a change); log entry 59 (at or above a limit); log entry 60 (a regulator that fails while it falls). -/
def Obligations.Power : Prop :=
  Sys2Proof.Claims.PowerModes ∧ Sys2Proof.Claims.PowerAndTemperature

/-- A write of a register word acts as its access type says; clears and the arming of the bypass. The model's choices in it: log entry 91
(reserved values); log entry 105 (words of one request); log entry 93 (in which states a write takes effect); log entry 62 (VBYP in
tolerance). -/
def Obligations.RegisterAccess : Prop :=
  Sys2Proof.Claims.RegisterWrites ∧ Sys2Proof.Claims.ClearsAndArming

/-! ## Memory repair and the faults of tiles and blocks (R175 to R181, R351 to R353, R412) -/

/-- A repair is requested, or wanted by a channel that fails: it starts in COPY onto the spare named, or the lowest one free; a request for
a spare that is not free, or while a repair runs, is ignored; without auto_repair the wish is reported. A copy with nothing pending waits
for its switch; lines that prove uncorrectable are pending, and more than 64 end the repair FAILED. A corrected line counts for whoever
reads it, and a command retried counts. While no block runs nothing of this goes on. The model's choices in it: log entry 125 (reads that
meet more than data); log entry 64 (the lowest free spare); log entry 65 (the channel that a repair frees); log entry 66 (a stack without a
free spare). -/
def Obligations.ChannelRepairs : Prop :=
  ∀ (q : Fin 4) (s : State), s.regsWf = true → s.partsWf = true →
    (s.blocksRun = false → ∀ (chan : Fin 64) (lines : List (BitVec 42)) (line : BitVec 42) (r : LineRead) (o : Bool),
      exec (.repairCopyDone q) s = .next s ∧ exec (.repairFailed q lines) s = .next s ∧ exec (.repairThreshold q chan) s = .next s ∧
      exec (.bondGroupFailure q chan) s = .next s ∧ exec (.channelSwitch q) s = .next s ∧ exec (.patrolScrub line r o) s = .next s) ∧
    (∀ v : BitVec 64, bits v.toNat 32 47 ≠ 0 → v.getLsbD 63 = true → bits v.toNat 8 9 = q.val →
      let p := 64 + bits v.toNat 24 24
      ∃ u, exec (.repairRequest v) s = .next u ∧ u.fld MEM_REPAIR_CTRL_repair_threshold = bits v.toNat 32 47 ∧ u.dram = s.dram ∧
        (s.chanFree q p = true → s.repairing q = false →
          u.repairState q = 1 ∧ (u.dom q).repair.chan = bits v.toNat 16 21 ∧ (u.dom q).repair.spare = p) ∧
        (s.chanFree q p = false ∨ s.repairing q = true → u.plat.cfgReject = true ∧ u.domains = s.domains)) ∧
    (∀ chan : Fin 64, ∀ c ∈ [Instr.repairThreshold q chan, .bondGroupFailure q chan], s.blocksRun = true →
      (s.fld MEM_REPAIR_CTRL_auto_repair = 0 →
        ∃ u, exec c s = .next u ∧ u.fld MEM_STACK_STATUS_repair_wanted q = 1 ∧ u.fld MEM_STACK_STATUS_want_chan q = chan.val ∧ u.domains = s.domains) ∧
      (∀ p r, s.fld MEM_REPAIR_CTRL_auto_repair = 1 → s.repairing q = false → s.withdrawn q = false → s.freeChans q = p :: r →
        ∃ u, exec c s = .next u ∧ u.repairState q = 1 ∧ (u.dom q).repair.chan = chan.val ∧ (u.dom q).repair.spare = p) ∧
      (s.fld MEM_REPAIR_CTRL_auto_repair = 1 → s.repairing q = true → s.withdrawn q = false → (s.dom q).repair.chan ≠ chan.val →
        ∃ u, exec c s = .next u ∧ chan.val ∈ (u.dom q).repair.wanted ∧ (u.dom q).repair.chan = (s.dom q).repair.chan ∧ u.lantern = s.lantern)) ∧
    (s.repairState q = 1 → s.blocksRun = true → (s.dom q).repair.pending = [] →
      (∃ u, exec (.repairCopyDone q) s = .next u ∧ u.repairState q = 2 ∧ u.dram = s.dram ∧ u.tiles = s.tiles) ∧
      (∀ lines : List (BitVec 42), s.runningJobs = [] → (∀ l ∈ lines, l.toNat < 4 * quarter) →
        (lines.length ≤ 64 → ∃ u, exec (.repairFailed q lines) s = .next u ∧ u.repairState q = 1 ∧
          ∀ l ∈ lines, 64 * (l.toNat / 64) ∈ u.ue ∧ 64 * (l.toNat / 64) ∈ (u.dom q).repair.pending) ∧
        (64 < lines.length → (lines.map (fun l => l.toNat / 64)).Nodup → (s.dom q).repair.chan ∉ (s.dom q).repair.failures → (s.dom q).repair.wanted = [] →
          ∃ u, exec (.repairFailed q lines) s = .next u ∧ u.repairState q = 4 ∧ (s.dom q).repair.chan ∈ (u.dom q).repair.failures))) ∧
    (∀ (line : BitVec 42) (o : Bool), s.blocksRun = true → o = true ∨ s.fld MEM_CTRL_patrol_en = 1 → line.toNat < 4 * quarter → 64 * (line.toNat / 64) ∉ s.ue →
      exec (.patrolScrub line .clean o) s = .next s ∧
      exec (.patrolScrub line .corrected o) s = .next (s.count MEM_ECC_COUNT_corrected) ∧
      exec (.patrolScrub line .retried o) s = .next (s.count MEM_ECC_COUNT_cmd_retries) ∧
      (s.runningJobs = [] → ∃ u, exec (.patrolScrub line .uncorrectable false) s = .next u ∧ 64 * (line.toNat / 64) ∈ u.ue ∧
        u.fld MEM_ECC_COUNT_uncorrectable = satTo 16 (s.fld MEM_ECC_COUNT_uncorrectable + 1)))

/-- An uncorrectable word of a tile's storage, and a block that makes no progress, stop the jobs they serve (class 2); a first
control parity fault aborts the attempt with TILE_FAULT, a second within 24 hours maps the tile out onto a free spare. -/
def Sys2Proof.Claims.TileAndBlockFaults : Prop :=
  ∀ (s : State), s.regsWf = true → s.partsWf = true → s.svc.paused = false → s.blocksRun = true →
    (∀ (p : Fin 1056) (word : BitVec 64) (t j : Nat), s.tileOf p = some t → s.jobOfTile t = some j →
      ∃ u, exec (.tileStorageUe p word) s = .next u ∧ (u.job j).running = false ∧ (u.job j).phase = .stopped) ∧
    (∀ (p : Fin 1056) (word : BitVec 64), s.tileFree p = true →
      ∃ u, exec (.tileStorageUe p word) s = .next u ∧ p.val ∈ u.spares.badTiles ∧ u.jobs = s.jobs) ∧
    (∀ (p : Fin 1056) (index : BitVec 12) (time : BitVec 64) (t j : Nat), s.tileOf p = some t → s.jobOfTile t = some j →
      (s.job j).phase = .opened → (s.job j).att.started = true → (s.job j).att.reason = none →
      (s.svc.parity = [] → ∃ u, exec (.tileControlParity p index time) s = .next u ∧ (u.job j).phase = .aborting ∧
        (u.job j).att.reason = some (8, 0, BitVec.ofNat 22 s.origin) ∧ u.svc.remaps = s.svc.remaps) ∧
      (∀ t0 n r, s.svc.parity = [(p.val, t0)] → time.toNat < t0 + 86400000000000 → s.svc.remaps = [] → s.freeTiles (t / 256) = n :: r →
        ∃ u, exec (.tileControlParity p index time) s = .next u ∧ (u.job j).phase = .aborting ∧ ∃ x, u.svc.remaps = [x] ∧ x.tile = t ∧ x.spare = n)) ∧
    (∀ (b : BlockNo) (n : BitVec 64), blockKnown b.toNat = true → b.toNat ∉ s.svc.wedged → n ≠ 0 →
      ∃ u, exec (.wedgeTimeout b n) s = .next u ∧ b.toNat ∈ u.svc.wedged ∧ ∀ j ∈ s.blockJobs b.toNat, (u.job j).running = false)

/-! ## The engines of the stack domains (R104 to R106, R183 to R192) -/

/-- What a tile is told of a request: its tag, and whether it failed. -/
def Sys2Proof.Machine.told (s u : State) (d : Desc) (tag : BitVec 32) (failed : Bool) : Prop :=
  (u.tile d.tile).done = (s.tile d.tile).done ++ [(tag, failed)]

/-- A lookup is taken from the front of its queue: one with a reserved value or a list outside the job is refused, any other has
gathered its rows, in number and size as the request says. When it is done its rows stand at the output and the tile is told. -/
def Sys2Proof.Claims.Lookups : Prop :=
  ∀ (q : Fin 4) (s : State) (j : Nat), s.blocksRun = true → s.halted (blkLookup + q.val) = false → s.owner q = some j → s.partsWf = true → s.regsWf = true →
    (∀ (who : Desc) (rest : List Desc) (rows : List Bytes), (s.dom q).lookupQ = who :: rest → s.ue = [] → s.glogOn j = false →
      let d := lookupOf who.bytes
      let ok := d.ok && d.inJob (s.job j).mask.toNat
      ∃ u g, exec (.lookupRequest q rows) s = .next u ∧ (u.dom q).lookupQ = rest ∧ (u.dom q).lookups = (s.dom q).lookups ++ [g] ∧
        g.who = who ∧ g.tag = d.tag ∧ g.out = d.out ∧ g.status = (if ok then 0 else 1) ∧ u.dram = s.dram ∧ u.tiles = s.tiles ∧
        g.rows.length = (if ok then (if d.pool = 0 then d.count else d.bags) * (d.elems * floatBytes d.outFmt) else 0)) ∧
    (∀ (n : Nat) (g : Gather), (s.dom q).lookups[n]? = some g →
      (g.rows = [] → ∃ u, exec (.lookupDone q n) s = .next u ∧ told s u g.who g.tag (decide (g.status ≠ 0)) ∧ u.dram = s.dram) ∧
      (∀ w, g.rows ≠ [] → g.status = 0 → inJob (s.job j).mask.toNat g.out g.rows.length = true → s.writeAt j g.out g.rows = (w, 0, []) →
        ∃ u, exec (.lookupDone q n) s = .next u ∧ u.dram = w.dram ∧ (u.dom q).lookups = (s.dom q).lookups.eraseIdx n ∧
          (u.tile g.who.tile).done = (w.tile g.who.tile).done ++ [(g.tag, false)]))

/-- The gradient log (R184 to R186): an append with a reserved value or without the log is refused; one whose rows lie outside the
table completes with nothing appended; one entry leaves for its owner. The entries due are applied to their row by the reference of
R186, and after write-back they leave the ring from its head. -/
def Sys2Proof.Claims.GradientLog : Prop :=
  ∀ (s : State), s.partsWf = true → s.regsWf = true → s.ue = [] → s.blocksRun = true →
    (∀ (q : Fin 4) (j : Nat) (d : Desc) (rest : List Desc), s.owner q = some j → (s.dom q).appendQ = d :: rest →
      let b := d.bytes
      let tag := BitVec.ofNat 32 (dfield b 28 4)
      let t := logTable (s.logTableBytes (dfield b 20 2))
      let n := dfield b 16 4
      let row (p : Nat) : Nat := leNat (((s.readAt (dfield b 0 8) (8 * n)).1.drop (8 * p)).take 8)
      ∃ u, exec (.glogAppend q) s = .next u ∧ (u.dom q).appendQ = rest ∧ u.dram = s.dram ∧
        (appendOk s j b = false → told s u d tag true) ∧
        (appendOk s j b = true → (∀ p < n, t.rows ≤ row p) → told s u d tag false ∧ u.router = s.router) ∧
        (∀ dev, appendOk s j b = true → n = 1 → row 0 < t.rows → dev = leNat (((s.readAt t.list (4 * t.owners)).1.drop (4 * (row 0 % t.owners))).take 4) →
          dev / 4096 = s.fld FAB_COORD_site → s.reachable j (dev % 4096) = true →
          (u.dom q).appends = (s.dom q).appends ++ [⟨d, tag, 1, false⟩] ∧ ∃ y, u.router.xfers = s.router.xfers ++ [y] ∧ y.log = true ∧
            y.dst = BitVec.ofNat 12 dev ∧ y.data.length = 32 + t.d * floatBytes t.fmt)) ∧
    (∀ (j : Fin 4) (w : List (BitVec 32)) (acc : BitVec 32) (e : GEntry), (s.job j).running = true → (s.job j).applying = [] →
      (s.job j).glog = [e] → s.due j e = true → (s.job j).gTables = none →
      s.halted (blkLookup + rowEngine (s.job j) e.row.toNat) = false →
      let t := logTable (s.logTableBytes e.table)
      let wa := t.state + 4 * t.d * e.row.toNat
      let aa := t.acc + 4 * e.row.toNat
      s.ownAddr wa = true → s.ownAddr aa = true →
      let r := applyEntry t ((pieces 4 (t.d + 1) (s.readAt (gLocal wa) (4 * t.d)).1).map leNat, leNat (s.readAt (gLocal aa) 4).1) e.grad
      ∃ u, exec (.glogApply j w acc) s = .next u ∧ u.dram = s.dram ∧ (u.job j).glog = [e] ∧
        (u.job j).applying = [⟨e.step.toNat, e.table, e.row.toNat, r.1.map (BitVec.ofNat 32), BitVec.ofNat 32 r.2⟩]) ∧
    (∀ (j : Fin 4) (r : RowApply) (rest : List RowApply), (s.job j).applying = r :: rest →
      s.halted (blkLookup + rowEngine (s.job j) r.row) = false →
      let marked := (s.job j).glog.map (fun e => if e.committed && e.isOf r.step r.table r.row then { e with done := true } else e)
      ∃ u, exec (.glogWritebackDone j) s = .next u ∧ (u.job j).applying = rest ∧ (u.job j).glog = marked.dropWhile (·.done) ∧
        (u.job j).gHead = (s.job j).gHead + ringBytes (marked.takeWhile (·.done)))

/-- Codec commands (R190 to R192): a BUILD takes the lowest free slot, which is BUILDING with the next generation and the codebook of
its source; when it is done the slot is HELD and the tile is told; a RELEASE takes its count off, never below zero. One with a
reserved value is refused, with no other effect. -/
def Sys2Proof.Claims.CodecCommands : Prop :=
  ∀ (s : State), s.partsWf = true → s.regsWf = true → s.ue = [] → (∀ j : Nat, (s.job j).wf = true) → s.blocksRun = true →
    (∀ (q : Fin 4) (j : Nat) (d : Desc) (rest : List Desc), s.halted (blkCodec + q.val) = false → s.owner q = some j →
      (s.dom q).codecQ = d :: rest →
      let b := d.bytes
      let tag := BitVec.ofNat 32 (dfield b 4 4)
      (dfield b 0 1 ≠ 2 → buildOk (s.job j).mask.toNat b = false →
        ∃ u, exec (.codecBuild q) s = .next u ∧ (u.dom q).codecQ = rest ∧ told s u d tag true ∧ (u.job j).slots = (s.job j).slots) ∧
      (∀ k r, buildOk (s.job j).mask.toNat b = true → (∀ k < 16, ((s.job j).slot k).st ≠ .building) → (s.job j).freeSlots = k :: r →
        ∃ u, exec (.codecBuild q) s = .next u ∧ (u.dom q).codecQ = rest ∧ ((u.job j).slot k).st = .building ∧
          ((u.job j).slot k).gen = (((s.job j).slot k).gen + 1) % 8 ∧
          ((u.job j).slot k).entries = buildEntries (decide (dfield b 2 1 = 7)) (elems16 ((buildRows b).flatMap (fun r => (s.readAt r.1 r.2).1))) ∧
          ∀ i, i ≠ k → (u.job j).slot i = (s.job j).slot i) ∧
      (dfield b 0 1 = 2 →
        ∃ u, exec (.codecRelease q) s = .next u ∧ (u.dom q).codecQ = rest ∧ u.dram = s.dram ∧
          let k := dfield b 3 1
          (dfield b 1 1 = 0 ∨ dfield b 1 1 = 2 → k < 16 → dfield b 48 16 = 0 → told s u d tag false ∧
            ((u.job j).slot k).stored = ((s.job j).slot k).stored - dfield b 40 8 ∧
            look (u.job j).counters 5 0 = look (s.job j).counters 5 0 + (if ((s.job j).slot k).stored < dfield b 40 8 then 1 else 0)) ∧
          (16 ≤ k → told s u d tag true ∧ (u.job j).slots = (s.job j).slots))) ∧
    (∀ (j : Fin 4) (k : Fin 16) (w : State), let c := (s.job j).slot k
      s.halted (blkCodec + c.dom) = false → (s.job j).running = true → c.st = .building → c.status = 0 →
      (s.modSlot j k (fun c => { c with st := .held })).writeAt j (dfield c.cmd.bytes 32 8) ([BitVec.ofNat 8 k.val, BitVec.ofNat 8 c.gen] ++
        List.replicate 6 0 ++ c.entries.flatMap (fun e => toLE 2 e.toNat) ++ List.replicate 24 0) = (w, 0, []) →
      ∃ u, exec (.codecBuildDone j k) s = .next u ∧ ((u.job j).slot k).st = .held ∧ u.dram = w.dram ∧
        (u.tile c.cmd.tile).done = (w.tile c.cmd.tile).done ++ [(BitVec.ofNat 32 (dfield c.cmd.bytes 4 4), false)])

/-- Fatal faults, tile faults and wedged blocks are contained as Table FLT-3 says. The model's choices in it: log entry 28 (what an
injection names); log entry 119 (flags of a job that stops); log entry 38 (notices of fault classes); log entry 63 (PLL of a fabric port);
log entry 64 (the lowest free spare); log entry 90 (wedged blocks). -/
def Obligations.Faults : Prop :=
  Sys2Proof.Claims.FatalFaults ∧ Sys2Proof.Claims.TileAndBlockFaults

/-- The lookup engine, the gradient log and the codec of a stack domain. The model's choices in it: log entry 44 (reserved descriptor
values); log entry 45 (async_err); log entry 54 (row indexes outside the table); log entry 102 (live copies); log entry 114 (row numbers of
a lookup). -/
def Obligations.DomainEngines : Prop :=
  Sys2Proof.Claims.Lookups ∧ Sys2Proof.Claims.GradientLog ∧ Sys2Proof.Claims.CodecCommands

/-! ## Links (R196 to R201, R213, R216 to R220, R380, R433) -/

/-- Frames on a port in UP with nothing waiting for credit: the ack of a good one empties the retry buffer up to its number and takes
the credit back; one that has not come whole, by its FEC or its CRC-32C, is answered by NAK and changes nothing, and one of another
type than its body's is discarded. A DATA frame is accepted in sequence, discarded as a repeat, or
refused by NAK; of an accepted packet one of this device is delivered, and one of an op that no rule gives is counted. NAK and time-out send the retry
buffer again, and after 8 replays the link trains anew. -/
def Sys2Proof.Claims.LinkFrames : Prop :=
  ∀ (p : Fin 10) (h : LinkHead) (s : State), s.blocksRun = true → s.halted (blkPort + p.val) = false → (s.port p).st = .up →
    (s.port p).waitQ = [] → s.partsWf = true → s.regsWf = true → (s.port p).wf = true →
    let x := s.port p
    let kept := x.retry.filter (fun r => !seqLe r.1 h.ack)
    let nakOut : Output := .frame p (frameHead 0xFF 0 (x.rxSeq - 1) 0xFF 0 (.nak x.rxSeq)) (.nak x.rxSeq)
    let again (rs : List (BitVec 32 × BitVec 8 × Packet)) : List Output :=
      rs.map (fun r => .frame p (frameHead r.2.1.toNat r.1 (x.rxSeq - 1) 0xFF 0 (.data r.2.2)) (.data r.2.2))
    let whole (b : FrameBody) : Prop := h.fec = true ∧ h.crc = crc32c (headBytes h ++ bodyBytes b)
    let good (b : FrameBody) : Prop := whole b ∧ h.type.toNat = frameType b
    let took (u : State) : Prop := (u.port p).retry = kept ∧ (u.port p).txSeq = x.txSeq ∧ (u.port p).st = .up ∧
      look (u.port p).credits h.creditVc.toNat 0 = look x.credits h.creditVc.toNat 0 - h.creditUnits.toNat ∧ u.dram = s.dram ∧ u.tiles = s.tiles
    (∀ (k : Packet) (n : BitVec 32) (lb : LaneBody) (a : Bool), s.halted (blkRouter + p.val) = false →
      ∀ c ∈ [(Instr.idleFrame p h, FrameBody.none), (.dataFrame p h k, .data k), (.nak p h n, .nak n), (.lane p ⟨h, lb⟩, .lane lb),
          (.stateFrame p ⟨h, a⟩, .state a)],
        (¬ whole c.2 → exec c.1 s = .next { s with out := s.out ++ [nakOut] }) ∧
        (whole c.2 → h.type.toNat ≠ frameType c.2 → exec c.1 s = .next s)) ∧
    (good .none → ∃ u, exec (.idleFrame p h) s = .next u ∧ took u ∧ (u.port p).rxSeq = x.rxSeq ∧ u.out = s.out) ∧
    (∀ k : Packet, good (.data k) → s.halted (blkRouter + p.val) = false →
      (h.seq = x.rxSeq → k.dst.toNat = s.self → opKnown k.op.toNat = true →
        ∃ u, exec (.dataFrame p h k) s = .next u ∧ took u ∧ (u.port p).rxSeq = x.rxSeq + 1 ∧ .packet k ∈ u.out) ∧
      (h.seq = x.rxSeq → opKnown k.op.toNat = false →
        ∃ u, exec (.dataFrame p h k) s = .next u ∧ took u ∧ (u.port p).rxSeq = x.rxSeq + 1 ∧
          u.fld FAB_PORT_STATUS_bad_op p = satTo 16 (s.fld FAB_PORT_STATUS_bad_op p + 1) ∧ (.packet k ∈ u.out → .packet k ∈ s.out)) ∧
      (h.seq ≠ x.rxSeq → ∃ u, exec (.dataFrame p h k) s = .next u ∧ took u ∧ (u.port p).rxSeq = x.rxSeq ∧
        u.out = s.out ++ (if seqLe h.seq x.rxSeq then [] else [nakOut]))) ∧
    (∀ n : BitVec 32, good (.nak n) → (x.replays < 8 ∨ kept.length < x.retry.length) →
      ∃ u, exec (.nak p h n) s = .next u ∧ took u ∧ u.out = s.out ++ again (kept.filter (fun r => seqLe n r.1))) ∧
    (x.retry ≠ [] → (x.replays < 8 → ∃ u, exec (.retryTimeout p) s = .next u ∧ (u.port p).replays = x.replays + 1 ∧
        (u.port p).retry = x.retry ∧ u.out = s.out ++ again x.retry) ∧
      (8 ≤ x.replays → ∃ u, exec (.retryTimeout p) s = .next u ∧ (u.port p).st = .train))

/-- The states of a link (Table FAB-9) and what moves it: light, training, its time-outs, STATE frames, and the control of its port. -/
def Sys2Proof.Claims.LinkStates : Prop :=
  ∀ (p : Fin 10) (s : State), s.partsWf = true → s.regsWf = true → s.blocksRun = true →
    let x := s.port p
    let goes (c : Instr) (st : LinkSt) : Prop := ∃ u, exec c s = .next u ∧ (u.port p).st = st ∧ u.dram = s.dram ∧ u.tiles = s.tiles
    (x.st = .up → goes (.linkDown p) .down ∧ goes (.portEnable p false) .disabled ∧
      ∀ (h : LinkHead) (a : Bool), s.halted (blkPort + p.val) = false → headGood h (.state a) = true → h.type = 6 →
        goes (.stateFrame p ⟨h, a⟩) (if a then .up else .down)) ∧
    (x.st = .train ∨ x.st = .ident ∨ x.st = .quarantine → goes (.lightLost p) .down ∧ goes (.portEnable p false) .disabled) ∧
    (x.st = .train → (∃ u, exec (.trainTimeout p) s = .next u ∧ (u.port p).st = .down ∧ (u.port p).lightHold = true) ∧
      let n := min (s.laneCount p) x.lit
      ∀ (rtt : BitVec 20) (nonce : BitVec 128),
        (2 ≤ n → ∃ u h, exec (.linkTrained p rtt nonce) s = .next u ∧ (u.port p).st = .ident ∧
          (u.port p).ownNonce = nonce ∧ u.fld FAB_PORT_STATUS_rtt p = rtt.toNat ∧ u.fld FAB_PORT_STATUS_q_reason p = 0 ∧
          u.fld FAB_PORT_STATUS_data_lanes p = n ∧ u.out = s.out ++ [.frame p h (.hello nonce)] ∧ headGood h (.hello nonce) = true) ∧
        (n < 2 → goes (.linkTrained p rtt nonce) .down)) ∧
    (x.st = .quarantine → goes (.quarantineRelease p) .train) ∧
    (x.st = .ident → x.accepted = false → goes (.identTimeout p) .down) ∧
    (x.st = .down → s.plat.lsEn = true → s.plat.train.opticalDone = true →
      (∀ lanes : BitVec 5, x.lightHold = false →
        ∃ u, exec (.lightAndLock p lanes) s = .next u ∧ (u.port p).light = lanes ∧
          (u.port p).st = (if 2 ≤ (setBitsOf lanes.toNat 5).length then .train else .down)) ∧
      (2 ≤ x.lit → goes (.downHoldExpiry p) .train)) ∧
    (x.st = .disabled → (8 ≤ p.val ∨ 1 < s.dims.getD (p.val / 2) 1) →
      ∃ u, exec (.portEnable p true) s = .next u ∧ u.fld FAB_PORT_CTRL_port_en p = 1 ∧ ((u.port p).st = .down ∨ (u.port p).st = .train))

/-- Identity (Table FAB-8): HELLO brings the peer's nonce and is answered by IDENT, and leaves again while none has come. The first
check that an IDENT fails puts the link in QUARANTINE with its reason; one that passes is accepted, also as a bypassed or an adopted
link, and the link is UP once both ends have accepted. -/
def Sys2Proof.Claims.LinkIdentity : Prop :=
  ∀ (p : Fin 10) (s : State), s.partsWf = true → s.regsWf = true → s.blocksRun = true → s.halted (blkPort + p.val) = false →
    let x := s.port p
    let good (h : LinkHead) (b : FrameBody) : Prop := headGood h b = true ∧ h.type.toNat = frameType b
    (x.st = .ident ∨ x.st = .quarantine →
      (∀ (h : LinkHead) (nonce : BitVec 128), good h (.hello nonce) → ∃ u g b, exec (.hello p ⟨h, nonce⟩) s = .next u ∧
        (u.port p).peerNonce = some nonce ∧ u.out = s.out ++ [.frame p g (.ident b)] ∧ good g (.ident b) ∧
        b.lpv = 6 ∧ b.port.toNat = p.val ∧ b.ownNonce = x.ownNonce ∧ b.peerNonce = nonce ∧ b.serial = Config.serial ∧ b.coord = quadOf s.coord) ∧
      (∀ (h : LinkHead) (nonce : BitVec 128), ¬ good h (.hello nonce) → exec (.hello p ⟨h, nonce⟩) s = .next s) ∧
      (x.peerNonce = none → ∃ g, exec (.helloRepeat p) s = .next { s with out := s.out ++ [.frame p g (.hello x.ownNonce)] } ∧
        good g (.hello x.ownNonce))) ∧
    (x.st = .ident → x.accepted = false → ∀ (h : LinkHead) (b : IdentBody), good h (.ident b) →
      (∀ r, identFault s p b = some r → ∃ u, exec (.ident p ⟨h, b⟩) s = .next u ∧ (u.port p).st = .quarantine ∧ u.fld FAB_PORT_STATUS_q_reason p = r) ∧
      (identFault s p b = none → joinOf s p b = .refused →
        ∃ u, exec (.ident p ⟨h, b⟩) s = .next u ∧ (u.port p).st = .quarantine ∧ u.fld FAB_PORT_STATUS_q_reason p = 4) ∧
      (identFault s p b = none → joinOf s p b ≠ .refused → ∃ u, exec (.ident p ⟨h, b⟩) s = .next u ∧ (u.port p).accepted = true ∧
        (u.port p).st = (if x.peerAccepts then .up else .ident) ∧ (∃ g, .frame p g (.state true) ∈ u.out ∧ good g (.state true)) ∧ u.fld FAB_PEER_ID_lpv p = b.lpv.toNat ∧
        (∀ l, joinOf s p b = .bypassed l → (u.port p).skips = l) ∧
        (∀ e, joinOf s p b = .adopted e → u.fld FAB_PORT_STATUS_adopted p = 1 ∧ u.fld FAB_PORT_STATUS_adopted_dir p = e))) ∧
    (x.st = .ident → x.accepted = true → ∀ h : LinkHead, good h (.state true) → ∃ u, exec (.stateFrame p ⟨h, true⟩) s = .next u ∧
      (u.port p).st = .up ∧ (s.runningJobs = [] → (u.port p).txSeq = 0 ∧ (u.port p).rxSeq = 0 ∧ (u.port p).retry = [] ∧ (u.port p).credits = []))

/-- Lanes (R197, R380, R433): a lane that fails is mapped out onto the spare, and becomes the spare itself; with none left the link
retrains on the lanes that remain, or goes DOWN with fewer than two. A laser that fails does so for each lane it feeds. The far end may
ask for a switch; a rotation puts the next lane under test, and a failed test marks it. -/
def Sys2Proof.Claims.Lanes : Prop :=
  ∀ (p : Fin 10) (lane : Fin 5) (s : State), s.partsWf = true → s.regsWf = true → s.blocksRun = true →
    let x := s.port p
    let spare (rx : Bool) := s.fld (spareFld rx) p
    (∀ (rx : Bool) (l : Nat), s.laneBad p lane rx = false → s.laneLogical p rx lane = some l →
      (s.laneBad p (spare rx) rx = false →
        ∀ c ∈ [Instr.laneFailure p lane rx] ++ (if rx then [] else [.laserFault [(p, lane)] false]),
          ∃ u, exec c s = .next u ∧ u.lanePhys p rx l = spare rx ∧ u.fld (spareFld rx) p = lane.val ∧ u.laneBad p lane rx = true ∧
            u.fld FAB_PORT_STATUS_spare_used p = 1 ∧ (u.port p).st = x.st ∧ ∀ k < 4, k ≠ l → u.lanePhys p rx k = s.lanePhys p rx k) ∧
      (s.laneBad p (spare rx) rx = true → x.st = .up →
        let good (d : Bool) : Nat := min 4 ((List.range 5).filter (fun q => !s.laneBad p q d && !(decide (d = rx) && decide (q = lane.val)))).length
        let n := min (good false) (good true)
        ∃ u, exec (.laneFailure p lane rx) s = .next u ∧ u.fld FAB_PORT_STATUS_data_lanes p = n ∧
          (u.port p).st = (if 2 ≤ n then .train else .down))) ∧
    (∀ lanes : List (Fin 10 × Fin 5), ∃ u, exec (.laserFault lanes true) s = .next u ∧ u.fld HST_PORT_STATUS_link_up = 0) ∧
    (∀ (h : LinkHead) (b : LaneBody), s.halted (blkPort + p.val) = false → x.st = .up → headGood h (.lane b) = true → h.type = 5 →
      spare b.rx = b.physical.val →
      ∃ u, exec (.lane p ⟨h, b⟩) s = .next u ∧ u.lanePhys p b.rx b.logical = b.physical.val ∧ u.fld (spareFld b.rx) p = s.lanePhys p b.rx b.logical ∧
        (b.rx = true → (u.port p).testRx = some (s.lanePhys p true b.logical)) ∧ (b.rx = false → u.fld FAB_PORT_STATUS_spare_used p = 1)) ∧
    (∀ l, x.st = .up → x.testTx = none → rotNo p false ∉ s.spares.rotStop → s.laneBad p (spare false) false = false →
      s.laneLogical p false ((spare false + 1) % 5) = some l →
      ∃ u, exec (.laneRotation p) s = .next u ∧ u.lanePhys p false l = spare false ∧ (u.port p).testTx = some ((spare false + 1) % 5) ∧
        u.fld (spareFld false) p = (spare false + 1) % 5) ∧
    (∀ pass : Bool, x.testTx = some lane.val → s.laneBad p lane false = false →
      ∃ u, exec (.prbsTestDone p lane pass) s = .next u ∧ (u.port p).testTx = none ∧ u.fld SVC_BIST_RESULT_kind = 5 ∧
        u.fld SVC_BIST_RESULT_unit = 8 * p.val + lane.val ∧ u.fld SVC_BIST_RESULT_outcome = (if pass then 1 else 2) ∧
        u.laneBad p lane false = !pass)

/-! ## Packets and announcements (R206 to R214, R356, R357) -/

/-- The packet that the next one of its stream would be, of a job that runs here. -/
structure Sys2Proof.Machine.InOrder (s : State) (k : Packet) (j : Nat) : Prop where
  here : k.dst.toNat = s.self
  tag : s.jobOfTag k.jobTag = some j
  next : k.streamSeq = (s.stream k.src j (pktClass k)).expect
  first : (s.stream k.src j (pktClass k)).got = []
  held : (s.stream k.src j (pktClass k)).parts = []
  one : k.pktCount = 1
  index : k.pktIndex = 0

/-- Packets at their target: a put of one packet stands in memory, its notify counts, and its stream goes on to the next number; a get
is answered with its data split at the 4 KiB boundaries of its destination; the packets of a longer put are held until the last, and one
that fails a check writes nothing; a log entry lands at its owner. A number below the one
expected is discarded, and a number above it is answered RESEND once. -/
def Sys2Proof.Claims.PacketsArrive : Prop :=
  ∀ (k : Packet) (s : State) (j : Nat), s.partsWf = true → s.regsWf = true → s.blocksRun = true →
    let x := s.stream k.src j (pktClass k)
    (InOrder s k j → k.op = 1 → inJob (s.job j).mask.toNat k.dstAddr.toNat k.payload.length = true → notifyOk (s.job j) k = true →
      ∀ w, s.writeAt j k.dstAddr.toNat k.payload = (w, 0, []) →
      ∃ u, exec (.putPacket k) s = .next u ∧ u.dram = w.dram ∧ (u.stream k.src j (pktClass k)).expect = x.expect + 1 ∧
        (k.flags.getLsbD 5 = true → let t := bits k.notify.toNat 5 14
          (s.tile t).wf = true → (s.tile t).evadds = [] →
          (u.tile t).event (bits k.notify.toNat 0 4) = (s.tile t).event (bits k.notify.toNat 0 4) + 1)) ∧
    (InOrder s k j → k.op = 2 → s.ue = [] → let n := beNat (k.payload.take 8)
      let dst := beNat ((k.payload.drop 8).take 8)
      inJob (s.job j).mask.toNat k.dstAddr.toNat n = true →
      let ps := getPackets s k dst (s.readAt k.dstAddr.toNat n).1
      (∃ u, exec (.getReq k) s = .next u ∧ u = answer (ps.foldl sendPacket (s.setStream x.advance)) k 0 ∧ u.dram = s.dram ∧
        u.tiles = s.tiles ∧ (u.stream k.src j (pktClass k)).expect = x.expect + 1) ∧
      ps.flatMap (·.payload) = (s.readAt k.dstAddr.toNat n).1 ∧
      ∀ q ∈ ps, q.dst = k.src ∧ q.streamSeq = k.streamSeq ∧ q.payload.length ≤ 4096 ∧ (q.payload ≠ [] → dst + n < 2 ^ 64 →
        q.dstAddr.toNat / 4096 = (q.dstAddr.toNat + q.payload.length - 1) / 4096)) ∧
    (k.dst.toNat = s.self → s.jobOfTag k.jobTag = some j → k.streamSeq = x.expect → k.pktIndex.toNat ∉ x.got →
      (x.got.length + 1 ≠ k.pktCount.toNat → ∃ u, exec (.putPacket k) s = .next u ∧ u.dram = s.dram ∧ u.tiles = s.tiles ∧ u.out = s.out ∧
        (u.stream k.src j (pktClass k)).parts = x.parts ++ [k] ∧ (u.stream k.src j (pktClass k)).expect = x.expect) ∧
      (x.got.length + 1 = k.pktCount.toNat → putCheck s j (x.parts ++ [k]) ≠ 0 →
        ∃ u, exec (.putPacket k) s = .next u ∧ u.dram = s.dram ∧ u.tiles = s.tiles ∧ (u.stream k.src j (pktClass k)).expect = x.expect + 1)) ∧
    (InOrder s k j → k.op = 5 → ∀ w, logLand s j k.payload = (w, 0) →
      ∃ u, exec (.logEntry k) s = .next u ∧ u.dram = w.dram ∧ (u.job j).glog = (w.job j).glog ∧
        (u.stream k.src j (pktClass k)).expect = x.expect + 1) ∧
    (k.dst.toNat = s.self → s.jobOfTag k.jobTag = some j → k.streamSeq ≠ x.expect → ∀ c ∈ [Instr.putPacket k, .getReq k, .logEntry k],
      (seqLe k.streamSeq x.expect = true ∨ k.streamSeq ∈ x.resent → exec c s = .next s) ∧
      (seqLe k.streamSeq x.expect = false → k.streamSeq ∉ x.resent →
        ∃ u, exec c s = .next u ∧ u.dram = s.dram ∧ u.tiles = s.tiles ∧ k.streamSeq ∈ (u.stream k.src j (pktClass k)).resent))

/-- Answers at the source of a transfer: a status ends it, but RESEND and FULL make it wait to be sent again, in
the order of its stream; the last data of a get ends it; the end-to-end time-out ends it with an error. -/
def Sys2Proof.Claims.TransfersEnd : Prop :=
  ∀ (s : State) (x : Xfer), s.partsWf = true → s.regsWf = true → s.blocksRun = true →
    let gone (u : State) : Prop := u.router.xfers = s.router.xfers.filter (fun y => decide (y.id ≠ x.id)) ∧
      ∀ a ∈ (u.tile x.tile).asyncs, a.id ≠ x.async
    let marked (u : State) (f : Xfer → Xfer) : Prop :=
      u.router.xfers = modFirst (fun y => decide (y.id = x.id)) f s.router.xfers ∧ u.tiles = s.tiles ∧ u.dram = s.dram
    (∀ k : Packet, s.xferOf k = some x → k.src = x.dst →
      (k.payload.headD 0 = 1 → ∃ u, exec (.completion k) s = .next u ∧ marked u (fun y => { y with resend := true })) ∧
      (k.payload.headD 0 = 9 → ∃ u, exec (.completion k) s = .next u ∧ marked u (fun y => { y with fullWait := true })) ∧
      (x.get = true → k.payload.headD 0 = 0 → exec (.completion k) s = .next s) ∧
      (x.get = true → k.payload.headD 0 = 5 → ∃ u, exec (.completion k) s = .next u ∧ marked u (fun y => { y with status := 5 })) ∧
      (k.payload.headD 0 = 0 → x.get = false → x.log = false → ∃ u, exec (.completion k) s = .next u ∧ gone u) ∧
      (∀ w, x.get = true → x.log = false → k.pktIndex.toNat ∉ x.got → s.writeAt x.job k.dstAddr.toNat k.payload = (w, 0, []) →
        (x.got.length + 1 = k.pktCount.toNat → ∃ u, exec (.getData k) s = .next u ∧ u.dram = w.dram ∧ gone u) ∧
        (x.got.length + 1 ≠ k.pktCount.toNat → ∃ u, exec (.getData k) s = .next u ∧ u.dram = w.dram ∧
          (∃ y ∈ u.router.xfers, y.id = x.id ∧ y.got = k.pktIndex.toNat :: x.got)))) ∧
    (∀ id : BitVec 16, s.router.xfers.find? (fun y => decide (y.id = id.toNat)) = some x →
      (x.resend = true → s.firstOfStream x = true → s.ue = [] → ∃ u, exec (.transferResend id) s = .next u ∧ u.dram = s.dram ∧ u.tiles = s.tiles ∧
        ∀ y, u.router.xfers.find? (fun y => decide (y.id = id.toNat)) = some y → y.resend = false ∧ y.seq = x.seq ∧ y.len = x.len) ∧
      (x.fullWait = true → s.firstOfStream x = false → ∃ u, exec (.fullResendDelay id) s = .next u ∧
        marked u (fun y => { y with fullWait := false, resend := true })) ∧
      (x.log = false → (∃ a ∈ (s.tile x.tile).asyncs, a.id = x.async) →
        ∃ u, exec (.e2eTimeout id) s = .next u ∧ gone u ∧ u.fld TILE_STATUS_async_err x.tile = 1))

/-- Announcements (R214, R356, R357): a link is taken as down or up by the latest announcement of its device and port; a device that
withdraws, or whose every link has stayed down for absent_hold, is lost to the job. -/
def Sys2Proof.Claims.Announcements : Prop :=
  ∀ (s : State) (tag : BitVec 16), s.partsWf = true → s.regsWf = true → s.blocksRun = true →
    (∀ (d : BitVec 12) (p : BitVec 8) (t : BitVec 64) (down : Bool),
      let c := Instr.linkState tag (if down then .down d p t else .up d p t)
      let old := s.router.news.find? (fun n => decide (n.1 = d.toNat) && decide (n.2.1 = p.toNat))
      ((∀ n, old = some n → n.2.2.1 < t.toNat) → ∃ u, exec c s = .next u ∧ u.router.down d.toNat p.toNat = down ∧
        ∀ e q, (e ≠ d.toNat ∨ q ≠ p.toNat) → u.router.down e q = s.router.down e q) ∧
      (∀ n, old = some n → t.toNat ≤ n.2.2.1 → exec c s = .next s)) ∧
    (∀ (kind : BitVec 8), exec (.linkState tag (.other kind)) s = .next s) ∧
    (∀ (j : Fin 4) (cls : BitVec 8) (d : BitVec 12), (s.job j).running = true → (s.job j).inSlice s.dims d.toNat = true → d.toNat ≠ s.self →
      (s.jobOfTag tag = some j.val → ∃ u, exec (.linkState tag (.withdrawal cls d)) s = .next u ∧ d.toNat ∈ (u.job j).lostDevs) ∧
      (s.isolated j d.toNat = true → ∃ u, exec (.absentHoldExpiry j d) s = .next u ∧ d.toNat ∈ (u.job j).lostDevs))

/-- Frames of a link, and its lanes. The model's choices in it: log entry 2 (reason and codeword of a LANE frame); log entry 53 (codewords
are readings); log entry 118 (CRC and bodies); log entry 67 (the shared buffer); log entry 68 (numbers, acks and the ninth replay); log
entry 71 (the lane a rotation takes); log entry 72 (transmit lanes). -/
def Obligations.LinksAndLanes : Prop :=
  Sys2Proof.Claims.LinkFrames ∧ Sys2Proof.Claims.Lanes

/-- The states of a link, and the identity of its peer. The model's choices in it: log entry 53 (light and lock are readings); log entry 73
(LEARN); log entry 74 (locations of a quarantine); log entry 75 (service ports). -/
def Obligations.LinkStatesAndIdentity : Prop :=
  Sys2Proof.Claims.LinkStates ∧ Sys2Proof.Claims.LinkIdentity

/-- Packets at their target, answers at their source, and announcements of links and devices. The model's choices in it: log entry 69
(transfers to the own index); log entry 70 (order of the checks of a put); log entry 23 (glog_appended); log entry 126 (status of a GET
before its data). -/
def Obligations.PacketsAndTransfers : Prop :=
  Sys2Proof.Claims.PacketsArrive ∧ Sys2Proof.Claims.TransfersEnd ∧ Sys2Proof.Claims.Announcements

/-! ## The delta exchange engine: streams to and from partner devices (R256, R257, R274 to R280, R284 to R299, R307, R316) -/

/-- The next round's close of a job whose exchange engine runs is due and nothing holds it back (R127, R257). -/
structure Sys2Proof.Machine.CloseDue (s : State) (j r : Nat) : Prop where
  due : s.closable j = some r
  running : (s.job j).running = true
  active : (s.job j).dxe.active = true
  notReading : (s.job j).dxe.liveReading = false
  notClosed : (s.job j).dxe.closed ≠ some r
  asked : s.allClosed j = true
  clean : s.ue = []

/-- Memory is as before but for the round state of a job, which the engine has written to its area (R253). -/
def Sys2Proof.Machine.areaOnly (s u : State) (j : Nat) : Prop := u.dram = (syncArea { u with dram := s.dram } j).dram

/-- The close of a round keeps its coded blocks as an own contribution, reads the live copies and writes nothing but the round state; a
delta that is not finite ends the job. A lane gives its block back coded for the stream under its own name, and it is released once no
earlier one of its shard is on the way; blocks are sent in order while the window has room, never beyond it, and stay as not
acknowledged until they are sent again under the same names. The table built of a round joins the stream. What is due is acknowledged,
what a full store refused and what is missing is asked for, until it is settled. -/
def Sys2Proof.Claims.StreamsOut : Prop :=
  ∀ (j : Fin 4) (s : State), s.blocksRun = true → s.halted blkDxe = false → s.partsWf = true → s.regsWf = true →
    let x := (s.job j).dxe
    (∀ r, CloseDue s j r → let cs := (x.shards.zipIdx).map (fun p => closeShard s j r p.2 p.1)
      (cs.any (·.bad) = false → ∃ u, exec (.roundClose j) s = .next u ∧ (u.job j).dxe.own = x.own ++ [(r, cs.flatMap (·.blocks))] ∧
        (u.job j).dxe.closed = some r ∧ (u.job j).dxe.liveReading = true ∧ areaOnly s u j ∧ u.tiles = s.tiles ∧
        ∃ y, (u.job j).dxe.round r = some y ∧ 1 ≤ y.stage.code) ∧
      (cs.any (·.bad) = true → s.svc.paused = false → ∃ u, exec (.roundClose j) s = .next u ∧
        ((u.job j).running = false ∨ ((u.job j).phase = .aborting ∧ (u.job j).att.fault = true)))) ∧
    (∀ (dev : BitVec 32) (p : Peer), (s.job j).running = true → x.peer dev = some p →
      let peerIs (c : Instr) (q : Peer) : Prop := ∃ u, exec c s = .next u ∧ (u.job j).dxe.peer dev = some q ∧ u.dram = s.dram ∧ u.tiles = s.tiles
      let window := s.fld DXE_WINDOW_window_bytes j * 2 ^ 26
      (∀ (k : Fin 8) (b : Block), s.lanes[k.val]? = some (j.val, dev, b) → p.coded = [] → s.lanes.length ≤ 8 →
        let others := ((s.lanes.eraseIdx k.val).filter (fun m => decide (m.1 = j.val) && decide (m.2.1 = dev))).map (·.2.2)
        let waits := others.any (fun c => decide (c.round = b.round) && decide (c.shard = b.shard) && decide (c.block.toNat < b.block.toNat))
        blockIdent (p.code b) = blockIdent b ∧ ∃ u q, exec (.blockEncodeDone j dev k) s = .next u ∧ (u.job j).dxe.peer dev = some q ∧
          u.lanes.length ≤ 8 ∧ u.dram = s.dram ∧ q.unacked = p.unacked ∧
          q.outQ = p.outQ ++ (if waits then [] else [p.code b]) ∧ q.coded = (if waits then [p.code b] else [])) ∧
      (∀ b r, p.outQ = b :: r → blockSize b ≤ 9098 → x.inFlight + blockSize b ≤ window →
        s.hasTurn blkHost j (s.runningJobs.filter (fun k => (s.job k).dxe.peers.any (fun q => !(s.nextDatagram k q).isEmpty))) = true →
        ∃ u n, exec (.blockSend j dev) s = .next u ∧ 1 ≤ n ∧ ((p.outQ.take n).map blockSize).sum ≤ 9098 ∧
          (u.job j).dxe.peer dev = some { p with outQ := p.outQ.drop n, unacked := p.unacked ++ p.outQ.take n } ∧ (u.job j).dxe.inFlight ≤ window) ∧
      ((∀ b ∈ p.unacked, (x.ownBlock (blockIdent b)).isSome = true) → ∃ u q, exec (.blockResendTimeout j dev) s = .next u ∧
        (u.job j).dxe.peer dev = some q ∧ q.unacked.map blockIdent = p.unacked.map blockIdent ∧ q.txTables = p.txTables ∧ q.outQ = p.outQ) ∧
      (∀ (n : Nat) (i : BitVec 3) (rest : List (BitVec 3)), x.closed = some n → x.active = true →
        ((List.range 8).map (BitVec.ofNat 3)).filter (fun i => !p.txTables.any (fun q => decide (q.body.id = i))) = i :: rest →
        let mine := ((x.own.filter (fun c => decide (c.1 = n))).flatMap (·.2)).filter (fun b => (s.shardsWith j dev).contains b.shard)
        let t := buildTable (decide (s.fld DXE_CTRL_vfmt j = 1)) i (BitVec.ofNat 64 n) ((mine.filterMap (decodeBody none)).flatten)
        tableOk t = true → (∀ q ∈ p.txTables, q.body.round ≠ t.round) → x.inFlight + (if t.fp4 then 152 else 272) ≤ window →
        peerIs (.tableBuild j dev (BitVec.ofNat 64 n)) { p with txTables := p.txTables ++ [⟨t, false, false⟩] }) ∧
      (∀ room : Bool, room = decide (x.storeBytes + 4096 ≤ s.fld DXE_WINDOW_store_bytes j * 2 ^ 26) → peerIs (.ackCoalesceExpiry j dev)
        (if room then { p with ackDue := [], refused := [], gaps := p.gaps ++ p.refused } else { p with ackDue := [] })) ∧
      (∀ (shard : BitVec 32) (round : BitVec 64), let here (g : BitVec 32 × BitVec 64 × BitVec 32) := decide (g.1 = shard) && decide (g.2.1 = round)
        (x.wants (s.sMax j) (siteOf dev) round.toNat = false →
          peerIs (.nackResend j shard round dev) { p with gaps := p.gaps.filter (fun g => !here g) }) ∧
        (x.wants (s.sMax j) (siteOf dev) round.toNat = true → peerIs (.nackResend j shard round dev) p ∧
          ∀ blocks : List (BitVec 32), (s.shardsWith j dev).contains shard = true →
            (∀ b ∈ blocks, (siteOf dev, shard, round, b) ∉ x.accepted) → let ids := blocks.map (fun b => (shard, round, b))
            peerIs (.gapTimeout j shard round blocks dev) { p with gaps := p.gaps.filter (fun g => !ids.contains g) ++ ids })))

/-- A block passes the checks of Table DXC-3 against what a device holds, and finds room in the store. -/
structure Sys2Proof.Machine.BlockFits (s : State) (j : Nat) (dev : BitVec 32) (p : Peer) (b : Block) : Prop where
  form : blockFormOk b = true
  open_ : (s.openRounds j).1 ≤ b.round.toNat ∧ b.round.toNat ≤ (s.openRounds j).2
  exchanged : (s.shardsWith j dev).contains b.shard = true
  inside : b.firstGroup.toNat + b.groups.toNat ≤ (s.job j).dxe.shardElems / 256
  wanted : (s.job j).dxe.wants (s.sMax j) (siteOf dev) b.round.toNat = true
  fresh : (siteOf dev, blockIdent b) ∉ (s.job j).dxe.accepted
  apart : ∀ q ∈ (s.job j).dxe.store, siteOf q.1 = siteOf dev → q.2.shard = b.shard → q.2.round = b.round → blocksOverlap q.2 b = false
  coded : b.raw = true ∨ ∃ t, p.rxTables.find? (fun t => decide (t.body.id = b.tableId) && !t.retired) = some t ∧ (decodeBody (some t.body) b).isSome = true
  raw : b.raw = true → (decodeBody none b).isSome = true
  room : (s.job j).dxe.storeBytes + blockSize b ≤ s.fld DXE_WINDOW_store_bytes j * 2 ^ 26

/-- A partner's messages, once admitted: a block that passes its checks is stored and its acknowledgement due, one accepted before is only
acknowledged again, one of a wrong form counts as corrupt; a table is held and a retired one that no stored block needs is freed.
Acknowledgements free blocks and let tables be used; a NACK has the blocks it names sent again, or ends the wait for them. The model's
choices in it: log entry 47 (raw blocks); log entry 48 (rounds taken); log entry 49 (a full store); log entry 50 (retired tables). -/
def Obligations.StreamsIn : Prop :=
  ∀ (j : Fin 4) (m : Ubtik) (ty : Nat) (s r : State) (a : Assoc) (p : Peer), admitJob s m pairRx ty 2 = (r, some (j.val, a)) →
    s.halted blkDxe = false → r.partsWf = true → r.regsWf = true → (r.job j).dxe.peer m.src = some p →
    let x := (r.job j).dxe
    let exchange (u : State) := (u.job j).dxe
    (∀ b : Block, ty = 3 →
      (BlockFits r j m.src p b → ∃ u q, exec (.delta m [b] true) s = .next u ∧ (exchange u).store = x.store ++ [(m.src, b)] ∧
        areaOnly r u j ∧ (exchange u).peer m.src = some q ∧ q.ackDue = p.ackDue ++ [blockIdent b] ∧ blockIdent b ∉ q.gaps ∧
        ∃ y, (exchange u).round b.round.toNat = some y ∧ 2 ≤ y.stage.code) ∧
      (blockFormOk b = false → exec (.delta m [b] true) s = .next (r.count DXE_STATUS_corrupt 1 j)) ∧
      (blockFormOk b = true → (siteOf m.src, blockIdent b) ∈ x.accepted → (r.openRounds j).1 ≤ b.round.toNat → b.round.toNat ≤ (r.openRounds j).2 →
        (r.shardsWith j m.src).contains b.shard = true → b.firstGroup.toNat + b.groups.toNat ≤ x.shardElems / 256 →
        ∃ u, exec (.delta m [b] true) s = .next u ∧ (exchange u).store = x.store ∧
          (exchange u).peer m.src = some { p with ackDue := p.ackDue ++ [blockIdent b] })) ∧
    (∀ t : TableBody, ty = 4 →
      (t.retire = false → tableOk t = true → (∀ q ∈ p.rxTables, q.body.id ≠ t.id) → ∃ u, exec (.table m t) s = .next u ∧
        (exchange u).peer m.src = some { p with rxTables := p.rxTables ++ [⟨t, false, false⟩] }) ∧
      (t.retire = false → tableOk t = false → exec (.table m t) s = .next (r.count DXE_STATUS_protocol 1 j)) ∧
      ((∃ q ∈ p.rxTables, q.body.id = t.id) → (∀ b ∈ x.store, b.1 = m.src → b.2.raw = false → b.2.tableId ≠ t.id) →
        ∃ u q, exec (.tableRetire m t) s = .next u ∧ (exchange u).peer m.src = some q ∧ ∀ y ∈ q.rxTables, y.body.id ≠ t.id)) ∧
    (∀ b : AckBody, let ids := b.entries.flatMap (entryIds b.ref)
      (ty = 6 → b.cls = 3 → ∃ u, exec (.ack m b) s = .next u ∧
        (exchange u).peer m.src = some { p with unacked := p.unacked.filter (fun c => !ids.contains (blockIdent c)) }) ∧
      (∀ (e : AckEntry) (t : TxTable), ty = 6 → b.cls = 4 → (p.txTables.map (·.body.id)).Nodup →
        x.inFlight + 16 * p.txTables.length ≤ r.fld DXE_WINDOW_window_bytes j * 2 ^ 26 → b.entries = [e] → e.a.toNat.testBit 23 = false →
        p.txTables.find? (fun t => decide (t.body.id = BitVec.ofNat 3 (bits e.a.toNat 24 26)) && !t.retiring) = some t →
        ∃ u q, exec (.ack m b) s = .next u ∧ (exchange u).peer m.src = some q ∧ q.txTables.map (·.body) = p.txTables.map (·.body) ∧
          ∀ y ∈ q.txTables, (y.body.id = t.body.id → y.acked = true) ∧
            (y.body.id ≠ t.body.id → y.body.round.toNat < t.body.round.toNat → y.retiring = true)) ∧
      (ty = 7 → b.cls = 3 → b.reason = 3 → x.needs (siteOf m.src) b.ref.toNat = false → ∃ u, exec (.nack m b) s = .next u ∧
        (exchange u).peer m.src = some { p with gaps := p.gaps.filter (fun g => !ids.contains g) } ∧ u.dram = r.dram) ∧
      (ty = 7 → b.cls = 3 → b.reason = 1 → (∀ i ∈ ids, (x.ownBlock i).isSome = true) → ∃ u q, exec (.nack m b) s = .next u ∧
        (exchange u).peer m.src = some q ∧ ∀ i ∈ ids, ∃ c ∈ q.unacked, blockIdent c = i))

/-- Paths to a partner (R274, R275): a HEART gives a sample of its path's delay, and an old one nothing; the sender of one that
exchanges a shard has the duty for it; one that no longer hears the path in use, and silence on it, move the traffic to the other path;
the primary takes over again once it has been heard. HEARTs leave on both paths, numbered on. -/
def Sys2Proof.Claims.PartnerPaths : Prop :=
  ∀ (j : Fin 4) (s : State), s.partsWf = true → s.regsWf = true → s.blocksRun = true → s.halted blkDxe = false →
    (∀ (m : Ubtik) (h : HeartBody) (r : State) (a : Assoc) (p : Peer), admitJob s m pairRx 8 2 = (r, some (j.val, a)) → r.partsWf = true →
      (r.job j).dxe.peer m.src = some p →
      let duty := (r.job j).dxe.partners.find? (fun q => decide (q.1 = h.shard) && decide (q.2.1 = siteOf m.src))
      let kept := !h.exchange || duty.all (fun q => decide (q.2.2 = m.src))
      let last := if h.secondary then a.heart2 else a.heart1
      let sample := (p.path h.secondary).sample h.seq.toNat (r.clock.siteTime - h.txTime.toNat) r.locked
      let hears := if p.second then h.hearsSecondary else h.hearsPrimary
      (h.seq.toNat < last → exec (.heart m h) s = .next r) ∧
      (last ≤ h.seq.toNat → h.exchange = true → ∃ u, exec (.heart m h) s = .next u ∧
        ∀ q, (u.job j).dxe.partners.find? (fun q => decide (q.1 = h.shard) && decide (q.2.1 = siteOf m.src)) = some q → q.2.2 = m.src) ∧
      (last ≤ h.seq.toNat → hears = true → kept = true → ∃ u, exec (.heart m h) s = .next u ∧ (u.job j).dxe.peer m.src = some (p.setPath h.secondary sample.1) ∧
        sample.1.silent = false ∧ u.dram = r.dram ∧ u.out = r.out ∧
        u.sec.assocs = modFirst (fun b => decide (b.page = a.page) && decide (b.slot = a.slot)) (fun b =>
          if h.secondary then { b with heart2 := h.seq.toNat + 1 } else { b with heart1 := h.seq.toNat + 1 }) r.sec.assocs) ∧
      (last ≤ h.seq.toNat → hears = false → kept = true → ∃ u q, exec (.heart m h) s = .next u ∧ (u.job j).dxe.peer m.src = some q ∧ q.second = !p.second)) ∧
    (∀ (entry : BitVec 12) (q : BitVec 32 × BitVec 16 × BitVec 32) (p : Peer), (s.job j).dxe.partners[entry.toNat]? = some q →
      (s.job j).dxe.peer q.2.2 = some p →
      (∀ second : Bool, ∃ u y, exec (.pathSilence j entry second) s = .next u ∧ (u.job j).dxe.peer q.2.2 = some y ∧
        (y.path second).silent = true ∧ y.second = (if p.second = second then !second else p.second) ∧ u.dram = s.dram) ∧
      (p.second = true → p.primary.silent = false → ∃ u y, exec (.pathReturn j entry) s = .next u ∧ (u.job j).dxe.peer q.2.2 = some y ∧
        y.second = false ∧ y.primary.samples = [] ∧ u.dram = s.dram ∧ u.out = s.out)) ∧
    ((s.job j).running = true → (s.job j).dxe.active = true → ((s.job j).dxe.peers.map (·.dev)).Nodup → ∃ u, exec (.heartSend j) s = .next u ∧
      ∀ dev p, (s.job j).dxe.peer dev = some p → ∃ q, (u.job j).dxe.peer dev = some q ∧ let n := if (s.shardsWith j dev).isEmpty then 0 else 1
        q.primary.seq = p.primary.seq + n ∧ q.secondary.seq = p.secondary.seq + n ∧ q.unacked = p.unacked ∧ q.second = p.second)

/-- What the delta exchange engine sends to a partner device, and the paths to it. The model's choices in it: log entry 4 (ports of peers);
log entry 20 (the median of an even window); log entry 128 (ties of Huffman lengths); log entry 131 (streams of one job); log entry 24
(numbers of a message sent again). -/
def Obligations.StreamsAndPaths : Prop :=
  Sys2Proof.Claims.StreamsOut ∧ Sys2Proof.Claims.PartnerPaths

/-! ## The delta exchange engine: manifests and installation (R258 to R273, R281, R308) -/

/-- The record of a message of which a fragment comes. -/
def Sys2Proof.Machine.partial' (r : State) (m : Ubtik) (f : Frag) : Fragments :=
  (fragsOf r m).getD { peer := m.src, msg := m.msg, outbound := false, waiting := List.range f.count.toNat, count := f.count.toNat, parts := [] }

/-- The acknowledgement of a message of n fragments leaves (R308, R316). -/
def Sys2Proof.Machine.ackAll (r : State) (j : Nat) (m : Ubtik) (n : Nat) : State :=
  r.sendFor j (.ack m.src false { cls := 5, reason := 0, ref := m.msg, entries := (List.range n).map (fun k => ⟨BitVec.ofNat 32 k, 0, 0⟩) })

/-- The record of a message is noted in place of the one before. -/
def Sys2Proof.Machine.noted (r : State) (m : Ubtik) (q : Fragments) : State := r.modHost (fun h => { h with
  frags := h.frags.filter (fun x => x.outbound || decide (x.peer ≠ m.src) || decide (x.msg ≠ m.msg)) ++ [q] })

/-- A round open at the state, with a property. -/
def Sys2Proof.Machine.roundIs (u : State) (j r : Nat) (f : Round → Prop) : Prop := ∃ y, (u.job j).dxe.round r = some y ∧ f y

/-- MANIFEST-class messages from another site, admitted outside a handover's pause: a fragment is held until the last has come; the whole
message is acknowledged, taken once, and counted and left when its job, site or signature is wrong. A manifest of the awaited issuer over
the base held is accepted, over another base it waits for a re-fetch; the countersignature that completes a strict majority seals the round;
receipts, declarations and joins are recorded, and the beacon issues once it holds every member's receipt. The model's choices in it: log
entry 8 (signatures are opaque); log entry 25 (weights loaded); log entry 51 (absent issuers); log entry 52 (a fetched base); log entry 81
(leads that a message goes to); log entry 133 (a site behind); log entry 135 (fragments that disagree). -/
def Obligations.SignedMessages : Prop :=
  ∀ (j : Fin 4) (m : Ubtik) (f : Frag) (s r : State) (a : Assoc), s.svc.paused = false → siteOf m.src ≠ s.site →
    admitJob s m pairRx 5 3 = (r, some (j.val, a)) → r.partsWf = true →
    (∀ (b : ManifestBody) (c : CountersignBody) (q : ReceiptBody) (n : JoinBody),
      ∀ i ∈ [Instr.manifest m ⟨f, b⟩, .countersign m ⟨f, c⟩, .receipt m ⟨f, q⟩, .join m ⟨f, n⟩],
      (∀ p, fragsOf r m = some p → p.waiting = [] → exec i s = .next (ackAll r j m p.count)) ∧
      ((fragsOf r m).all (fun p => !p.waiting.isEmpty) = true →
        (addPart (partial' r m f) f = none → exec i s = .next (r.count DXE_STATUS_discarded 1 j)) ∧
        (∀ p, addPart (partial' r m f) f = some p → p.waiting ≠ [] → exec i s = .next (noted r m p)))) ∧
    (∀ p, (fragsOf r m).all (fun p => !p.waiting.isEmpty) = true → addPart (partial' r m f) f = some p → p.waiting = [] →
      let t := ackAll (noted r m { p with parts := [] }) j m p.count
      let x := (t.job j).dxe
      let genuine (site : BitVec 16) (fed : BitVec 32) (bytes : Bytes) (sig : BitVec 912) :=
        decide (joinParts p = signedMessage bytes sig) && decide (fed = (t.job j).fedJob) && decide (site = siteOf m.src) && t.signedBy m.src bytes sig
      (∀ (b : ManifestBody) (c : CountersignBody) (q : ReceiptBody) (n : JoinBody),
        ∀ row ∈ [(Instr.manifest m ⟨f, b⟩, genuine b.issuer b.fedJob (manifestBytes b) b.sig),
          (.countersign m ⟨f, c⟩, genuine c.site c.fedJob (countersignBytes c) c.sig), (.receipt m ⟨f, q⟩, genuine q.site q.fedJob (receiptBytes q) q.sig),
          (.join m ⟨f, n⟩, genuine n.site n.fedJob (joinBytes n) n.sig)],
        row.2 = false → exec row.1 s = .next (t.count DXE_STATUS_discarded 1 j)) ∧
      (x.active = true →
        (∀ b : ManifestBody, genuine b.issuer b.fedJob (manifestBytes b) b.sig = true → b.round.toNat = x.sealedNext → issuerOk t j b = true →
          b.prevSeal = ((x.bundles.find? (fun e => decide (e.1 + 1 = x.sealedNext))).map (fun e => manifestDigest e.2.1)).getD 0 →
          (x.round x.sealedNext).any (fun y => (y.manifest.orElse (fun _ => y.waiting)).any (fun n => decide (n.issuer = b.issuer))) = false →
          ∃ u, exec (.manifest m ⟨f, b⟩) s = .next u ∧ u.dram = s.dram ∧ u.tiles = s.tiles ∧ (u.job j).dxe.sealedNext = x.sealedNext ∧
            (baseDigest t j x.sealedNext = some b.baseDigest → roundIs u j x.sealedNext (fun y =>
              y.manifest = some b ∧ y.stage = .computing ∧ y.acceptedAt = s.clock.siteTime ∧ y.waiting = none)) ∧
            (baseDigest t j x.sealedNext ≠ some b.baseDigest → roundIs u j x.sealedNext (fun y => y.waiting = some b) ∧
              (u.job j).dxe.refetch = some (b.issuer, true))) ∧
        (∀ (c : CountersignBody) (b : ManifestBody) (y : Round), genuine c.site c.fedJob (countersignBytes c) c.sig = true →
          c.round.toNat = x.sealedNext → x.round x.sealedNext = some y → y.manifest = some b →
          let signs := y.signs.filter (fun q => decide (q.site ≠ c.site)) ++ [c]
          (∀ q ∈ signs, q.manifestDigest = manifestDigest b ∧ q.anchorDigest = c.anchorDigest ∧ q.site ∈ x.members) →
          let enough := majority (distinct (signs.map (·.site))) x.members.length
          ∃ u, exec (.countersign m ⟨f, c⟩) s = .next u ∧ u.tiles = s.tiles ∧
            (enough = true → areaOnly s u j ∧ (u.job j).dxe.sealedNext = x.sealedNext + 1 ∧
              (u.job j).dxe.bundles.getLast? = some (x.sealedNext, b, c.anchorDigest) ∧
              (u.job j).dxe.members = (b.members.filter (fun e => decide (e.2 ≠ 3))).map (·.1)) ∧
            (enough = false → u.dram = s.dram ∧ (u.job j).dxe.sealedNext = x.sealedNext ∧ roundIs u j x.sealedNext (fun z => z.signs = signs))) ∧
        (∀ q : ReceiptBody, genuine q.site q.fedJob (receiptBytes q) q.sig = true → x.sealedNext ≤ q.round.toNat → q.site ∈ x.members →
          ∃ u, exec (.receipt m ⟨f, q⟩) s = .next u ∧ u.dram = s.dram ∧ (q.absentIssuer ≠ 0xFFFF → roundIs u j q.round.toNat (fun y => q ∈ y.absents)) ∧
            (q.absentIssuer = 0xFFFF → roundIs u j q.round.toNat (fun y => q ∈ y.receipts ∧
              (t.isLeadDevice j = true → x.beacon q.round.toNat = t.site → q.round.toNat = x.sealedNext →
                roundIs t j q.round.toNat (fun z => z.manifest = none ∧ t.site ∉ z.declared) → (∀ v ∈ x.members, ∃ e ∈ y.receipts, e.site = v) →
                ∃ b, y.manifest = some b ∧ b.issuer = t.site ∧ b.round = q.round ∧ b.takeover = false ∧ y.stage = .computing)))) ∧
        (∀ n : JoinBody, genuine n.site n.fedJob (joinBytes n) n.sig = true → ∃ u r', exec (.join m ⟨f, n⟩) s = .next u ∧ u.dram = s.dram ∧
          (r' = x.sealedNext ∨ r' = x.sealedNext + 1) ∧ roundIs u j r' (fun y => n.site ∈ y.joins))))

/-- The times of a round at a site (R259 to R262, R267, R268, R308): at its cut-off, and not before, what is complete stands in the lead's
receipt; at the manifest deadline the beacon issues; a lead that sees no manifest, or none sealed, declares its issuer absent; a majority
for one manifest without a majority of anchors ends the job; the host hears of too many unsealed rounds. Fragments leave again for the
leads that lack them, and a partial message is dropped. -/
def Sys2Proof.Claims.RoundTimes : Prop :=
  ∀ (j : Fin 4) (s : State), s.partsWf = true → s.blocksRun = true → s.svc.paused = false → (s.job j).running = true → (s.job j).dxe.active = true →
    let x := (s.job j).dxe
    let n := x.sealedNext
    let y0 := (x.round n).getD (Round.fresh n)
    let declares (c : Instr) : Prop := ∃ u, exec c s = .next u ∧ u.dram = s.dram ∧ roundIs u j n (fun y => y.declared = x.passedTo n (x.issuer y0) ∧
      ∃ d ∈ y.absents, d.site = s.site ∧ d.absentIssuer = x.issuer y0 ∧ d.round = BitVec.ofNat 64 n)
    (∀ (k : BitVec 64) (others : List (List (BitVec 16 × BitVec 64))), n ≤ k.toNat → (∀ y, x.round k.toNat = some y → y.cut = false) →
      (s.past j k.toNat 1 = false → exec (.cutoff j k others) s = .next s) ∧
      (s.past j k.toNat 1 = true → ∃ u, exec (.cutoff j k others) s = .next u ∧ u.dram = s.dram ∧ u.tiles = s.tiles ∧
        roundIs u j k.toNat (fun y => y.cut = true ∧ y.reports = completeHere s j k.toNat :: others ∧
          (s.isLeadDevice j = true → k.toNat = n → y0.receiptSent = false → y.receiptSent = true ∧ ownReceipt u j k.toNat 0xFFFF ∈ y.receipts)) ∧
        (s.isLeadDevice j = false → u.out = s.out ++ [.complete j k.toNat (completeHere s j k.toNat)]))) ∧
    (s.past j n 2 = false → exec (.manifestDeadline j) s = .next s) ∧
    (s.isLeadDevice j = true → n < 2 ^ 64 →
      (s.past j n 2 = true → x.beacon n = s.site → (∀ y, x.round n = some y → y.manifest = none ∧ s.site ∉ y.declared) →
        ∃ u, exec (.manifestDeadline j) s = .next u ∧ u.dram = s.dram ∧ roundIs u j n (fun y =>
          y.stage = .computing ∧ ∃ b, y.manifest = some b ∧ b.issuer = s.site ∧ b.round.toNat = n ∧ b.takeover = false)) ∧
      (s.past j n 3 = true → (∀ y, x.round n = some y → y.signed = false ∧ y.declared = [] ∧ y.manifest = none ∧ y.waiting = none) →
        declares (.beaconAbsent j)) ∧
      (∀ y, x.round n = some y → x.gone y ≠ [] →
        (s.takeoverIssued j y + 3 * x.grace ≤ s.clock.siteTime → declares (.takeoverTimeout j)) ∧
        (s.clock.siteTime < s.takeoverIssued j y + 3 * x.grace → exec (.takeoverTimeout j) s = .next s))) ∧
    (∀ y, x.round n = some y →
      let signs := y.signs.filter (fun c => x.members.contains c.site)
      let issued := if y.manifest.isSome then y.acceptedAt else s.deadline j n
      let one (c : CountersignBody) := signs.filter (fun d => decide (d.manifestDigest = c.manifestDigest))
      let split := ∃ c ∈ signs, majority (one c).length x.members.length = true ∧
        ∀ d ∈ one c, majority ((one c).filter (fun e => decide (e.anchorDigest = d.anchorDigest))).length (one c).length = false
      (split → issued + 3 * x.grace ≤ s.clock.siteTime → ∃ u, exec (.anchorDigestTimeout j) s = .next u ∧
        ((u.job j).running = false ∨ ((u.job j).phase = .aborting ∧ (u.job j).att.fault = true))) ∧
      (¬ split → exec (.anchorDigestTimeout j) s = .next s)) ∧
    (∀ k, k = s.roundNow j - n → exec (.stallLimit j) s = .next (if s.fld DXE_STALE_CFG_stall_limit j < k then s.notify 5 j k else s)) ∧
    (∀ (msg : BitVec 64) (index : BitVec 16), (∃ u, exec (.fragmentResend msg index) s = .next u ∧ u.host.frags = s.host.frags ∧ u.jobs = s.jobs ∧ u.dram = s.dram) ∧
      ∀ (f : Fragments) (a : Assoc), s.host.frags.filter (fun f => f.outbound && decide (f.msg = msg) && f.waiting.contains index.toNat) = [f] →
        s.sec.assocs.find? (fun a => decide (a.kind = 3) && decide (a.peer = f.peer)) = some a → s.pageEnc a.page = false →
        let o : Output := .fragment f.peer msg index.toNat f.count ((assoc f.parts index.toNat).getD [])
        exec (.fragmentResend msg index) s = .next (s.udp (s.headOf a o) o)) ∧
    (∀ (src : BitVec 32) (msg : BitVec 64), ∃ u, exec (.fragmentDiscard src msg) s = .next u ∧ u.jobs = s.jobs ∧ u.out = s.out ∧
      ∀ f, f ∈ u.host.frags ↔ f ∈ s.host.frags ∧ ¬ (f.outbound = false ∧ f.waiting ≠ [] ∧ f.peer = src ∧ f.msg = msg))

/-- Next copies, re-fetches and installation (R255, R258, R264, R266, R270 to R273): the outer update writes the next copies of the shards
exchanged here, and those of other shards come with their digest, or are fetched again; with all of them and the shard digests of the
site's other devices the site's anchor digest stands and its lead has signed it. A fetched anchor is taken only when it has the digest
asked for; an unanswered fetch goes to the next site. A held job whose anchor is ready installs it. -/
def Sys2Proof.Claims.NextCopies : Prop :=
  ∀ (j : Fin 4) (s : State), s.partsWf = true → s.regsWf = true → s.blocksRun = true → (s.job j).wf = true → (s.job j).running = true →
    let x := (s.job j).dxe
    let E := x.shardElems
    let next (u : State) (e : Nat) : BitVec 32 × BitVec 32 := (look (u.job j).dxe.momNext e 0, look (u.job j).dxe.anchorNext e 0)
    let signed (u : State) (b : ManifestBody) (y : Round) : Prop := (∀ sh ∈ x.shards, sh.1 ∈ y.copies) →
      ∀ d, siteDigest u j (u.job j).dxe.anchorNext y.digests = some d → y.ownDigest = some d ∧ (s.isLeadDevice j = true → b.issuer ∉ y.declared → y.signed = true)
    (∀ (y : Round) (b : ManifestBody), x.round x.installed = some y → y.manifest = some b → y.ownDigest = none →
      (∀ others : List (BitVec 32 × BitVec 256), s.halted blkDxe = false → x.refetch = none → s.areaUe j = [] → missingOf s j b = [] →
        ∃ u, exec (.outerUpdateDone j others) s = .next u ∧ areaOnly s u j ∧ u.tiles = s.tiles ∧
        (∀ p ∈ x.shards.zipIdx, s.exchanges j p.1.1 = true → p.1.1 ∉ y.copies → ∀ i < E, some (next u (p.2 * E + i)) = (outerUpdate s j p.2 p.1.1 b)[i]?) ∧
        roundIs u j x.installed (fun z => (∀ sh ∈ x.shards, s.exchanges j sh.1 = true → sh.1 ∈ z.copies) ∧ (∀ o ∈ others, o ∈ z.digests) ∧ signed u b z)) ∧
      (∀ (shard : BitVec 32) (k : Nat) (a m : List (BitVec 32)) (digest : BitVec 256), x.shardIndex shard = some k → s.exchanges j shard = false →
        (a.length = E → m.length = E → shardDigest a = digest → ∃ u, exec (.nextCopyReceive j shard a m digest) s = .next u ∧ areaOnly s u j ∧
          (∀ i < E, next u (k * E + i) = (m.getD i 0, a.getD i 0)) ∧ roundIs u j x.installed (fun z => shard ∈ z.copies ∧ signed u b z)) ∧
        (a.length ≠ E ∨ m.length ≠ E ∨ shardDigest a ≠ digest →
          exec (.nextCopyReceive j shard a m digest) s = .next (s.emit (.refetchCopy j shard))))) ∧
    (∀ other : BitVec 16 → BitVec 16, other = nextSite (x.members.filter (fun v => decide (v ≠ s.site))) →
      (∀ site, x.joining = some site → ∃ u, exec (.refetchTimeout j) s = .next u ∧ (u.job j).dxe.joining = some (other site) ∧ u.dram = s.dram) ∧
      (∀ site base, x.joining = none → x.refetch = some (site, base) → ∃ u, exec (.refetchTimeout j) s = .next u ∧
        (u.job j).dxe.refetch = some (other site, base) ∧ (u.job j).dxe.gotShards = [] ∧ u.dram = s.dram)) ∧
    (∀ (others : List (BitVec 32 × BitVec 256)) (site : BitVec 16) (base : Bool),
      (fetchedTables x = none ∨ x.joining = none ∧ x.refetch ≠ some (site, base) → exec (.refetchDone j site base others) s = .next s) ∧
      ∀ a m, x.joining = none → x.refetch = some (site, base) → fetchedTables x = some (a, m) →
        (base = true →
          let w := (x.round x.sealedNext).bind (·.waiting)
          let want := ((x.bundles.find? (fun b => decide (b.1 + 1 = x.installed))).map (·.2.2)).getD ((w.map (·.baseDigest)).getD x.liveDigest)
          (siteDigest s j a others = some want → ∃ u, exec (.refetchDone j site base others) s = .next u ∧ (u.job j).dxe.refetch = none ∧
            (u.job j).dxe.anchor = a ∧ (u.job j).dxe.mom = m ∧ (u.job j).dxe.liveDigest = want ∧
            ∀ b, w = some b → x.sealedNext = x.installed → b.baseDigest = want →
              roundIs u j x.sealedNext (fun y => y.manifest = some b ∧ y.stage = .computing)) ∧
          (siteDigest s j a others ≠ some want → exec (.refetchDone j site base others) s = .next (syncArea s j))) ∧
        (∀ d, base = false → (x.round x.target).bind (·.sealedDigest) = some d →
          (siteDigest s j a others = some d → ∃ u, exec (.refetchDone j site base others) s = .next u ∧ (u.job j).dxe.refetch = none ∧
            (u.job j).dxe.anchorNext = a ∧ (u.job j).dxe.momNext = m ∧ roundIs u j x.target (fun y => y.stage = .ready ∧ y.ownDigest = some d)) ∧
          (siteDigest s j a others ≠ some d → exec (.refetchDone j site base others) s = .next (syncArea s j)))) ∧
    (∀ b, (s.job j).holdAct = true → (s.job j).phase = .repairing → (s.job j).anchorReady = true → (x.round x.target).bind (·.manifest) = some b →
      (exec (.installationAct j false) s = .next s) ∧
      ∃ u, exec (.installationAct j true) s = .next u ∧ (u.job j).dxe.installed = x.target + 1 ∧ (u.job j).dxe.anchor = x.anchorNext ∧
        (u.job j).dxe.mom = x.momNext ∧ (u.job j).dxe.skipTo = none ∧ ∀ c ∈ (u.job j).dxe.own, c ∈ x.own)

/-- The times of a round, next copies, re-fetches and installation. The model's choices in it: log entry 18 (the round-state area); log
entry 19 (reports within a site); log entry 132 (a takeover manifest that never came); log entry 21 (argument of a notice); log entry 52 (a
fetched base); log entry 89 (UNAVAILABLE). -/
def Obligations.RoundsAndInstallation : Prop :=
  Sys2Proof.Claims.RoundTimes ∧ Sys2Proof.Claims.NextCopies

/-! ## The host's requests (R309 to R317) -/

/-- A CTRL request of the eleven that R311 and Table HST-4 give, under its session and number. -/
def Sys2Proof.Machine.requestOf (c : Instr) (q : Req) : Prop :=
  (∃ op rsv, c = .ctrlNop q op rsv) ∨ (∃ a n, c = .read q a n) ∨ (∃ a d, c = .write q a d) ∨ (∃ a, c = .jobStart q a) ∨ (∃ j m, c = .jobStop q j m) ∨
    (∃ a l u p, c = .bulkExport q a l u p) ∨ (∃ a l p, c = .bulkImport q a l p) ∨ (∃ m, c = .subscribe q m) ∨ c = .drain q ∨ c = .reset q ∨
    c = .close q

/-- The session's keys can carry responses: its pair passes, and its key epochs are far from their end. -/
structure Sys2Proof.Machine.Keyed (s : State) (slot : Nat) : Prop where
  passes : s.passes pairTx true = true
  held : ∃ a ∈ s.sec.assocs, a.kind = 1 ∧ a.slot = slot
  room : ∀ a ∈ s.sec.assocs, a.kind = 1 → a.slot = slot → a.tx.current ≤ 65535 ∧ a.rx.current ≤ 65535 ∧ a.tx.seq < 2 ^ 31

/-- A request has been executed and answered: the response leaves, and stays kept as that of the session's latest request. -/
def Sys2Proof.Machine.answered (u : State) (slot : Nat) (q : Req) (op : Nat) (r : Resp) : Prop :=
  (∃ h, Output.udp h (.response q.session q.msg op r) ∈ u.out ∧ h.path = q.path) ∧ ∃ y, assoc u.host.sessions slot = some y ∧ y.last = q.msg.toNat ∧ (q.msg.toNat, op, r) ∈ y.kept

/-- Nothing of the machine behind the host port has changed. -/
def Sys2Proof.Machine.untouched (s u : State) : Prop := u.dram = s.dram ∧ u.tiles = s.tiles ∧ u.jobs = s.jobs ∧ u.regs = s.regs

/-- A request is executed exactly once, in the order of its number (R310): one executed before is answered from the responses kept, and
changes nothing; one behind a gap of at most fifteen waits, a copy of it is ignored, and one further ahead is discarded. The session
answers from now on where the request came from. A request of no open session, or not under its keys, counts as an admission failure. -/
def Sys2Proof.Claims.RequestOrder : Prop :=
  ∀ (c : Instr) (q : Req) (s : State), requestOf c q → s.hostUp = true →
    let slot := q.session.toNat % 8
    let n := q.msg.toNat
    (q.head.page ≠ 0xFF ∨ openFor s q = false ∨ s.assocAt 0xFF slot = none ∨ q.head.tagged = false ∨ q.head.src ≠ 0xFFFFFFFF →
      exec c s = .next (s.count SEC_STATUS_admit_fail)) ∧
    (∀ (r : State) (x : Session), Admits s r slot q → assoc r.host.sessions slot = some x →
      let x := { x with path := q.path }
      let t := r.setSession slot x
      (∀ k, n ≤ x.last → x.kept.find? (fun k => decide (k.1 = n)) = some k → exec c s = .next (t.sendTo slot (.response x.id q.msg k.2.1 k.2.2))) ∧
      (n ≤ x.last → (∀ k ∈ x.kept, k.1 ≠ n) → exec c s = .next t) ∧
      (x.last + 16 < n → exec c s = .next t) ∧
      (x.last < n → x.busy = some n ∨ (∃ h ∈ x.held, h.1 = n) → exec c s = .next t) ∧
      (x.last < n → n ≤ x.last + 16 → x.busy ≠ some n → (∀ h ∈ x.held, h.1 ≠ n) →
        x.busy ≠ none ∨ r.ctrlWaits = true ∨ (n ≠ x.last + 1 ∧ ∀ h ∈ x.held, h.1 ≠ x.last + 1) →
        exec c s = .next (t.setSession slot { x with held := x.held ++ [(n, c)] })))

/-- Requests answered without effect on the machine: any request that the device's state does not let through gets STATE (R311); NOP gets
OK, and an op that is none or a reserved argument ARGS; READ gets the bytes of memory or of the register window, ADDR for a misaligned or an absent address and ARGS for a length that is
none; SUBSCRIBE sets the session's notices, unless a reserved bit is set. -/
def Sys2Proof.Claims.RequestsAnswered : Prop :=
  ∀ (q : Req) (s r : State) (slot : Nat) (x : Session), Admits s r slot q → NextRequest r slot x q → Keyed r slot →
    let done (c : Instr) (op v : Nat) (data : Bytes) : Prop := ∃ u, exec c s = .next u ∧ answered u slot q op ⟨BitVec.ofNat 8 v, data⟩ ∧ untouched r u
    (∀ c, requestOf c q → permitted r (ctrlOp c) = false → done c (ctrlOp c) csState []) ∧
    (∀ op rsv : BitVec 16, permitted r op.toNat = true → done (.ctrlNop q op rsv) op.toNat (if op = 1 ∧ rsv = 0 then csOk else csArgs) []) ∧
    (permitted r 0x02 = true → ∀ (a : BitVec 64) (n : BitVec 32),
      (n = 0 ∨ 8192 < n.toNat → done (.read q a n) 0x02 (if r.memOpen = true ∨ placeOf a.toNat 1 = .regs then csArgs else csState) []) ∧
      (0 < n.toNat → n.toNat ≤ 8192 →
        (placeOf a.toNat n.toNat = .none → done (.read q a n) 0x02 (if r.memOpen then csAddr else csState) []) ∧
        (placeOf a.toNat n.toNat = .regs → a.toNat % 8 = 0 → n.toNat % 8 = 0 → done (.read q a n) 0x02 csOk (readRegs r slot (a.toNat - regBase) n.toNat)) ∧
        (placeOf a.toNat n.toNat = .regs → (a.toNat % 8 ≠ 0 ∨ n.toNat % 8 ≠ 0) → done (.read q a n) 0x02 csAddr []) ∧
        (placeOf a.toNat n.toNat = .dram → r.memOpen = true → r.ue = [] → done (.read q a n) 0x02 csOk (r.mem a.toNat n.toNat)) ∧
        (placeOf a.toNat n.toNat = .dram → r.memOpen = false → done (.read q a n) 0x02 csState []))) ∧
    (permitted r 0x30 = true → ∀ mask : BitVec 32,
      (mask &&& 0x87FE = mask → ∃ u y, exec (.subscribe q mask) s = .next u ∧ answered u slot q 0x30 ⟨0, []⟩ ∧ untouched r u ∧
        assoc u.host.sessions slot = some y ∧ y.mask = mask) ∧
      (mask &&& 0x87FE ≠ mask → done (.subscribe q mask) 0x30 csArgs []))

/-- Requests that act: WRITE stores its bytes, or nothing in a range that only the device writes; JOB_START starts the job when its checks
pass and else answers what they found; JOB_STOP stops a job between attempts at once, abandons an open attempt, or marks the job; BULK
requests open a transfer of a range that their page holds; DRAIN, RESET and CLOSE. The model's choices in it: log entry 14 (region table
entries); log entry 31 (BULK pages of stopped jobs); log entry 97 (what a request carries); log entry 98 (answers). -/
def Obligations.RequestsAct : Prop :=
  ∀ (q : Req) (s r : State) (slot : Nat) (x : Session), Admits s r slot q → NextRequest r slot x q → Keyed r slot →
    r.partsWf = true → r.regsWf = true → r.dramWf = true →
    let ok (u : State) (op : Nat) : Prop := answered u slot q op ⟨0, []⟩
    (permitted r 0x03 = true → ∀ (a : BitVec 64) (bs : Bytes), 0 < bs.length → bs.length ≤ 8192 → placeOf a.toNat bs.length = .dram → r.ue = [] →
      (r.runningJobs = [] → ∃ u, exec (.write q a bs) s = .next u ∧ ok u 0x03 ∧ u.tiles = r.tiles ∧ u.jobs = r.jobs ∧
        ∀ b, rd u.dram b = if a.toNat ≤ b ∧ b < a.toNat + bs.length then bs.getD (b - a.toNat) 0 else rd r.dram b) ∧
      (∀ j ∈ r.runningJobs, r.refuses j a.toNat bs.length = true →
        ∃ u, exec (.write q a bs) s = .next u ∧ answered u slot q 0x03 ⟨3, []⟩ ∧ untouched r u)) ∧
    (permitted r 0x10 = true → ∀ a : JobArgs,
      ((startCheck r a).2 = csOk → ∃ u, exec (.jobStart q a) s = .next u ∧ ok u 0x10 ∧ u.plat.dev = .run ∧ let y := u.job a.job.toNat
        y.running = true ∧ y.phase = .opened ∧ y.att.started = false ∧ y.mask = a.mask.setWidth 4 ∧ y.tag = a.tag ∧ y.fedJob = a.fedJob) ∧
      ((startCheck r a).2 ≠ csOk → ∃ u, exec (.jobStart q a) s = .next u ∧ answered u slot q 0x10 ⟨BitVec.ofNat 8 (startCheck r a).2, []⟩ ∧
        u.jobs = r.jobs ∧ u.tiles = r.tiles)) ∧
    (permitted r 0x11 = true → ∀ (job mode : BitVec 8) (j : Nat), j = job.toNat →
      (3 < j ∨ 1 < mode.toNat → ∃ u, exec (.jobStop q job mode) s = .next u ∧ answered u slot q 0x11 ⟨6, []⟩ ∧ untouched r u) ∧
      (j ≤ 3 → mode.toNat ≤ 1 → (r.job j).running = false → ∃ u, exec (.jobStop q job mode) s = .next u ∧ ok u 0x11 ∧ untouched r u) ∧
      (j ≤ 3 → (r.job j).running = true →
        (mode = 0 → (r.job j).phase = .opened → (r.job j).att.started = false → (∀ p ∈ r.host.sessions, p.2.id = q.session → p.1 = slot) →
          ∃ u, exec (.jobStop q job mode) s = .next u ∧ ok u 0x11 ∧ (u.job j).running = false ∧ (u.job j).phase = .stopped ∧ u.dram = r.dram) ∧
        (mode = 0 → (r.job j).phase = .opened → (r.job j).att.started = true → (r.job j).att.reason = none →
          ∃ u, exec (.jobStop q job mode) s = .next u ∧ (u.job j).phase = .aborting ∧ (u.job j).att.stopNext = true ∧
            (u.job j).att.reason = some (13, 0, BitVec.ofNat 22 r.origin)) ∧
        (mode = 1 → ∃ u y, exec (.jobStop q job mode) s = .next u ∧ (u.job j).att.stopCommit = true ∧ (u.job j).running = true ∧
          (u.job j).phase = (r.job j).phase ∧ assoc u.host.sessions slot = some y ∧ y.busy = some q.msg.toNat ∧ u.out = r.out))) ∧
    (permitted r 0x20 = true → ∀ (a n : BitVec 64) (udp : BitVec 16) (page : BitVec 8),
      let busy (u : State) (op : Nat) : Prop := answered u slot q op ⟨5, []⟩ ∧ untouched r u
      let begun (u : State) (op : Nat) (i : Bool) : Prop := answered u slot q op ⟨0, toBE 8 r.host.bulkNext⟩ ∧ u.dram = r.dram ∧
        ∃ b ∈ u.host.bulks, b.id = r.host.bulkNext ∧ b.inbound = i ∧ b.addr = a.toNat ∧ b.len = n.toNat ∧ b.page = page.toNat ∧ b.session = q.session
      (r.fencedPair pairBulk = true → (∃ u, exec (.bulkExport q a n udp page) s = .next u ∧ busy u 0x20) ∧
        (∃ u, exec (.bulkImport q a n page) s = .next u ∧ busy u 0x21)) ∧
      (r.fencedPair pairBulk = false → n ≠ 0 → r.pageHolds page.toNat a.toNat n.toNat = true → (∀ b ∈ r.host.bulks, b.id ≠ r.host.bulkNext) →
        (∃ u, exec (.bulkExport q a n udp page) s = .next u ∧ begun u 0x20 false) ∧
        (∃ u, exec (.bulkImport q a n page) s = .next u ∧ begun u 0x21 true))) ∧
    (permitted r 0x40 = true →
      (r.runningJobs = [] → r.plat.dev ≠ .drain → ∃ u, exec (.drain q) s = .next u ∧ ok u 0x40 ∧ u.plat.dev = .ready ∧ u.jobs = r.jobs) ∧
      (r.runningJobs ≠ [] → (∀ j ∈ r.runningJobs, (r.job j).att.started = true) →
        ∃ u, exec (.drain q) s = .next u ∧ ok u 0x40 ∧ u.plat.dev = .drain ∧ u.jobs = r.jobs)) ∧
    (permitted r 0x41 = true → ∃ u, exec (.reset q) s = .next u ∧ (∃ h, .udp h (.response q.session q.msg 0x41 ⟨0, []⟩) ∈ u.out) ∧ u.dram = [] ∧ u.tiles = [] ∧
      u.jobs = [] ∧ u.host = State.reset.host ∧ u.plat.cause = 2 ∧ u.plat.flash = r.plat.flash ∧ u.plat.fuses = r.plat.fuses ∧ u.pending = r.pending) ∧
    (permitted r 0x42 = true → ∃ u, exec (.close q) s = .next u ∧ (∃ h, .udp h (.response q.session q.msg 0x42 ⟨0, []⟩) ∈ u.out) ∧ assoc u.host.sessions slot = none ∧
      (∀ a ∈ u.sec.assocs, a.kind = 1 → a.slot ≠ slot) ∧ untouched r u)

/-- The host port (R301, R302, R309, R313 to R317): sessions time out and are killed; notices leave again; solicitations and echoes are
answered; discards count. A whole segment of an import is written once, an object that a device asks for becomes a transfer, segments leave
again until they are acknowledged, and a transfer without progress is dropped. The model's choices in it: log entry 46 (what a discarded
frame carries); log entry 130 (answers of neighbours); log entry 134 (VLANs); log entry 27 (objects of BULK); log entry 87 (notice 15); log
entry 88 (uncorrectable lines of an export). -/
def Obligations.HostPortEvents : Prop :=
  ∀ (s : State), s.regsWf = true → s.clocked = true →
    (∀ slot : Fin 8, ∃ u, exec (.sessionTimeout slot) s = .next u ∧ assoc u.host.sessions slot = none ∧ untouched s u ∧
      ∀ k, k ≠ slot.val → assoc u.host.sessions k = assoc s.host.sessions k) ∧
    (∀ slots : BitVec 8, ∃ u, exec (.sessionKill slots) s = .next u ∧ untouched s u ∧
      ∀ k < 8, assoc u.host.sessions k = if slots.getLsbD k then none else assoc s.host.sessions k) ∧
    (∀ (slot : Fin 8) (x : Session), assoc s.host.sessions slot = some x → s.hostUp = true → Keyed s slot → x.notices.length ≤ 256 →
      ∃ u, exec (.notifyResend slot) s = .next u ∧ untouched s u ∧ (∀ n ∈ x.notices, ∃ h, .udp h (.notice x.id n) ∈ u.out) ∧
        assoc u.host.sessions slot = some x) ∧
    (s.hostUp = true →
      (∀ target from_ : BitVec 128, exec (.neighborSolicitation target from_) s = .next (if target = s.globalAddr ∨ target = s.localAddr then
        { s with out := s.out ++ [.neighbour from_], host := { s.host with neighbours := addNeighbour from_ s.host.neighbours } } else s)) ∧
      (∀ (from_ : BitVec 128) (data : Bytes), ∃ u, exec (.echoRequest from_ data) s = .next u ∧ untouched s u ∧
        u.out = s.out ++ (if s.host.neighbours.contains (s.nextHop from_) then [] else [.solicit (s.nextHop from_)]) ++ [.echo from_ data]) ∧
      (∀ w : Wire,
        (w.fec = true → exec (.discardedFrame w) s = .next (s.count HST_PORT_STATUS_fec_uncorr)) ∧
        (w.fec = false → 9216 < w.frameLen ∨ w.vlan = none ∨ (∃ v, w.vlan = some v ∧ v.toNat ∉ s.vlans) →
          exec (.discardedFrame w) s = .next (s.count HST_PORT_STATUS_frame_discards)) ∧
        (w.fec = false → frameFits s w = true →
          (w.extension = true → exec (.discardedFrame w) s = .next s) ∧
          (w.extension = false → w.checksumOk = false ∨ w.port.toNat ≠ s.fld HST_IP_CFG_ubtik_port ∨ w.version ≠ 1 ∨ w.cls = 0 ∨ 8 < w.cls.toNat ∨
              w.flags.toNat % 32 ≠ 0 ∨ w.dst.toNat ≠ s.origin ∨ 9098 < w.length.toNat ∨
              w.udpLen.toNat ≠ 40 + w.length.toNat + (if w.flags.getLsbD 7 then 16 else 0) →
            exec (.discardedFrame w) s = .next (s.count HST_PORT_STATUS_ubtik_discards))))) ∧
    (∀ (m : Ubtik) (b : Bulk) (k j : Nat) (data : Bytes) (r : State), m.src = 0xFFFFFFFF → s.host.bulks = [b] → b.inbound = true → b.host = true → b.id < 2 ^ 64 →
      m.page.toNat = b.page → s.pageJob b.page = some j → s.inService = true → k < b.segs → b.pieces = [] →
      data.length = b.segLen k → data.length ≤ 8192 → b.len < 2 ^ 47 → admitHost s m (b.session.toNat % 8) pairBulk 2 true true = (r, true) →
      let c := Instr.bulkData m (BitVec.ofNat 64 b.id) (BitVec.ofNat 32 k) (BitVec.ofNat 64 (65536 * k)) data true
      let at' := b.addr + 65536 * k
      (k ∈ b.doneSegs → m.tagOk = true → ∃ u, exec c s = .next u ∧ u.dram = s.dram ∧ u.tiles = s.tiles ∧ u.host.bulks = [b]) ∧
      (k ∉ b.doneSegs → m.tagOk = true → (s.job j).running = false → s.pageHolds b.page at' data.length = true → placeOf at' data.length = .dram →
        ∃ u, exec c s = .next u ∧ u.dram = wrN s.dram at' data ∧ u.tiles = s.tiles ∧ u.host.bulks = [{ b with doneSegs := b.doneSegs ++ [k] }]) ∧
      (k ∉ b.doneSegs → m.tagOk = false → ∃ u, exec c s = .next u ∧ u.dram = s.dram ∧ u.tiles = s.tiles ∧ u.host.bulks = [b] ∧
        u.fld SEC_STATUS_tag_fail = satTo 16 (r.fld SEC_STATUS_tag_fail + 1))) ∧
    (∀ (m : Ubtik) (obj : BitVec 8) (round : BitVec 64) (first count : BitVec 32) (r : State) (j : Nat) (a : Assoc), s.fencedPair pairBulk = false →
      admitJob s m pairBulk 2 2 = (r, some (j, a)) → (r.job j).dxe.active = true → (∀ b ∈ r.host.bulks, b.id ≠ r.host.bulkNext) →
      let o := if obj = 1 then bundleObject (r.job j).dxe round.toNat else if obj = 2 then anchorObject (r.job j).dxe round.toNat first.toNat count.toNat else none
      (∀ body, o = some body → ∃ u, exec (.bulkRequest m obj round first count) s = .next u ∧ u.jobs = r.jobs ∧
        ∃ b ∈ u.host.bulks, b.id = r.host.bulkNext ∧ b.peer = m.src ∧ b.inbound = false ∧ b.body = objectHeader body.length round.toNat ++ body) ∧
      (o = none → ∃ u, exec (.bulkRequest m obj round first count) s = .next u ∧ u.host.bulks = r.host.bulks ∧ u.jobs = r.jobs)) ∧
    (∀ (xfer : BitVec 64) (segment : BitVec 32) (b : Bulk), s.bulkOf xfer.toNat = some b →
      (segment.toNat ∉ b.unacked → exec (.bulkSegmentResend xfer segment) s = .next s) ∧
      (segment.toNat ∈ b.unacked → b.host = true → s.hostUp = true → s.ue = [] → s.passes pairBulk false = true → Keyed s (b.session.toNat % 8) →
        ∃ u, exec (.bulkSegmentResend xfer segment) s = .next u ∧ untouched s u ∧ u.host.bulks = s.host.bulks ∧
          ∀ d ∈ segDatagrams b.id segment.toNat (s.readAt (b.addr + 65536 * segment.toNat) (b.segLen segment.toNat)).1, ∃ h, .udp h d ∈ u.out)) ∧
    (∀ (xfer : BitVec 64) (peer : BitVec 32) (b : Bulk),
      s.host.bulks.find? (fun b => decide (b.id = xfer.toNat) && (if peer = 0xFFFFFFFF then b.own else !b.own && decide (b.peer = peer))) = some b →
      ∃ u, exec (.bulkAbandon xfer peer) s = .next u ∧ u.host.bulks = s.host.bulks.filter (fun y => !b.same y) ∧ untouched s u)

/-- CTRL requests are executed once and in order, and answered. The model's choices in it: log entry 33 (when held requests run); log entry
97 (what a request carries); log entry 98 (answers); log entry 100 (copies of a request). -/
def Obligations.RequestsInOrder : Prop :=
  Sys2Proof.Claims.RequestOrder ∧ Sys2Proof.Claims.RequestsAnswered

/-! ## Associations, keys and cipher engines (R323 to R345, R381) -/

/-- Admission (R331, R332, R335, R339, R342, R344): of a datagram of job traffic, out of service nothing is looked at; the first check that
fails counts as an admission failure or a failed tag and leaves the rest of the machine alone; a tagged one passes the cipher engine pair, under
its job and its class; one under the next key epoch whose tag verifies makes the receiver advance. -/
def Sys2Proof.Claims.Admission : Prop :=
  ∀ (s : State) (m : Ubtik) (cls : Nat) (kind : BitVec 8), s.regsWf = true →
    let r := admitJob s m pairRx cls kind
    let refused := r = (s.count SEC_STATUS_admit_fail, none)
    (s.jobTraffic = false → r = (s, none)) ∧
    (s.jobTraffic = true → (s.pageJob m.page.toNat = none → refused) ∧ ∀ j, s.pageJob m.page.toNat = some j →
      ((s.job j).running = false ∨ (s.job j).fedJob ≠ m.context ∨ s.assocOf kind m.page.toNat m.src = none → refused) ∧
      ∀ a, (s.job j).running = true → (s.job j).fedJob = m.context → s.assocOf kind m.page.toNat m.src = some a →
        (m.tagged ≠ s.pageEnc m.page.toNat → refused) ∧
        (m.tagged = false → s.pageEnc m.page.toNat = false → r = (s, some (j, a))) ∧
        (m.tagged = true → s.pageEnc m.page.toNat = true →
          (a.rx.use m.keyEpoch.toNat = none → refused) ∧
          (s.fencedPair pairRx = false → s.halted (blkPair + pairRx) = false → m.mismatches = 0 →
            let host := decide (a.kind = 1)
            let t := s.through pairRx (urgentClass host cls) (if host then 4 else s.fld SEC_PAGE_CTRL_job a.page) m.length.toNat
            (m.keyEpoch.toNat = a.rx.current → m.tagOk = true → r = (t, some (j, a))) ∧
            (m.keyEpoch.toNat = a.rx.current → m.tagOk = false → r = (t.count SEC_STATUS_tag_fail, none)) ∧
            (m.keyEpoch.toNat = a.rx.current + 1 → a.rx.previous ≠ some m.keyEpoch.toNat → m.tagOk = true → r.2 = some (j, a) ∧
              r.1.sec.pairs = t.sec.pairs ∧
              r.1.sec.assocs = modFirst (fun b => decide (b.page = a.page) && decide (b.slot = a.slot)) (fun b => { b with rx := b.rx.step s.clock.uptime })
                s.sec.assocs) ∧
            (∀ k, a.rx.use m.keyEpoch.toNat = some k → admitJob s m pairRx cls kind true = (t, some (j, a))))))

/-- A handshake datagram is tagged under key_epoch 0, and its tag is the one that the initiator's nonce gives. -/
def Sys2Proof.Machine.tagGood (t : HsTag) (nonce : BitVec 128) : Prop := t.tagged = true ∧ t.keyEpoch = 0 ∧ t.tag = shakeTag nonce t.header

/-- A handshake datagram has left towards a device, tagged under key_epoch 0 and the initiator's nonce. -/
def Sys2Proof.Machine.shaken (u : State) (dst : BitVec 32) (nonce : BitVec 128) (o : Output) : Prop :=
  ∃ h, Output.udp h o ∈ u.out ∧ h.dst = dst ∧ h.keyEpoch = 0 ∧ h.context = 0 ∧ h.trailer = some (shakeTag nonce { h with trailer := none }.bytes)

/-- Handshakes (R323 to R328): a datagram not tagged under key_epoch 0, or with another tag than the initiator's nonce gives, is discarded
and counted. An INIT that fails a check of Table SEC-6 is answered by its status alone, any other by a RESP that stands half open; the FIN
that completes it opens the association under the keys of both, and for a host a session; a RESP brings the FIN of this device, FIN_ACK its
association. Unanswered ones leave again with fresh values, are given up after twenty, or time out. The model's choices in it: log entry 8
(signatures are opaque); log entry 24 (FIN_ACK takes no number); log entry 84 (who may form associations); log entry 85 (an all-zero X448
result); log entry 86 (which handshake an answer concerns). -/
def Obligations.Handshakes : Prop :=
  ∀ (s : State), s.hostUp = true → s.passes pairRx false = true → s.passes pairTx false = true → s.svc.paused = false → s.regsWf = true →
    (∀ (t : HsTag) (b : InitBody),
      (t.tagged = false ∨ t.keyEpoch ≠ 0 → exec (.init ⟨t, b⟩) s = .next (s.count SEC_STATUS_admit_fail)) ∧
      (t.tagged = true → t.keyEpoch = 0 → t.tag ≠ shakeTag b.nonce t.header → exec (.init ⟨t, b⟩) s = .next (s.count SEC_STATUS_tag_fail)) ∧
      (tagGood t b.nonce → let v := initStatus s b
        let begun := s.sec.shakes.any (fun h => h.initiator && decide (h.peer = b.src) && decide (h.init.kind = b.kind) && decide (h.init.page = b.page))
        (v ≠ 0 → ∃ u, exec (.init ⟨t, b⟩) s = .next u ∧ untouched s u ∧ u.sec = s.sec ∧ shaken u b.src b.nonce (.resp b.src (respRefused s v) [])) ∧
        (v = 0 → begun = true → s.origin < b.src.toNat → exec (.init ⟨t, b⟩) s = .next s) ∧
        (v = 0 → begun = false ∨ b.src.toNat ≤ s.origin → ∃ u, exec (.init ⟨t, b⟩) s = .next u ∧ untouched s u ∧ u.sec.assocs = s.sec.assocs ∧ u.free = s.free + 2 ∧
          (Config.x448 (Config.random (s.free + 1)) b.eph = 0 → u.sec = s.sec ∧ u.out = s.out) ∧
          (Config.x448 (Config.random (s.free + 1)) b.eph ≠ 0 → ∃ (h : Shake) (r : RespBody) (q : Bytes), u.sec.shakes.getLast? = some h ∧ h.initiator = false ∧
            h.peer = b.src ∧ h.init = b ∧ h.resp = some (r, q) ∧ h.secret = Config.random (s.free + 1) ∧ r.status = 0 ∧ r.eph = Config.x448Public h.secret ∧
            r.serial = Config.serial ∧ r.pubkey = Config.ed448Public s.plat.idKey ∧ r.sig = Config.ed448Sign 6 s.plat.idKey (respHash b { r with sig := 0 } q) ∧
            (q = if b.flags.getLsbD 0 then quote s else []) ∧ shaken u b.src b.nonce (.resp b.src r q) ∧
            (b.kind = 1 → r.session.toNat % 8 = s.freeSlots.headD 0 % 8 ∧ u.host.sessionNext = s.host.sessionNext + 1))))) ∧
    (∀ (t : HsTag) (b : FinBody) (h : Shake) (r : RespBody) (q : Bytes),
      s.sec.shakes.find? (fun h => !h.initiator && decide (h.peer = b.src) && decide (h.init.nonce = b.nonceI)) = some h → h.resp = some (r, q) →
      (t.tagged = false ∨ t.keyEpoch ≠ 0 → exec (.fin ⟨t, b⟩) s = .next (s.count SEC_STATUS_admit_fail)) ∧
      (tagGood t b.nonceI → let good := credentialOk s h b && Config.ed448Verify 7 b.pubkey (finHash h.init r q b) b.sig
        let chain (d : Nat) := firstChain (Config.x448 h.secret h.init.eph) h.init r q b d
        ∃ u, exec (.fin ⟨t, b⟩) s = .next u ∧ u.dram = s.dram ∧ u.tiles = s.tiles ∧ u.jobs = s.jobs ∧
          (good = false → u.sec = s.sec ∧ u.fld SEC_STATUS_hs_fail = satTo 16 (s.fld SEC_STATUS_hs_fail + 1)) ∧
          (good = true → u.sec.shakes = s.sec.shakes.erase h ∧ (∃ d, Output.udp d (.finAck h.peer) ∈ u.out) ∧
            (∃ a, u.sec.assocs.getLast? = some a ∧ a.kind = h.init.kind ∧ a.page = h.init.page.toNat ∧ a.peer = h.peer ∧ a.pubkey = b.pubkey ∧
              a.tx.current = 1 ∧ a.tx.chain = chain 1 ∧ a.tx.key = chainKeys (chain 1) ∧ a.rx = Epochs.fresh s.clock.uptime (chain 0)) ∧
            (h.init.kind = 1 → ∃ y, assoc u.host.sessions (r.session.toNat % 8) = some y ∧ y.id = r.session ∧ y.last = 0 ∧ y.host = b.serial ∧ y.path = h.init.path)))) ∧
    (∀ (t : HsTag) (b : RespBody) (h : Shake) (rest : List Shake),
      (s.sec.shakes.filter (fun h => h.initiator && decide (h.peer = b.src) && h.resp.isNone) = h :: rest → t.tagged = false ∨ t.keyEpoch ≠ 0 →
        exec (.resp ⟨t, b⟩) s = .next (s.count SEC_STATUS_admit_fail)) ∧
      ((s.sec.shakes.filter (fun h => h.initiator && decide (h.peer = b.src) && h.resp.isNone)).filter (fun h => (shakeOk s t h.init.nonce).2) = h :: rest →
        (b.status ≠ 0 → ∃ u, exec (.resp ⟨t, b⟩) s = .next u ∧ u.sec.shakes = s.sec.shakes.erase h ∧ untouched s u) ∧
        (b.status = 0 → rest = [] → let good := vendorCert b.serial b.pubkey b.certSig && Config.ed448Verify 6 b.pubkey (respHash h.init b []) b.sig &&
            (match pageNamed s h.init.page.toNat with
              | some j => serialListed s j h.init.kind h.init.page.toNat b.src b.serial
              | none => false)
          ∃ u, exec (.resp ⟨t, b⟩) s = .next u ∧ u.dram = s.dram ∧ u.jobs = s.jobs ∧ u.tiles = s.tiles ∧
            (good = false → u.sec = s.sec ∧ u.fld SEC_STATUS_hs_fail = satTo 16 (s.fld SEC_STATUS_hs_fail + 1)) ∧
            (good = true → Config.x448 h.secret b.eph = 0 → u.sec.shakes = s.sec.shakes.erase h ∧ u.out = s.out) ∧
            (good = true → Config.x448 h.secret b.eph ≠ 0 → { h with resp := some (b, []) } ∈ u.sec.shakes ∧
              ∃ f, (∃ d, Output.udp d (.fin b.src f) ∈ u.out) ∧ f.nonceI = h.init.nonce ∧ f.credential = 1 ∧
                f.sig = Config.ed448Sign 7 s.plat.idKey (finHash h.init b [] { f with sig := 0 }))))) ∧
    (∀ (m : Ubtik) (h : Shake) (r : RespBody) (q : Bytes), s.sec.shakes.find? (fun h => h.initiator && decide (h.peer = m.src) && h.resp.isSome) = some h → h.resp = some (r, q) →
      (m.tagged = false ∨ m.keyEpoch ≠ 1 → exec (.finAck m) s = .next (s.count SEC_STATUS_admit_fail)) ∧
      (m.tagged = true → m.keyEpoch = 1 → m.mismatches = 0 →
        let t := s.through pairRx true (s.fld SEC_PAGE_CTRL_job h.init.page.toNat) m.length.toNat
        let f := ownFin s h r
        let chain (d : Nat) := firstChain (Config.x448 h.secret r.eph) h.init r q f d
        (m.tagOk = false → exec (.finAck m) s = .next (t.count SEC_STATUS_tag_fail)) ∧
        (m.tagOk = true → ∃ u a, exec (.finAck m) s = .next u ∧ untouched s u ∧ u.sec.shakes = s.sec.shakes.erase h ∧ u.sec.assocs.getLast? = some a ∧
          a.kind = h.init.kind ∧ a.page = h.init.page.toNat ∧ a.peer = h.peer ∧ a.serial = r.serial ∧ a.pubkey = r.pubkey ∧
          a.tx = Epochs.fresh s.clock.uptime (chain 0) ∧ a.rx = Epochs.fresh s.clock.uptime (chain 1)))) ∧
    (∀ (peer : BitVec 32) (kind page : BitVec 8) (h : Shake),
      s.sec.shakes.find? (fun h => h.initiator && decide (h.peer = peer) && decide (h.init.kind = kind) && decide (h.init.page = page) && h.resp.isNone) = some h →
      let b : InitBody :=
        { h.init with nonce := (Config.random s.free).setWidth 128, eph := Config.x448Public (Config.random (s.free + 1)) }
      (h.attempts < 20 → ∃ u, exec (.initResend peer kind page) s = .next u ∧ untouched s u ∧ u.free = s.free + 2 ∧ shaken u peer b.nonce (.init peer b) ∧
        { h with init := b, secret := Config.random (s.free + 1), attempts := h.attempts + 1 } ∈ u.sec.shakes) ∧
      (20 ≤ h.attempts → ∃ u, exec (.initResend peer kind page) s = .next u ∧ u.sec.shakes = s.sec.shakes.erase h ∧ u.out = s.out ∧
        u.fld SEC_STATUS_hs_fail = satTo 16 (s.fld SEC_STATUS_hs_fail + 1))) ∧
    (∀ (peer : BitVec 32) (h : Shake), s.sec.shakes.find? (fun h => !h.initiator && decide (h.peer = peer)) = some h →
      exec (.handshakeTimeout peer) s = .next { s with sec := { s.sec with shakes := s.sec.shakes.erase h } })

/-- Key epochs and cipher engine pairs (R327, R333, R334, R339, R340, R381, Table FLT-3): an epoch that has aged is followed by the next one, under the
next chain value, at once or when the one before it is released; a pair that fails its known-answer test is fenced, and with a host pair every running
job is withdrawn, with the bulk pair the tagged transfers. -/
def Sys2Proof.Claims.KeysAndEngines : Prop :=
  ∀ (s : State), s.partsWf = true → s.regsWf = true →
    (∀ (page : BitVec 8) (n : BitVec 11) (a : Assoc), s.assocAt page.toNat n.toNat = some a →
      (∀ b ∈ s.sec.assocs, b.tx.current < 65535 ∧ b.rx.current ≤ 65535) → s.clocked = true →
      let next (e : Epochs) : Prop := e.current = a.tx.current + 1 ∧ e.previous = some a.tx.current ∧ e.seq = 0 ∧ e.wantNext = false ∧
        e.chain = nextChain a.tx.chain ∧ e.key = chainKeys e.chain ∧ e.keyBefore = some a.tx.key
      (a.tx.previous = none → ∃ u b, exec (.keyEpochAge page n) s = .next u ∧ u.assocAt page.toNat n.toNat = some b ∧ next b.tx ∧ b.rx = a.rx ∧ untouched s u) ∧
      (∀ old, a.tx.previous = some old →
        (∃ u b, exec (.keyEpochAge page n) s = .next u ∧ u.assocAt page.toNat n.toNat = some b ∧ b.tx = { a.tx with wantNext := true } ∧ untouched s u) ∧
        (∃ u b, exec (.epochRelease page n) s = .next u ∧ u.assocAt page.toNat n.toNat = some b ∧ untouched s u ∧
          (a.tx.wantNext = false → b.tx = { a.tx with previous := none, keyBefore := none }) ∧ (a.tx.wantNext = true → next b.tx)))) ∧
    (∀ pair : Fin 3, s.fencedPair pair = false →
      (s.plat.dev = .train → ∃ u, exec (.cipherKat pair true) s = .next u ∧ u.plat.train.kat.getLsbD pair.val = true ∧ untouched s u) ∧
      (s.plat.dev ≠ .train → exec (.cipherKat pair true) s = .next s) ∧
      (s.svc.paused = false → let fenced (u : State) : Prop := u.fencedPair pair = true ∧
          (pair.val ≠ pairBulk → ∀ j ∈ s.runningJobs, (u.job j).running = false ∧ (u.job j).phase = .stopped) ∧
          (pair.val = pairBulk → u.host.bulks = s.host.bulks.filter (fun b => !b.host && !s.pageEnc b.page) ∧ u.jobs = s.jobs)
        (∃ u, exec (.cipherKat pair false) s = .next u ∧ fenced u) ∧ (∃ u, exec (.cipherFence pair) s = .next u ∧ fenced u))) ∧
    (∀ pair : Fin 3, s.fencedPair pair = true →
      (∀ pass, exec (.cipherKat pair pass) s = .next s) ∧ exec (.cipherFence pair) s = .next s)

/-- Admission of datagrams, key epochs, and the cipher engine pairs. The model's choices in it: log entry 80 (EPOCH_RELEASE); log entry 82
(BULK datagrams); log entry 83 (a ninth mismatch); log entry 129 (pairs work until idle). -/
def Obligations.AdmissionAndKeys : Prop :=
  Sys2Proof.Claims.Admission ∧ Sys2Proof.Claims.KeysAndEngines

/-! ## Service and debug (R351, R372 to R386, R397, R419) -/

/-- SVC_BIST_RESULT reports a test or move: its kind, its unit and its outcome (R419). -/
def Sys2Proof.Machine.bistIs (u : State) (kind unit outcome : Nat) : Prop :=
  u.fld SVC_BIST_RESULT_kind = kind ∧ u.fld SVC_BIST_RESULT_unit = unit ∧ u.fld SVC_BIST_RESULT_outcome = outcome

/-- Spares (R351, R377 to R379, R419): an op REMAP or TEST_CHANNEL starts onto the lowest free spare, and is refused with outcome 3 without
one, while another op runs, or out of service; a remap without a qualifying tick ends without effect; a tile or channel that has been tested
is a free spare again, or marked failed. A channel's bond timing is no state of this block. The model's choices in it: log entry 64 (the
lowest free spare); log entry 77 (refusals with outcome 3); log entry 101 (bond timing). -/
def Obligations.SpareTests : Prop :=
  ∀ (s : State), s.regsWf = true → s.partsWf = true →
    (∀ t : Fin 1024, let busy := s.svc.bistBusy || !s.inService || s.svc.remaps.any (fun r => decide (r.tile = t.val))
      (∀ p r, s.freeTiles (t / 256) = p :: r → busy = false → ∃ u, exec (.remap t) s = .next u ∧ bistIs u 2 (s.phys t) 0 ∧ u.svc.bistBusy = true ∧
        u.svc.remaps = s.svc.remaps ++ [{ tile := t, spare := p, copied := none, byOp := true }] ∧ u.dram = s.dram ∧ u.jobs = s.jobs) ∧
      (s.freeTiles (t / 256) = [] ∨ busy = true → ∃ u, exec (.remap t) s = .next u ∧ bistIs u 2 (s.phys t) 3 ∧ u.svc = s.svc ∧ u.tiles = s.tiles) ∧
      (∀ r, s.blocksRun = true → s.svc.remaps.find? (fun r => decide (r.tile = t.val) && r.copied.isNone) = some r → ∃ u, exec (.remapTimeout t) s = .next u ∧
        bistIs u 2 (s.phys t) 2 ∧ r ∉ u.svc.remaps ∧ u.svc.bistBusy = (s.svc.bistBusy && !r.byOp) ∧ u.phys t = s.phys t)) ∧
    (∀ (q : Fin 4) (c : Fin 64), let busy := s.svc.bistBusy || s.repairing q || !s.inService
      let n := 66 * q.val + s.chanPhys q c
      s.chanPhys q c < 66 →
      (∀ p r, s.freeChans q = p :: r → busy = false → ∃ u, exec (.testChannel q c) s = .next u ∧ bistIs u 3 n 0 ∧ u.svc.bistBusy = true ∧
        u.repairState q = 1 ∧ (u.dom q).repair.chan = c.val ∧ (u.dom q).repair.spare = p ∧ (u.dom q).repair.test = true) ∧
      (s.freeChans q = [] ∨ busy = true → ∃ u, exec (.testChannel q c) s = .next u ∧ bistIs u 3 n 3 ∧ u.svc = s.svc ∧ u.domains = s.domains)) ∧
    (s.blocksRun = true → ∀ (p : Fin 1056) (pass : Bool), let result := if pass then 1 else 2
      (p.val ∈ s.spares.testTiles → ∃ u, exec (.tileBistDone p pass) s = .next u ∧ bistIs u 1 p result ∧ u.svc.bistBusy = false ∧
        p.val ∉ u.spares.testTiles ∧ (pass = false → p.val ∈ u.spares.badTiles) ∧ (pass = true → u.spares.badTiles = s.spares.badTiles)) ∧
      (s.tileFree p = true → ∃ u, exec (.spareTileTest p pass) s = .next u ∧ bistIs u 1 p result ∧ u.tileFree p = pass)) ∧
    (∀ (q : Fin 4) (c : Fin 66) (pass : Bool), let n := 66 * q.val + c.val
      let result := if pass then 1 else 2
      let marked (u : State) : Prop := (pass = false → n ∈ u.spares.badChans) ∧ (pass = true → u.spares.badChans = s.spares.badChans)
      (s.blocksRun = true → s.chanFree q c = true → ∃ u, exec (.spareChannelTest q c) s = .next u ∧ bistIs u 4 n 0 ∧ n ∈ u.svc.march ∧ u.domains = s.domains) ∧
      (s.blocksRun = true → n ∈ s.spares.testChans → ∃ u, exec (.channelMarchTestDone q c pass) s = .next u ∧ bistIs u 3 n result ∧ u.svc.bistBusy = false ∧
        n ∉ u.spares.testChans ∧ marked u) ∧
      (s.blocksRun = true → n ∉ s.spares.testChans → n ∈ s.svc.march → ∃ u, exec (.channelMarchTestDone q c pass) s = .next u ∧ bistIs u 4 n result ∧ n ∉ u.svc.march ∧ marked u) ∧
      exec (.bondRecentre q c) s = .next s)

/-- A firmware or microcode image as bytes is sound (R393, Table BOT-3): its header names its kind and a body that it holds, whole and within the room
of its kind; the digest of the body and the signature verify; and its security version is at least the fused one. -/
def Sys2Proof.Machine.imageSound (kind room least : Nat) (b : Bytes) : Prop :=
  256 + beAt b 16 4 ≤ b.length ∧ 256 + beAt b 16 4 ≤ room ∧ beAt b 0 4 = 0x4B494D47 ∧ beAt b 4 1 = kind ∧ least ≤ beAt b 12 4 ∧
    (b.drop 28).take 64 = toLE 64 (bodyDigest b).toNat ∧ Config.ed448Verify 2 Config.imageKey (b.take 128) (imageSig b) = true

/-- An op of SVC_UPDATE_CTRL has reported a status, and left memory, tiles and jobs alone. -/
def Sys2Proof.Machine.opIs (s u : State) (v : Nat) : Prop :=
  u.fld SVC_UPDATE_CTRL_status = v ∧ u.dram = s.dram ∧ u.tiles = s.tiles ∧ u.jobs = s.jobs

/-- Ops of SVC_UPDATE_CTRL (R372 to R376, R393, R397, R419): one runs at a time, in service. A load copies the image from DRAM and writes only the
inactive slot or copy, which is valid afterwards if and only if the image passes its checks and reads back as written; SWAP_UCODE schedules the domains of its mask; the
fuses rise to a version that the running image has, and take the owner's key once. -/
def Sys2Proof.Claims.Images : Prop :=
  ∀ (s : State), s.regsWf = true → s.partsWf = true →
    let refused (c : Instr) (v : Nat) : Prop := ∃ u, exec c s = .next u ∧ opIs s u v ∧ u.svc = s.svc ∧ u.plat = s.plat ∧ u.domains = s.domains
    let active := s.plat.flash.slot s.plat.running
    let v := s.fld SVC_UPDATE_CTRL_version
    (s.svc.op ≠ 0 ∨ s.inService = false → let v := if s.svc.op ≠ 0 then 4 else 6
      refused .loadFw v ∧ refused .handover v ∧ refused .loadUcode v ∧ refused .swapUcode v ∧ refused .loadConfig v ∧ refused .setMinVersion v ∧ refused .programOwner v) ∧
    (s.svc.op = 0 → s.inService = true →
      (∃ u, exec .loadFw s = .next u ∧ opIs s u 1 ∧ u.svc.op = 1) ∧
      (∃ u, exec .loadUcode s = .next u ∧ opIs s u 1 ∧ u.svc.op = 3) ∧
      (∃ u, exec .loadConfig s = .next u ∧ opIs s u 1 ∧ u.svc.op = 5) ∧
      (handoverOk s = true → ∃ u, exec .handover s = .next u ∧ opIs s u 1 ∧ u.svc.op = 2 ∧ u.svc.handover = some none) ∧
      (handoverOk s = false → refused .handover 5) ∧
      (s.fld SVC_UPDATE_CTRL_mask ≠ 0 → ∃ u, exec .swapUcode s = .next u ∧ opIs s u 1 ∧ u.svc.op = 4 ∧ ∀ q < 4,
        ((s.fld SVC_UPDATE_CTRL_mask).testBit q = true → (u.dom q).ucodeSwap.isSome = true) ∧
        ((s.fld SVC_UPDATE_CTRL_mask).testBit q = false → u.dom q = s.dom q)) ∧
      (s.fld SVC_UPDATE_CTRL_mask = 0 → refused .swapUcode 2) ∧
      (s.plat.dev ≠ .ready → refused .setMinVersion 6 ∧ refused .programOwner 6) ∧
      (s.plat.dev = .ready →
        (s.fld SVC_UPDATE_CTRL_target = 0 → s.plat.fuses.minFw.toNat ≤ v → v ≤ active.secVersion.toNat → ∃ u, exec .setMinVersion s = .next u ∧ opIs s u 2 ∧
          u.plat.fuses.minFw.toNat = v ∧ u.plat.flash.slot s.plat.running = active ∧
            ((u.plat.flash.slot (!s.plat.running)).valid = true → v ≤ (u.plat.flash.slot (!s.plat.running)).secVersion.toNat)) ∧
        (s.fld SVC_UPDATE_CTRL_target = 0 → v < s.plat.fuses.minFw.toNat ∨ active.secVersion.toNat < v → refused .setMinVersion 6) ∧
        (s.fld SVC_UPDATE_CTRL_target = 1 → s.plat.fuses.minUcode.toNat ≤ v → (∀ q < 4, v ≤ ((s.dom q).ucode true).secVersion.toNat) →
          ∃ u, exec .setMinVersion s = .next u ∧ opIs s u 2 ∧ u.plat.fuses.minUcode.toNat = v) ∧
        (s.plat.fuses.owner = none → ∃ u, exec .programOwner s = .next u ∧ opIs s u 2 ∧ u.plat.fuses.owner = some s.plat.keyDigest ∧
          u.lantern.eventCount = s.lantern.eventCount + 1) ∧
        (s.plat.fuses.owner ≠ none → refused .programOwner 6))) ∧
    (s.clocked = true → let a := s.fld SVC_UPDATE_CTRL_addr
      let n := s.fld SVC_UPDATE_CTRL_len
      let b := s.mem a n
      let whole := b.take (beAt b 16 4)
      let body := whole.take (whole.length - 114)
      let f := s.plat.flash
      let used := if f.cfgInUse then f.cfg1 else f.cfg0
      let fwOk := s.ueIn a n = [] ∧ n ≤ 2 ^ 23 ∧ imageSound 1 (2 ^ 23) s.plat.fuses.minFw.toNat b
      let ucodeOk := s.ueIn a n = [] ∧ n ≤ 2 ^ 22 ∧ imageSound 2 (2 ^ 22) s.plat.fuses.minUcode.toNat b
      let configOk := s.ueIn a n = [] ∧ used.version.toNat < (cfgSeq body).toNat ∧ cfgHeadOk body = true ∧
        Config.ed448Verify 3 (cfgKey body) body (BitVec.ofNat 912 (beAt whole body.length 114)) = true ∧
        Config.shake256 (cfgKeyBytes body) 256 = s.plat.keyDigest ∧ imageOk (applyImage State.reset body) = true
      ∀ back : Bool,
      (s.svc.op = 1 → ∃ u, exec (.fwLoadDone back) s = .next u ∧ u.svc.op = 0 ∧ u.plat.flash.slot s.plat.running = active ∧
        let x := u.plat.flash.slot (!s.plat.running)
        (fwOk ∧ back = true → opIs s u 2 ∧ x.valid = true ∧ x.version.toNat = beAt b 8 4 ∧ x.secVersion.toNat = beAt b 12 4 ∧ x.digest = bodyDigest b) ∧
        (¬(fwOk ∧ back = true) → opIs s u 3 ∧ x.valid = false)) ∧
      (s.svc.op = 3 → ∃ u, exec (.ucodeLoadDone back) s = .next u ∧ u.svc.op = 0 ∧
        let lost := s.fld SVC_UPDATE_CTRL_store = 1 ∧ back = false
        (ucodeOk → opIs s u (if lost then 3 else 2)) ∧ (¬ucodeOk → opIs s u 3 ∧ u.plat.flash = f) ∧
        ∀ q < 4, (u.dom q).ucode true = (s.dom q).ucode true ∧
          (ucodeOk → (s.fld SVC_UPDATE_CTRL_mask).testBit q = true → ((u.dom q).ucode false).valid = true ∧ ((u.dom q).ucode false).digest = bodyDigest b) ∧
          (¬ucodeOk ∨ (s.fld SVC_UPDATE_CTRL_mask).testBit q = false → u.dom q = s.dom q)) ∧
      (s.svc.op = 5 → ∃ u, exec (.configLoadDone back) s = .next u ∧ u.svc.op = 0 ∧ (¬configOk → opIs s u 3 ∧ u.plat.flash = f) ∧
        (configOk → opIs s u (if back then 2 else 3) ∧ let x := if f.cfgInUse then u.plat.flash.cfg0 else u.plat.flash.cfg1
          x.valid = back ∧ x.version = cfgSeq body ∧ x.digest = Config.shake256 whole 512 ∧ (if f.cfgInUse then u.plat.flash.cfg1 else u.plat.flash.cfg0) = used)))

/-- Handover (R373, R374): at a quiet point the other slot's image starts and CTRL execution pauses; its confirmation makes it the boot slot;
without one the old image runs again and the handover has failed; without a quiet point it ends BUSY. -/
def Sys2Proof.Claims.HandoverPause : Prop :=
  ∀ (s : State), s.regsWf = true → s.clocked = true → s.svc.op = 2 →
    (s.svc.handover = some none →
      (quietPoint s = true → ∃ u, exec .handoverQuietPoint s = .next u ∧ u.plat.running = !s.plat.running ∧ u.svc.paused = true ∧
        u.svc.handover = some (some (if s.plat.running then 0 else 1)) ∧ u.lantern.eventCount = s.lantern.eventCount + 1 ∧ untouched s u) ∧
      (quietPoint s = false → exec .handoverQuietPoint s = .next s) ∧
      (∃ u, exec .handoverBusy s = .next u ∧ u.svc.op = 0 ∧ u.svc.handover = none ∧ u.fld SVC_UPDATE_CTRL_status = 4 ∧ u.plat = s.plat)) ∧
    (∀ slot, s.svc.handover = some (some slot) → slot < 2 → s.svc.latched = [] → s.svc.waiting = [] → (∀ p ∈ s.host.sessions, p.2.held = []) →
      (∃ u, exec .fwConfirm s = .next u ∧ u.svc.paused = false ∧ u.svc.handover = none ∧ u.svc.op = 0 ∧ u.fld SVC_UPDATE_CTRL_status = 2 ∧
        u.plat.flash.bootSlot = decide (slot = 1) ∧ u.plat.flash.bootSeq = s.plat.flash.bootSeq + 1 ∧ u.plat.handoverFailed = false ∧ u.plat.running = s.plat.running) ∧
      (∃ u, exec .handoverConfirmTimeout s = .next u ∧ u.svc.paused = false ∧ u.svc.handover = none ∧ u.svc.op = 0 ∧
        u.fld SVC_UPDATE_CTRL_status = 3 ∧ u.plat.running = decide (slot = 0) ∧ u.plat.handoverFailed = true ∧ u.plat.flash = s.plat.flash ∧
        u.lantern.eventCount = s.lantern.eventCount + 1))

/-- Freeze, scan and thaw (R382 to R386): in service a freeze stops the clocks, darkens the links and puts DRAM in self-refresh, leaving
tiles, jobs and memory as they are; elsewhere the pin does nothing and the write is refused. A chain shifted by its whole length is as
before; with every chain so, a thaw leads to TRAIN with every job stopped, and POST-MORTEM keeps the memory. The model's choices in it: log
entry 2 (chain lengths and cycles are free values); log entry 79 (jobs that a thaw stops). -/
def Obligations.FreezeAndThaw : Prop :=
  ∀ (s : State) (cycles : BitVec 16), s.partsWf = true → s.regsWf = true → canonical s.svc.shifts (fun _ => 0) = true →
    (s.inService = true → ∀ c ∈ [Instr.freezeNFall cycles, .dbgFreeze cycles], ∃ u, exec c s = .next u ∧ u.plat.dev = .frozen ∧
      u.plat.selfRefresh = true ∧ u.plat.lsEn = false ∧ u.clock.ticking = false ∧ u.svc.stopCycles = cycles ∧ u.hostUp = false ∧
      u.dram = s.dram ∧ u.tiles = s.tiles ∧ u.jobs = s.jobs ∧ ∀ p < 10, (u.port p).st = .down ∨ (u.port p).st = .disabled) ∧
    (s.inService = false → exec (.freezeNFall cycles) s = .next s ∧ exec (.dbgFreeze cycles) s = .next { s with plat := { s.plat with cfgReject := true } }) ∧
    (s.plat.dev = .frozen →
      (s.svc.shifts = [] → ∃ u, exec .thaw s = .next u ∧ u.plat.dev = .train ∧ u.plat.selfRefresh = false ∧ u.plat.lsEn = true ∧
        u.svc.freezeBit = false ∧ u.runningJobs = []) ∧
      (s.svc.shifts ≠ [] → exec .thaw s = .next s) ∧
      (∃ u, exec .pmEnter s = .next u ∧ u.plat.dev = .postMortem ∧ u.plat.selfRefresh = false ∧ u.runningJobs = [] ∧ u.staged = [] ∧
        u.dram = s.dram ∧ ∀ a ∈ u.sec.assocs, a.kind = 1)) ∧
    (∀ n : BitVec 32, s.plat.dev = .frozen ∨ s.plat.dev = .postMortem → s.fld DBG_SCAN_CTRL_chain < 1334 →
      let c := s.fld DBG_SCAN_CTRL_chain
      ∃ u, exec (.scanShift n) s = .next u ∧ u.out = s.out ++ [.scan n.toNat] ∧ untouched s u ∧
        look u.svc.shifts c 0 = (look s.svc.shifts c 0 + n.toNat) % (Config.chainLength c + 1) ∧
        ∀ k, k ≠ c → look u.svc.shifts k 0 = look s.svc.shifts k 0)

/-- Loads of images, fuses, and the handover to another firmware. The model's choices in it: log entry 76 (SWAP_UCODE); log entry 77
(refusals); log entry 78 (the pause of a handover). -/
def Obligations.ImagesAndHandover : Prop :=
  Sys2Proof.Claims.Images ∧ Sys2Proof.Claims.HandoverPause

/-! ## The whole block -/

/-- A step takes the command at the front of the queue and is that command's effect on the state with the queue's rest; with nothing waiting
the block idles. The model's choices in it: log entry 34 (an empty queue idles). -/
def Obligations.StepTakesFront : Prop :=
  (∀ (c : Instr) (rest : List Instr) (s : State), s.pending = c :: rest → step s = exec c { s with pending := rest }) ∧
  (∀ s : State, s.pending = [] → step s = .next s)

/-- After reset no command waits, no tile, domain, job or port differs from its reset form, every table is in canonical form, and the
registers hold the values that Table REG-2 gives: among them the power mode's clocks, the tick period and its wait, the repair threshold,
the lead masks, the attempt limit, the credits, the receive store, the BULK window and the identity stacks of the channel and tile maps. The
model's choices in it: log entry 5 (tile state is 0); log entry 6 (flash and fuses as shipped); log entry 7 (pins and numbers). -/
def Obligations.ResetState : Prop :=
  let s := State.reset
  s.wf = true ∧ s.pending = [] ∧ s.plat.dev = .reset ∧ (∀ t, s.tile t = Tile.reset) ∧ (∀ j, s.job j = Job.reset) ∧ (∀ p, s.port p = Port.reset) ∧
  (∀ row ∈ [(0x0000, 0x50530007B0060100), (0x1000, 0x0352073A), (0x2000, 0x0000138800000010), (0x3010, 0x000003E800000001), (0x4080, 0x0101010101010101),
      (0x6000, 0x080100C8), (0x7200, 0x0000000A000AAAAA), (0x9070, 0x00400020), (0xA000, 0x04000000), (0xC010, 0x000000640064001F), (0x9010, 0x3F6666663F333333)],
    s.reg row.1 = row.2) ∧
  (∀ key, s.reg key = (regReset key).toNat) ∧ (∀ t < 1024, s.phys t = 264 * (t / 256) + t % 256) ∧
  (∀ q < 4, ∀ c < 64, s.chanPhys q c = c)

/-- Words of tile instructions, written out from Tables PRG-3 to PRG-6: ADD s3, s4, s5; BR.EQ s1, s2 with a displacement of −2; DSTAT s2 with
selector 2; MMW over arrays 0 and 1, BF16 by BF16; and an opcode that Table PRG-4 does not list. -/
def Obligations.TileWords : Prop :=
  ∀ i : At,
    tileInstr i 0x01190A00000000000000000000000000 = some (.add i { fa := 3, fb := 4, fc := 5, fd := 0, fe := 0, ff := 0, aux := 0, imm := 0 }) ∧
    tileInstr i 0x1000440000000001FFFFFFFFFFFFFFFE = some (.br i { fa := 0, fb := 1, fc := 2, fd := 0, fe := 0, ff := 0, aux := 1, imm := 0xFFFFFFFFFFFFFFFE }) ∧
    tileInstr i 0xA1100000000000000000000000000002 = some (.dstat i { fa := 2, fb := 0, fc := 0, fd := 0, fe := 0, ff := 0, aux := 0, imm := 2 }) ∧
    tileInstr i 0x2003660420C000000000000000000000 = some (.mmw i
      { arrays := 3, sfmt := 6, xfmt := 6, sbase := 1, xbase := 2, dbase := 3, dcount := 0, rows := 0, rowmask := 0, colmask := 0, acc := 0, xsrc := 0,
        xaddr := 0, smx := 0, xmx := 0, sscale := 0, xscale := 0, rsv := 0 }) ∧
    tileInstr i 0x0F000000000000000000000000000000 = none

/-- The 128-bit words and the 43 tile instructions agree: a word that a context reads as an instruction is that instruction's word, with
every field and reserved bit kept, and every instruction's word is read as it. The model's choices in it: log entry 11 (a command carries
the fields of its word). -/
def Obligations.TileWordsAgree : Prop :=
  (∀ (i : At) (w : IWord) (c : Instr), tileInstr i w = some c → tileWord c = some w) ∧
  (∀ (c : Instr) (w : IWord), tileWord c = some w → ∃ i, tileInstr i w = some c) ∧
  (∀ (i j : At) (w : IWord) (c : Instr), tileInstr i w = some c → tileInstr j w = some c → i = j)

/-- Every step keeps every table of the state in canonical form: memory, registers, tiles, stack domains, jobs, ports and chains. The
model's choices in it: log entry 3 (an unlisted byte of DRAM reads as 0); log entry 5 (an unlisted byte of a tile memory reads as 0). -/
def Obligations.StepKeepsForm : Prop := ∀ s t : State, s.wf = true → step s = .next t → t.wf = true

/-- Bytes written to scratchpads read back as written, within one tile and across tiles, and no other byte changes. The model's choices in
it: log entry 5 (an unlisted byte of a tile memory reads as 0). -/
def Obligations.ScratchpadReadsBack : Prop :=
  ∀ (s : State) (a : Nat) (bs : Bytes), s.wf = true → spadBase ≤ a → a + bs.length ≤ spadBase + 1024 * 0x40000 →
    (s.writeSpad a bs).readSpad a bs.length = bs ∧
    ∀ b, spadBase ≤ b → b < spadBase + 1024 * 0x40000 → (b < a ∨ a + bs.length ≤ b) → (s.writeSpad a bs).readSpad b 1 = s.readSpad b 1

/-- TILE_SEL, SEC_PAGE_SEL, the select of FLT_LOG_PTR and the sel of DXE_PATH_STATUS belong to each session and to the image (slot 8): a
value taken in one stands for it, and changes no word that another reads, nor the word that a write of another reaches. -/
def Obligations.SelectsSeparate : Prop :=
  ∀ (s : State) (slot other : Fin 9) (off v : Nat) (fs : List Fld), s.regsWf = true → slot ≠ other →
    off ∈ [0x4000, 0xB008, 0xC008, 0x9098, 0x9198, 0x9298, 0x9398] → assoc fieldTable (normal off) = some fs → (regWrite s slot off v).2 = true →
    let u := (regWrite s slot off v).1
    (∀ f ∈ fs, f.acc = .rw → bits (u.reg (off + 0x10000 * slot)) f.lo f.hi = bits v f.lo f.hi) ∧
    (∀ x, readWord u other x = readWord s other x ∧ u.keyFor other x = s.keyFor other x)

/-- Instructions of the classes STEP and DXE issue only from context 2 of a lead tile: anywhere else each is rejected with code CONTEXT,
before anything else of it is looked at but its unused fields. -/
def Obligations.StepClassContext : Prop :=
  ∀ row ∈ stepRows, ∀ (i : At) (f : LayR) (s : State), Issues (row.1 i f) s i → unusedZero f row.2 = true →
    (s.isLead i.tile = false ∨ i.ctx ≠ 2) → exec (row.1 i f) s = .next (rejectAt s i.tile i.ctx (s.ctxOf i).index 9)

/-- A matrix instruction that names a pair marked "—" in Table ARR-2, which are INT8 or FP64 with any other format, is rejected at issue,
whatever else it names: its tile's register file and scratchpad stay as they are, and no matrix instruction joins those in flight. -/
def Obligations.MatrixPairs : Prop :=
  ∀ row ∈ mmRowsOf, ∀ (i : At) (l : LayMM) (s : State), Issues (row.1 i l) s i → s.partsWf = true → l.sfmt.toNat < 10 → l.xfmt.toNat < 10 → l.sfmt ≠ l.xfmt →
    (l.sfmt = 5 ∨ l.sfmt = 9 ∨ l.xfmt = 5 ∨ l.xfmt = 9) →
    ∃ u c, exec (row.1 i l) s = .next u ∧ u = rejectAt s i.tile i.ctx (s.ctxOf i).index c ∧
      (u.tile i.tile).vrf = (s.tile i.tile).vrf ∧ (u.tile i.tile).spad = (s.tile i.tile).spad ∧ ∀ m ∈ (u.tile i.tile).mms, m ∈ (s.tile i.tile).mms

/-- The interleave places each byte of a job's quarters over its m stack domains in one place of one channel, and every byte of every
logical channel is used (R171). -/
def Obligations.PlaceOneToOne : Prop :=
  ∀ m, 1 ≤ m → m ≤ 4 →
    (∀ o < m * quarter, (place o m).1 < m ∧ (place o m).2.1 < 64 ∧ (place o m).2.2 < 2048 * 589824) ∧
    (∀ o o', o < m * quarter → o' < m * quarter → place o m = place o' m → o = o') ∧
    (∀ slot chan off, slot < m → chan < 64 → off < 2048 * 589824 → ∃ o < m * quarter, place o m = (slot, chan, off))
end

