-- ==== Sys2Proof/Laws/Sparse.lean ====
section
/-! SUPPORT. The laws of sparse tables and of byte memories: what a read gives after a write, and that every write keeps
the canonical form. -/
namespace Sys2Proof.Machine

variable {α : Type}

theorem keysAbove_mono {m : Sparse α} {a b : Nat} (h : keysAbove b m = true) (hab : a ≤ b) : keysAbove a m = true := by
  cases m with
  | nil => rfl
  | cons p r =>
    simp only [keysAbove, Bool.and_eq_true, decide_eq_true_eq] at h ⊢
    exact ⟨le_trans hab h.1, h.2⟩

/-- Below every listed key a table reads its default. -/
theorem look_of_keysAbove {m : Sparse α} {b k : Nat} (d : α) (h : keysAbove b m = true) (hk : k < b) : look m k d = d := by
  induction m generalizing b with
  | nil => rfl
  | cons p r ih =>
    obtain ⟨k', v⟩ := p
    simp only [keysAbove, Bool.and_eq_true, decide_eq_true_eq] at h
    have : k ≠ k' := by omega
    simp only [look, this, if_false]
    exact ih h.2 (by omega)

variable [DecidableEq α]

/-- The key written reads as the value. -/
@[simp] theorem look_store_same (m : Sparse α) (k : Nat) (v d : α) (h : keysAbove 0 m = true) : look (store m k v d) k d = v := by
  suffices ∀ b, keysAbove b m = true → look (store m k v d) k d = v from this 0 h
  induction m with
  | nil => intro b _; by_cases hv : v = d <;> simp [store, look, hv]
  | cons p r ih =>
    obtain ⟨k', v'⟩ := p
    intro b hb
    simp only [keysAbove, Bool.and_eq_true, decide_eq_true_eq] at hb
    by_cases h1 : k < k'
    · by_cases hv : v = d
      · have : k ≠ k' := by omega
        simp [store, h1, hv, look, this, look_of_keysAbove d hb.2 (show k < k' + 1 by omega)]
      · simp [store, h1, hv, look]
    · by_cases h2 : k = k'
      · subst h2
        by_cases hv : v = d
        · simp [store, hv, look_of_keysAbove d hb.2 (Nat.lt_succ_self k)]
        · simp [store, hv, look]
      · simp only [store, h1, h2, if_false, look]
        exact ih (keysAbove_mono hb.2 (Nat.zero_le _)) (k' + 1) hb.2

/-- Every other key reads as before. -/
@[simp] theorem look_store_ne (m : Sparse α) {k k' : Nat} (v d d' : α) (h : k' ≠ k) : look (store m k v d) k' d' = look m k' d' := by
  induction m with
  | nil => by_cases hv : v = d <;> simp [store, look, hv, h]
  | cons p r ih =>
    obtain ⟨k2, v2⟩ := p
    by_cases h1 : k < k2
    · by_cases hv : v = d <;> simp [store, h1, hv, look, h]
    · by_cases h2 : k = k2
      · subst h2
        by_cases hv : v = d <;> simp [store, hv, look, h]
      · simp only [store, h1, h2, if_false, look, ih]

theorem keysAbove_store {m : Sparse α} {b k : Nat} (v d : α) (h : keysAbove b m = true) (hb : b ≤ k) : keysAbove b (store m k v d) = true := by
  induction m generalizing b with
  | nil => by_cases hv : v = d <;> simp [store, hv, keysAbove, hb]
  | cons p r ih =>
    obtain ⟨k2, v2⟩ := p
    simp only [keysAbove, Bool.and_eq_true, decide_eq_true_eq] at h
    by_cases h1 : k < k2
    · by_cases hv : v = d
      · simp [store, h1, hv, keysAbove, h.1, h.2]
      · simp only [store, h1, hv, if_true, if_false, keysAbove, Bool.and_eq_true, decide_eq_true_eq]
        exact ⟨hb, by omega, h.2⟩
    · by_cases h2 : k = k2
      · subst h2
        by_cases hv : v = d
        · simp only [store, hv, if_true, lt_irrefl, if_false]; exact keysAbove_mono h.2 (by omega)
        · simp [store, hv, keysAbove, hb, h.2]
      · simp only [store, h1, h2, if_false, keysAbove, Bool.and_eq_true, decide_eq_true_eq]
        exact ⟨h.1, ih h.2 (by omega)⟩

theorem mem_store {m : Sparse α} {k : Nat} {v d : α} {q : Nat × α} (h : q ∈ store m k v d) : q ∈ m ∨ (q = (k, v) ∧ v ≠ d) := by
  induction m with
  | nil =>
    by_cases hv : v = d
    · simp [store, hv] at h
    · simp [store, hv] at h; exact .inr ⟨h, hv⟩
  | cons p r ih =>
    obtain ⟨k2, v2⟩ := p
    by_cases h1 : k < k2
    · by_cases hv : v = d
      · simp only [store, h1, hv, if_true] at h; exact .inl h
      · simp only [store, h1, hv, if_true, if_false, List.mem_cons] at h
        rcases h with h | h
        · exact .inr ⟨h, hv⟩
        · exact .inl (by simpa using h)
    · by_cases h2 : k = k2
      · by_cases hv : v = d
        · simp only [store, h2, hv, lt_irrefl, if_true, if_false] at h; exact .inl (List.mem_cons_of_mem _ h)
        · simp only [store, h2, hv, lt_irrefl, if_true, if_false, List.mem_cons] at h
          rcases h with h | h
          · exact .inr ⟨by rw [h, h2], hv⟩
          · exact .inl (List.mem_cons_of_mem _ h)
      · simp only [store, h1, h2, if_false, List.mem_cons] at h
        rcases h with h | h
        · exact .inl (by simp [h])
        · rcases ih h with h | h
          · exact .inl (List.mem_cons_of_mem _ h)
          · exact .inr h

/-- A write keeps the canonical form. -/
theorem canonical_store {m : Sparse α} {d : Nat → α} (k : Nat) (v : α) (h : canonical m d = true) : canonical (store m k v (d k)) d = true := by
  simp only [canonical, Bool.and_eq_true, List.all_eq_true, decide_eq_true_eq] at h ⊢
  refine ⟨keysAbove_store v (d k) h.1 (Nat.zero_le k), fun q hq => ?_⟩
  rcases mem_store hq with hq | ⟨rfl, hv⟩
  · exact h.2 q hq
  · exact hv

theorem canonical_keys {m : Sparse α} {d : Nat → α} (h : canonical m d = true) : keysAbove 0 m = true := by
  simp only [canonical, Bool.and_eq_true] at h; exact h.1

/-! ## Byte memories -/

/-- Writing bytes keeps the canonical form. -/
theorem Memory.wf_wrN {m : Sparse Byte} (a : Nat) (bs : Bytes) (h : Memory.wf m = true) : Memory.wf (wrN m a bs) = true := by
  induction bs generalizing m a with
  | nil => exact h
  | cons b r ih => exact ih (a + 1) (canonical_store (d := fun _ => 0) a b h)

/-- Writing scattered bytes keeps the canonical form. -/
theorem Memory.wf_wrAll {m : Sparse Byte} (l : List (Nat × Byte)) (h : Memory.wf m = true) : Memory.wf (wrAll m l) = true := by
  induction l generalizing m with
  | nil => exact h
  | cons p r ih => exact ih (canonical_store (d := fun _ => 0) p.1 p.2 h)

/-- A byte outside the range written reads as before. -/
theorem rd_wrN_of_not_mem {m : Sparse Byte} {a x : Nat} {bs : Bytes} (h : x < a ∨ a + bs.length ≤ x) : rd (wrN m a bs) x = rd m x := by
  induction bs generalizing m a with
  | nil => rfl
  | cons b r ih =>
    simp only [List.length_cons] at h
    rw [wrN, ih (by omega)]
    exact look_store_ne m b 0 0 (by omega)

/-- A byte of the range written reads as written. -/
theorem rd_wrN_of_mem {m : Sparse Byte} {a i : Nat} {bs : Bytes} (hm : Memory.wf m = true) (h : i < bs.length) :
    rd (wrN m a bs) (a + i) = bs.getD i 0 := by
  induction bs generalizing m a i with
  | nil => simp at h
  | cons b r ih =>
    have hw : Memory.wf (store m a b 0) = true := canonical_store (d := fun _ => 0) a b hm
    cases i with
    | zero =>
      rw [Nat.add_zero, wrN, rd_wrN_of_not_mem (by omega)]
      simpa [rd] using look_store_same m a b 0 (canonical_keys hm)
    | succ n =>
      rw [wrN, show a + (n + 1) = (a + 1) + n by omega, ih hw (by simpa using h)]
      simp

theorem length_rdN (m : Sparse Byte) (a n : Nat) : (rdN m a n).length = n := by
  induction n generalizing a with
  | zero => rfl
  | succ n ih => simp [rdN, ih]

/-- Reading back what was written. -/
theorem rdN_wrN {m : Sparse Byte} (a : Nat) (bs : Bytes) (hm : Memory.wf m = true) : rdN (wrN m a bs) a bs.length = bs := by
  induction bs generalizing m a with
  | nil => rfl
  | cons b r ih =>
    have hw : Memory.wf (store m a b 0) = true := canonical_store (d := fun _ => 0) a b hm
    have h0 := rd_wrN_of_mem (a := a) (i := 0) (bs := b :: r) hm (by simp)
    simp only [List.length_cons, rdN]
    rw [show rd (wrN m a (b :: r)) a = b by simpa using h0, wrN, ih (a + 1) hw]

end Sys2Proof.Machine
end

