-- ==== Sys2Proof/Laws/State.lean ====
section
/-! SUPPORT. One lemma for each field after each update of the state: what an operation leaves as it was, and what it
changes; and what the parts of the state read as after a write. -/
namespace Sys2Proof.Machine

variable (s : State)

/-! ### setReg -/

@[simp] theorem setReg_pending (k v : Nat) : (s.setReg k v).pending = s.pending := rfl
@[simp] theorem setReg_staged (k v : Nat) : (s.setReg k v).staged = s.staged := rfl
@[simp] theorem setReg_plat (k v : Nat) : (s.setReg k v).plat = s.plat := rfl
@[simp] theorem setReg_clock (k v : Nat) : (s.setReg k v).clock = s.clock := rfl
@[simp] theorem setReg_lantern (k v : Nat) : (s.setReg k v).lantern = s.lantern := rfl
@[simp] theorem setReg_dram (k v : Nat) : (s.setReg k v).dram = s.dram := rfl
@[simp] theorem setReg_ue (k v : Nat) : (s.setReg k v).ue = s.ue := rfl
@[simp] theorem setReg_tiles (k v : Nat) : (s.setReg k v).tiles = s.tiles := rfl
@[simp] theorem setReg_domains (k v : Nat) : (s.setReg k v).domains = s.domains := rfl
@[simp] theorem setReg_spares (k v : Nat) : (s.setReg k v).spares = s.spares := rfl
@[simp] theorem setReg_jobs (k v : Nat) : (s.setReg k v).jobs = s.jobs := rfl
@[simp] theorem setReg_ports (k v : Nat) : (s.setReg k v).ports = s.ports := rfl
@[simp] theorem setReg_router (k v : Nat) : (s.setReg k v).router = s.router := rfl
@[simp] theorem setReg_host (k v : Nat) : (s.setReg k v).host = s.host := rfl
@[simp] theorem setReg_sec (k v : Nat) : (s.setReg k v).sec = s.sec := rfl
@[simp] theorem setReg_svc (k v : Nat) : (s.setReg k v).svc = s.svc := rfl
@[simp] theorem setReg_coolLogic (k v : Nat) : (s.setReg k v).coolLogic = s.coolLogic := rfl
@[simp] theorem setReg_lanes (k v : Nat) : (s.setReg k v).lanes = s.lanes := rfl
@[simp] theorem setReg_turns (k v : Nat) : (s.setReg k v).turns = s.turns := rfl
@[simp] theorem setReg_kept (k v : Nat) : (s.setReg k v).kept = s.kept := rfl
@[simp] theorem setReg_out (k v : Nat) : (s.setReg k v).out = s.out := rfl
@[simp] theorem setReg_free (k v : Nat) : (s.setReg k v).free = s.free := rfl

/-! ### setFld -/

@[simp] theorem setFld_pending (f : Fld) (v i : Nat) : (s.setFld f v i).pending = s.pending := rfl
@[simp] theorem setFld_staged (f : Fld) (v i : Nat) : (s.setFld f v i).staged = s.staged := rfl
@[simp] theorem setFld_plat (f : Fld) (v i : Nat) : (s.setFld f v i).plat = s.plat := rfl
@[simp] theorem setFld_clock (f : Fld) (v i : Nat) : (s.setFld f v i).clock = s.clock := rfl
@[simp] theorem setFld_lantern (f : Fld) (v i : Nat) : (s.setFld f v i).lantern = s.lantern := rfl
@[simp] theorem setFld_dram (f : Fld) (v i : Nat) : (s.setFld f v i).dram = s.dram := rfl
@[simp] theorem setFld_ue (f : Fld) (v i : Nat) : (s.setFld f v i).ue = s.ue := rfl
@[simp] theorem setFld_tiles (f : Fld) (v i : Nat) : (s.setFld f v i).tiles = s.tiles := rfl
@[simp] theorem setFld_domains (f : Fld) (v i : Nat) : (s.setFld f v i).domains = s.domains := rfl
@[simp] theorem setFld_spares (f : Fld) (v i : Nat) : (s.setFld f v i).spares = s.spares := rfl
@[simp] theorem setFld_jobs (f : Fld) (v i : Nat) : (s.setFld f v i).jobs = s.jobs := rfl
@[simp] theorem setFld_ports (f : Fld) (v i : Nat) : (s.setFld f v i).ports = s.ports := rfl
@[simp] theorem setFld_router (f : Fld) (v i : Nat) : (s.setFld f v i).router = s.router := rfl
@[simp] theorem setFld_host (f : Fld) (v i : Nat) : (s.setFld f v i).host = s.host := rfl
@[simp] theorem setFld_sec (f : Fld) (v i : Nat) : (s.setFld f v i).sec = s.sec := rfl
@[simp] theorem setFld_svc (f : Fld) (v i : Nat) : (s.setFld f v i).svc = s.svc := rfl
@[simp] theorem setFld_coolLogic (f : Fld) (v i : Nat) : (s.setFld f v i).coolLogic = s.coolLogic := rfl
@[simp] theorem setFld_lanes (f : Fld) (v i : Nat) : (s.setFld f v i).lanes = s.lanes := rfl
@[simp] theorem setFld_turns (f : Fld) (v i : Nat) : (s.setFld f v i).turns = s.turns := rfl
@[simp] theorem setFld_kept (f : Fld) (v i : Nat) : (s.setFld f v i).kept = s.kept := rfl
@[simp] theorem setFld_out (f : Fld) (v i : Nat) : (s.setFld f v i).out = s.out := rfl
@[simp] theorem setFld_free (f : Fld) (v i : Nat) : (s.setFld f v i).free = s.free := rfl

/-! ### count -/

@[simp] theorem count_pending (f : Fld) (n i : Nat) : (s.count f n i).pending = s.pending := rfl
@[simp] theorem count_staged (f : Fld) (n i : Nat) : (s.count f n i).staged = s.staged := rfl
@[simp] theorem count_plat (f : Fld) (n i : Nat) : (s.count f n i).plat = s.plat := rfl
@[simp] theorem count_clock (f : Fld) (n i : Nat) : (s.count f n i).clock = s.clock := rfl
@[simp] theorem count_lantern (f : Fld) (n i : Nat) : (s.count f n i).lantern = s.lantern := rfl
@[simp] theorem count_dram (f : Fld) (n i : Nat) : (s.count f n i).dram = s.dram := rfl
@[simp] theorem count_ue (f : Fld) (n i : Nat) : (s.count f n i).ue = s.ue := rfl
@[simp] theorem count_tiles (f : Fld) (n i : Nat) : (s.count f n i).tiles = s.tiles := rfl
@[simp] theorem count_domains (f : Fld) (n i : Nat) : (s.count f n i).domains = s.domains := rfl
@[simp] theorem count_spares (f : Fld) (n i : Nat) : (s.count f n i).spares = s.spares := rfl
@[simp] theorem count_jobs (f : Fld) (n i : Nat) : (s.count f n i).jobs = s.jobs := rfl
@[simp] theorem count_ports (f : Fld) (n i : Nat) : (s.count f n i).ports = s.ports := rfl
@[simp] theorem count_router (f : Fld) (n i : Nat) : (s.count f n i).router = s.router := rfl
@[simp] theorem count_host (f : Fld) (n i : Nat) : (s.count f n i).host = s.host := rfl
@[simp] theorem count_sec (f : Fld) (n i : Nat) : (s.count f n i).sec = s.sec := rfl
@[simp] theorem count_svc (f : Fld) (n i : Nat) : (s.count f n i).svc = s.svc := rfl
@[simp] theorem count_coolLogic (f : Fld) (n i : Nat) : (s.count f n i).coolLogic = s.coolLogic := rfl
@[simp] theorem count_lanes (f : Fld) (n i : Nat) : (s.count f n i).lanes = s.lanes := rfl
@[simp] theorem count_turns (f : Fld) (n i : Nat) : (s.count f n i).turns = s.turns := rfl
@[simp] theorem count_kept (f : Fld) (n i : Nat) : (s.count f n i).kept = s.kept := rfl
@[simp] theorem count_out (f : Fld) (n i : Nat) : (s.count f n i).out = s.out := rfl
@[simp] theorem count_free (f : Fld) (n i : Nat) : (s.count f n i).free = s.free := rfl

/-! ### orFld -/

@[simp] theorem orFld_pending (f : Fld) (v i : Nat) : (s.orFld f v i).pending = s.pending := rfl
@[simp] theorem orFld_staged (f : Fld) (v i : Nat) : (s.orFld f v i).staged = s.staged := rfl
@[simp] theorem orFld_plat (f : Fld) (v i : Nat) : (s.orFld f v i).plat = s.plat := rfl
@[simp] theorem orFld_clock (f : Fld) (v i : Nat) : (s.orFld f v i).clock = s.clock := rfl
@[simp] theorem orFld_lantern (f : Fld) (v i : Nat) : (s.orFld f v i).lantern = s.lantern := rfl
@[simp] theorem orFld_dram (f : Fld) (v i : Nat) : (s.orFld f v i).dram = s.dram := rfl
@[simp] theorem orFld_ue (f : Fld) (v i : Nat) : (s.orFld f v i).ue = s.ue := rfl
@[simp] theorem orFld_tiles (f : Fld) (v i : Nat) : (s.orFld f v i).tiles = s.tiles := rfl
@[simp] theorem orFld_domains (f : Fld) (v i : Nat) : (s.orFld f v i).domains = s.domains := rfl
@[simp] theorem orFld_spares (f : Fld) (v i : Nat) : (s.orFld f v i).spares = s.spares := rfl
@[simp] theorem orFld_jobs (f : Fld) (v i : Nat) : (s.orFld f v i).jobs = s.jobs := rfl
@[simp] theorem orFld_ports (f : Fld) (v i : Nat) : (s.orFld f v i).ports = s.ports := rfl
@[simp] theorem orFld_router (f : Fld) (v i : Nat) : (s.orFld f v i).router = s.router := rfl
@[simp] theorem orFld_host (f : Fld) (v i : Nat) : (s.orFld f v i).host = s.host := rfl
@[simp] theorem orFld_sec (f : Fld) (v i : Nat) : (s.orFld f v i).sec = s.sec := rfl
@[simp] theorem orFld_svc (f : Fld) (v i : Nat) : (s.orFld f v i).svc = s.svc := rfl
@[simp] theorem orFld_coolLogic (f : Fld) (v i : Nat) : (s.orFld f v i).coolLogic = s.coolLogic := rfl
@[simp] theorem orFld_lanes (f : Fld) (v i : Nat) : (s.orFld f v i).lanes = s.lanes := rfl
@[simp] theorem orFld_turns (f : Fld) (v i : Nat) : (s.orFld f v i).turns = s.turns := rfl
@[simp] theorem orFld_kept (f : Fld) (v i : Nat) : (s.orFld f v i).kept = s.kept := rfl
@[simp] theorem orFld_out (f : Fld) (v i : Nat) : (s.orFld f v i).out = s.out := rfl
@[simp] theorem orFld_free (f : Fld) (v i : Nat) : (s.orFld f v i).free = s.free := rfl

/-! ### setTile -/

@[simp] theorem setTile_pending (t : Nat) (x : Tile) : (s.setTile t x).pending = s.pending := rfl
@[simp] theorem setTile_regs (t : Nat) (x : Tile) : (s.setTile t x).regs = s.regs := rfl
@[simp] theorem setTile_staged (t : Nat) (x : Tile) : (s.setTile t x).staged = s.staged := rfl
@[simp] theorem setTile_plat (t : Nat) (x : Tile) : (s.setTile t x).plat = s.plat := rfl
@[simp] theorem setTile_clock (t : Nat) (x : Tile) : (s.setTile t x).clock = s.clock := rfl
@[simp] theorem setTile_lantern (t : Nat) (x : Tile) : (s.setTile t x).lantern = s.lantern := rfl
@[simp] theorem setTile_dram (t : Nat) (x : Tile) : (s.setTile t x).dram = s.dram := rfl
@[simp] theorem setTile_ue (t : Nat) (x : Tile) : (s.setTile t x).ue = s.ue := rfl
@[simp] theorem setTile_domains (t : Nat) (x : Tile) : (s.setTile t x).domains = s.domains := rfl
@[simp] theorem setTile_spares (t : Nat) (x : Tile) : (s.setTile t x).spares = s.spares := rfl
@[simp] theorem setTile_jobs (t : Nat) (x : Tile) : (s.setTile t x).jobs = s.jobs := rfl
@[simp] theorem setTile_ports (t : Nat) (x : Tile) : (s.setTile t x).ports = s.ports := rfl
@[simp] theorem setTile_router (t : Nat) (x : Tile) : (s.setTile t x).router = s.router := rfl
@[simp] theorem setTile_host (t : Nat) (x : Tile) : (s.setTile t x).host = s.host := rfl
@[simp] theorem setTile_sec (t : Nat) (x : Tile) : (s.setTile t x).sec = s.sec := rfl
@[simp] theorem setTile_svc (t : Nat) (x : Tile) : (s.setTile t x).svc = s.svc := rfl
@[simp] theorem setTile_coolLogic (t : Nat) (x : Tile) : (s.setTile t x).coolLogic = s.coolLogic := rfl
@[simp] theorem setTile_lanes (t : Nat) (x : Tile) : (s.setTile t x).lanes = s.lanes := rfl
@[simp] theorem setTile_turns (t : Nat) (x : Tile) : (s.setTile t x).turns = s.turns := rfl
@[simp] theorem setTile_kept (t : Nat) (x : Tile) : (s.setTile t x).kept = s.kept := rfl
@[simp] theorem setTile_out (t : Nat) (x : Tile) : (s.setTile t x).out = s.out := rfl
@[simp] theorem setTile_free (t : Nat) (x : Tile) : (s.setTile t x).free = s.free := rfl

/-! ### modTile -/

@[simp] theorem modTile_pending (t : Nat) (f : Tile → Tile) : (s.modTile t f).pending = s.pending := rfl
@[simp] theorem modTile_regs (t : Nat) (f : Tile → Tile) : (s.modTile t f).regs = s.regs := rfl
@[simp] theorem modTile_staged (t : Nat) (f : Tile → Tile) : (s.modTile t f).staged = s.staged := rfl
@[simp] theorem modTile_plat (t : Nat) (f : Tile → Tile) : (s.modTile t f).plat = s.plat := rfl
@[simp] theorem modTile_clock (t : Nat) (f : Tile → Tile) : (s.modTile t f).clock = s.clock := rfl
@[simp] theorem modTile_lantern (t : Nat) (f : Tile → Tile) : (s.modTile t f).lantern = s.lantern := rfl
@[simp] theorem modTile_dram (t : Nat) (f : Tile → Tile) : (s.modTile t f).dram = s.dram := rfl
@[simp] theorem modTile_ue (t : Nat) (f : Tile → Tile) : (s.modTile t f).ue = s.ue := rfl
@[simp] theorem modTile_domains (t : Nat) (f : Tile → Tile) : (s.modTile t f).domains = s.domains := rfl
@[simp] theorem modTile_spares (t : Nat) (f : Tile → Tile) : (s.modTile t f).spares = s.spares := rfl
@[simp] theorem modTile_jobs (t : Nat) (f : Tile → Tile) : (s.modTile t f).jobs = s.jobs := rfl
@[simp] theorem modTile_ports (t : Nat) (f : Tile → Tile) : (s.modTile t f).ports = s.ports := rfl
@[simp] theorem modTile_router (t : Nat) (f : Tile → Tile) : (s.modTile t f).router = s.router := rfl
@[simp] theorem modTile_host (t : Nat) (f : Tile → Tile) : (s.modTile t f).host = s.host := rfl
@[simp] theorem modTile_sec (t : Nat) (f : Tile → Tile) : (s.modTile t f).sec = s.sec := rfl
@[simp] theorem modTile_svc (t : Nat) (f : Tile → Tile) : (s.modTile t f).svc = s.svc := rfl
@[simp] theorem modTile_coolLogic (t : Nat) (f : Tile → Tile) : (s.modTile t f).coolLogic = s.coolLogic := rfl
@[simp] theorem modTile_lanes (t : Nat) (f : Tile → Tile) : (s.modTile t f).lanes = s.lanes := rfl
@[simp] theorem modTile_turns (t : Nat) (f : Tile → Tile) : (s.modTile t f).turns = s.turns := rfl
@[simp] theorem modTile_kept (t : Nat) (f : Tile → Tile) : (s.modTile t f).kept = s.kept := rfl
@[simp] theorem modTile_out (t : Nat) (f : Tile → Tile) : (s.modTile t f).out = s.out := rfl
@[simp] theorem modTile_free (t : Nat) (f : Tile → Tile) : (s.modTile t f).free = s.free := rfl

/-! ### modDom -/

@[simp] theorem modDom_pending (q : Nat) (f : Domain → Domain) : (s.modDom q f).pending = s.pending := rfl
@[simp] theorem modDom_regs (q : Nat) (f : Domain → Domain) : (s.modDom q f).regs = s.regs := rfl
@[simp] theorem modDom_staged (q : Nat) (f : Domain → Domain) : (s.modDom q f).staged = s.staged := rfl
@[simp] theorem modDom_plat (q : Nat) (f : Domain → Domain) : (s.modDom q f).plat = s.plat := rfl
@[simp] theorem modDom_clock (q : Nat) (f : Domain → Domain) : (s.modDom q f).clock = s.clock := rfl
@[simp] theorem modDom_lantern (q : Nat) (f : Domain → Domain) : (s.modDom q f).lantern = s.lantern := rfl
@[simp] theorem modDom_dram (q : Nat) (f : Domain → Domain) : (s.modDom q f).dram = s.dram := rfl
@[simp] theorem modDom_ue (q : Nat) (f : Domain → Domain) : (s.modDom q f).ue = s.ue := rfl
@[simp] theorem modDom_tiles (q : Nat) (f : Domain → Domain) : (s.modDom q f).tiles = s.tiles := rfl
@[simp] theorem modDom_spares (q : Nat) (f : Domain → Domain) : (s.modDom q f).spares = s.spares := rfl
@[simp] theorem modDom_jobs (q : Nat) (f : Domain → Domain) : (s.modDom q f).jobs = s.jobs := rfl
@[simp] theorem modDom_ports (q : Nat) (f : Domain → Domain) : (s.modDom q f).ports = s.ports := rfl
@[simp] theorem modDom_router (q : Nat) (f : Domain → Domain) : (s.modDom q f).router = s.router := rfl
@[simp] theorem modDom_host (q : Nat) (f : Domain → Domain) : (s.modDom q f).host = s.host := rfl
@[simp] theorem modDom_sec (q : Nat) (f : Domain → Domain) : (s.modDom q f).sec = s.sec := rfl
@[simp] theorem modDom_svc (q : Nat) (f : Domain → Domain) : (s.modDom q f).svc = s.svc := rfl
@[simp] theorem modDom_coolLogic (q : Nat) (f : Domain → Domain) : (s.modDom q f).coolLogic = s.coolLogic := rfl
@[simp] theorem modDom_lanes (q : Nat) (f : Domain → Domain) : (s.modDom q f).lanes = s.lanes := rfl
@[simp] theorem modDom_turns (q : Nat) (f : Domain → Domain) : (s.modDom q f).turns = s.turns := rfl
@[simp] theorem modDom_kept (q : Nat) (f : Domain → Domain) : (s.modDom q f).kept = s.kept := rfl
@[simp] theorem modDom_out (q : Nat) (f : Domain → Domain) : (s.modDom q f).out = s.out := rfl
@[simp] theorem modDom_free (q : Nat) (f : Domain → Domain) : (s.modDom q f).free = s.free := rfl

/-! ### setJob -/

@[simp] theorem setJob_pending (j : Nat) (x : Job) : (s.setJob j x).pending = s.pending := rfl
@[simp] theorem setJob_regs (j : Nat) (x : Job) : (s.setJob j x).regs = s.regs := rfl
@[simp] theorem setJob_staged (j : Nat) (x : Job) : (s.setJob j x).staged = s.staged := rfl
@[simp] theorem setJob_plat (j : Nat) (x : Job) : (s.setJob j x).plat = s.plat := rfl
@[simp] theorem setJob_clock (j : Nat) (x : Job) : (s.setJob j x).clock = s.clock := rfl
@[simp] theorem setJob_lantern (j : Nat) (x : Job) : (s.setJob j x).lantern = s.lantern := rfl
@[simp] theorem setJob_dram (j : Nat) (x : Job) : (s.setJob j x).dram = s.dram := rfl
@[simp] theorem setJob_ue (j : Nat) (x : Job) : (s.setJob j x).ue = s.ue := rfl
@[simp] theorem setJob_tiles (j : Nat) (x : Job) : (s.setJob j x).tiles = s.tiles := rfl
@[simp] theorem setJob_domains (j : Nat) (x : Job) : (s.setJob j x).domains = s.domains := rfl
@[simp] theorem setJob_spares (j : Nat) (x : Job) : (s.setJob j x).spares = s.spares := rfl
@[simp] theorem setJob_ports (j : Nat) (x : Job) : (s.setJob j x).ports = s.ports := rfl
@[simp] theorem setJob_router (j : Nat) (x : Job) : (s.setJob j x).router = s.router := rfl
@[simp] theorem setJob_host (j : Nat) (x : Job) : (s.setJob j x).host = s.host := rfl
@[simp] theorem setJob_sec (j : Nat) (x : Job) : (s.setJob j x).sec = s.sec := rfl
@[simp] theorem setJob_svc (j : Nat) (x : Job) : (s.setJob j x).svc = s.svc := rfl
@[simp] theorem setJob_coolLogic (j : Nat) (x : Job) : (s.setJob j x).coolLogic = s.coolLogic := rfl
@[simp] theorem setJob_lanes (j : Nat) (x : Job) : (s.setJob j x).lanes = s.lanes := rfl
@[simp] theorem setJob_turns (j : Nat) (x : Job) : (s.setJob j x).turns = s.turns := rfl
@[simp] theorem setJob_kept (j : Nat) (x : Job) : (s.setJob j x).kept = s.kept := rfl
@[simp] theorem setJob_out (j : Nat) (x : Job) : (s.setJob j x).out = s.out := rfl
@[simp] theorem setJob_free (j : Nat) (x : Job) : (s.setJob j x).free = s.free := rfl

/-! ### modJob -/

@[simp] theorem modJob_pending (j : Nat) (f : Job → Job) : (s.modJob j f).pending = s.pending := rfl
@[simp] theorem modJob_regs (j : Nat) (f : Job → Job) : (s.modJob j f).regs = s.regs := rfl
@[simp] theorem modJob_staged (j : Nat) (f : Job → Job) : (s.modJob j f).staged = s.staged := rfl
@[simp] theorem modJob_plat (j : Nat) (f : Job → Job) : (s.modJob j f).plat = s.plat := rfl
@[simp] theorem modJob_clock (j : Nat) (f : Job → Job) : (s.modJob j f).clock = s.clock := rfl
@[simp] theorem modJob_lantern (j : Nat) (f : Job → Job) : (s.modJob j f).lantern = s.lantern := rfl
@[simp] theorem modJob_dram (j : Nat) (f : Job → Job) : (s.modJob j f).dram = s.dram := rfl
@[simp] theorem modJob_ue (j : Nat) (f : Job → Job) : (s.modJob j f).ue = s.ue := rfl
@[simp] theorem modJob_tiles (j : Nat) (f : Job → Job) : (s.modJob j f).tiles = s.tiles := rfl
@[simp] theorem modJob_domains (j : Nat) (f : Job → Job) : (s.modJob j f).domains = s.domains := rfl
@[simp] theorem modJob_spares (j : Nat) (f : Job → Job) : (s.modJob j f).spares = s.spares := rfl
@[simp] theorem modJob_ports (j : Nat) (f : Job → Job) : (s.modJob j f).ports = s.ports := rfl
@[simp] theorem modJob_router (j : Nat) (f : Job → Job) : (s.modJob j f).router = s.router := rfl
@[simp] theorem modJob_host (j : Nat) (f : Job → Job) : (s.modJob j f).host = s.host := rfl
@[simp] theorem modJob_sec (j : Nat) (f : Job → Job) : (s.modJob j f).sec = s.sec := rfl
@[simp] theorem modJob_svc (j : Nat) (f : Job → Job) : (s.modJob j f).svc = s.svc := rfl
@[simp] theorem modJob_coolLogic (j : Nat) (f : Job → Job) : (s.modJob j f).coolLogic = s.coolLogic := rfl
@[simp] theorem modJob_lanes (j : Nat) (f : Job → Job) : (s.modJob j f).lanes = s.lanes := rfl
@[simp] theorem modJob_turns (j : Nat) (f : Job → Job) : (s.modJob j f).turns = s.turns := rfl
@[simp] theorem modJob_kept (j : Nat) (f : Job → Job) : (s.modJob j f).kept = s.kept := rfl
@[simp] theorem modJob_out (j : Nat) (f : Job → Job) : (s.modJob j f).out = s.out := rfl
@[simp] theorem modJob_free (j : Nat) (f : Job → Job) : (s.modJob j f).free = s.free := rfl

/-! ### modAtt -/

@[simp] theorem modAtt_pending (j : Nat) (f : Attempt → Attempt) : (s.modAtt j f).pending = s.pending := rfl
@[simp] theorem modAtt_regs (j : Nat) (f : Attempt → Attempt) : (s.modAtt j f).regs = s.regs := rfl
@[simp] theorem modAtt_staged (j : Nat) (f : Attempt → Attempt) : (s.modAtt j f).staged = s.staged := rfl
@[simp] theorem modAtt_plat (j : Nat) (f : Attempt → Attempt) : (s.modAtt j f).plat = s.plat := rfl
@[simp] theorem modAtt_clock (j : Nat) (f : Attempt → Attempt) : (s.modAtt j f).clock = s.clock := rfl
@[simp] theorem modAtt_lantern (j : Nat) (f : Attempt → Attempt) : (s.modAtt j f).lantern = s.lantern := rfl
@[simp] theorem modAtt_dram (j : Nat) (f : Attempt → Attempt) : (s.modAtt j f).dram = s.dram := rfl
@[simp] theorem modAtt_ue (j : Nat) (f : Attempt → Attempt) : (s.modAtt j f).ue = s.ue := rfl
@[simp] theorem modAtt_tiles (j : Nat) (f : Attempt → Attempt) : (s.modAtt j f).tiles = s.tiles := rfl
@[simp] theorem modAtt_domains (j : Nat) (f : Attempt → Attempt) : (s.modAtt j f).domains = s.domains := rfl
@[simp] theorem modAtt_spares (j : Nat) (f : Attempt → Attempt) : (s.modAtt j f).spares = s.spares := rfl
@[simp] theorem modAtt_ports (j : Nat) (f : Attempt → Attempt) : (s.modAtt j f).ports = s.ports := rfl
@[simp] theorem modAtt_router (j : Nat) (f : Attempt → Attempt) : (s.modAtt j f).router = s.router := rfl
@[simp] theorem modAtt_host (j : Nat) (f : Attempt → Attempt) : (s.modAtt j f).host = s.host := rfl
@[simp] theorem modAtt_sec (j : Nat) (f : Attempt → Attempt) : (s.modAtt j f).sec = s.sec := rfl
@[simp] theorem modAtt_svc (j : Nat) (f : Attempt → Attempt) : (s.modAtt j f).svc = s.svc := rfl
@[simp] theorem modAtt_coolLogic (j : Nat) (f : Attempt → Attempt) : (s.modAtt j f).coolLogic = s.coolLogic := rfl
@[simp] theorem modAtt_lanes (j : Nat) (f : Attempt → Attempt) : (s.modAtt j f).lanes = s.lanes := rfl
@[simp] theorem modAtt_turns (j : Nat) (f : Attempt → Attempt) : (s.modAtt j f).turns = s.turns := rfl
@[simp] theorem modAtt_kept (j : Nat) (f : Attempt → Attempt) : (s.modAtt j f).kept = s.kept := rfl
@[simp] theorem modAtt_out (j : Nat) (f : Attempt → Attempt) : (s.modAtt j f).out = s.out := rfl
@[simp] theorem modAtt_free (j : Nat) (f : Attempt → Attempt) : (s.modAtt j f).free = s.free := rfl

/-! ### modLed -/

@[simp] theorem modLed_pending (j : Nat) (f : Ledger → Ledger) : (s.modLed j f).pending = s.pending := rfl
@[simp] theorem modLed_regs (j : Nat) (f : Ledger → Ledger) : (s.modLed j f).regs = s.regs := rfl
@[simp] theorem modLed_staged (j : Nat) (f : Ledger → Ledger) : (s.modLed j f).staged = s.staged := rfl
@[simp] theorem modLed_plat (j : Nat) (f : Ledger → Ledger) : (s.modLed j f).plat = s.plat := rfl
@[simp] theorem modLed_clock (j : Nat) (f : Ledger → Ledger) : (s.modLed j f).clock = s.clock := rfl
@[simp] theorem modLed_lantern (j : Nat) (f : Ledger → Ledger) : (s.modLed j f).lantern = s.lantern := rfl
@[simp] theorem modLed_dram (j : Nat) (f : Ledger → Ledger) : (s.modLed j f).dram = s.dram := rfl
@[simp] theorem modLed_ue (j : Nat) (f : Ledger → Ledger) : (s.modLed j f).ue = s.ue := rfl
@[simp] theorem modLed_tiles (j : Nat) (f : Ledger → Ledger) : (s.modLed j f).tiles = s.tiles := rfl
@[simp] theorem modLed_domains (j : Nat) (f : Ledger → Ledger) : (s.modLed j f).domains = s.domains := rfl
@[simp] theorem modLed_spares (j : Nat) (f : Ledger → Ledger) : (s.modLed j f).spares = s.spares := rfl
@[simp] theorem modLed_ports (j : Nat) (f : Ledger → Ledger) : (s.modLed j f).ports = s.ports := rfl
@[simp] theorem modLed_router (j : Nat) (f : Ledger → Ledger) : (s.modLed j f).router = s.router := rfl
@[simp] theorem modLed_host (j : Nat) (f : Ledger → Ledger) : (s.modLed j f).host = s.host := rfl
@[simp] theorem modLed_sec (j : Nat) (f : Ledger → Ledger) : (s.modLed j f).sec = s.sec := rfl
@[simp] theorem modLed_svc (j : Nat) (f : Ledger → Ledger) : (s.modLed j f).svc = s.svc := rfl
@[simp] theorem modLed_coolLogic (j : Nat) (f : Ledger → Ledger) : (s.modLed j f).coolLogic = s.coolLogic := rfl
@[simp] theorem modLed_lanes (j : Nat) (f : Ledger → Ledger) : (s.modLed j f).lanes = s.lanes := rfl
@[simp] theorem modLed_turns (j : Nat) (f : Ledger → Ledger) : (s.modLed j f).turns = s.turns := rfl
@[simp] theorem modLed_kept (j : Nat) (f : Ledger → Ledger) : (s.modLed j f).kept = s.kept := rfl
@[simp] theorem modLed_out (j : Nat) (f : Ledger → Ledger) : (s.modLed j f).out = s.out := rfl
@[simp] theorem modLed_free (j : Nat) (f : Ledger → Ledger) : (s.modLed j f).free = s.free := rfl

/-! ### modDxe -/

@[simp] theorem modDxe_pending (j : Nat) (f : Dxe → Dxe) : (s.modDxe j f).pending = s.pending := rfl
@[simp] theorem modDxe_regs (j : Nat) (f : Dxe → Dxe) : (s.modDxe j f).regs = s.regs := rfl
@[simp] theorem modDxe_staged (j : Nat) (f : Dxe → Dxe) : (s.modDxe j f).staged = s.staged := rfl
@[simp] theorem modDxe_plat (j : Nat) (f : Dxe → Dxe) : (s.modDxe j f).plat = s.plat := rfl
@[simp] theorem modDxe_clock (j : Nat) (f : Dxe → Dxe) : (s.modDxe j f).clock = s.clock := rfl
@[simp] theorem modDxe_lantern (j : Nat) (f : Dxe → Dxe) : (s.modDxe j f).lantern = s.lantern := rfl
@[simp] theorem modDxe_dram (j : Nat) (f : Dxe → Dxe) : (s.modDxe j f).dram = s.dram := rfl
@[simp] theorem modDxe_ue (j : Nat) (f : Dxe → Dxe) : (s.modDxe j f).ue = s.ue := rfl
@[simp] theorem modDxe_tiles (j : Nat) (f : Dxe → Dxe) : (s.modDxe j f).tiles = s.tiles := rfl
@[simp] theorem modDxe_domains (j : Nat) (f : Dxe → Dxe) : (s.modDxe j f).domains = s.domains := rfl
@[simp] theorem modDxe_spares (j : Nat) (f : Dxe → Dxe) : (s.modDxe j f).spares = s.spares := rfl
@[simp] theorem modDxe_ports (j : Nat) (f : Dxe → Dxe) : (s.modDxe j f).ports = s.ports := rfl
@[simp] theorem modDxe_router (j : Nat) (f : Dxe → Dxe) : (s.modDxe j f).router = s.router := rfl
@[simp] theorem modDxe_host (j : Nat) (f : Dxe → Dxe) : (s.modDxe j f).host = s.host := rfl
@[simp] theorem modDxe_sec (j : Nat) (f : Dxe → Dxe) : (s.modDxe j f).sec = s.sec := rfl
@[simp] theorem modDxe_svc (j : Nat) (f : Dxe → Dxe) : (s.modDxe j f).svc = s.svc := rfl
@[simp] theorem modDxe_coolLogic (j : Nat) (f : Dxe → Dxe) : (s.modDxe j f).coolLogic = s.coolLogic := rfl
@[simp] theorem modDxe_lanes (j : Nat) (f : Dxe → Dxe) : (s.modDxe j f).lanes = s.lanes := rfl
@[simp] theorem modDxe_turns (j : Nat) (f : Dxe → Dxe) : (s.modDxe j f).turns = s.turns := rfl
@[simp] theorem modDxe_kept (j : Nat) (f : Dxe → Dxe) : (s.modDxe j f).kept = s.kept := rfl
@[simp] theorem modDxe_out (j : Nat) (f : Dxe → Dxe) : (s.modDxe j f).out = s.out := rfl
@[simp] theorem modDxe_free (j : Nat) (f : Dxe → Dxe) : (s.modDxe j f).free = s.free := rfl

/-! ### modPort -/

@[simp] theorem modPort_pending (p : Nat) (f : Port → Port) : (s.modPort p f).pending = s.pending := rfl
@[simp] theorem modPort_regs (p : Nat) (f : Port → Port) : (s.modPort p f).regs = s.regs := rfl
@[simp] theorem modPort_staged (p : Nat) (f : Port → Port) : (s.modPort p f).staged = s.staged := rfl
@[simp] theorem modPort_plat (p : Nat) (f : Port → Port) : (s.modPort p f).plat = s.plat := rfl
@[simp] theorem modPort_clock (p : Nat) (f : Port → Port) : (s.modPort p f).clock = s.clock := rfl
@[simp] theorem modPort_lantern (p : Nat) (f : Port → Port) : (s.modPort p f).lantern = s.lantern := rfl
@[simp] theorem modPort_dram (p : Nat) (f : Port → Port) : (s.modPort p f).dram = s.dram := rfl
@[simp] theorem modPort_ue (p : Nat) (f : Port → Port) : (s.modPort p f).ue = s.ue := rfl
@[simp] theorem modPort_tiles (p : Nat) (f : Port → Port) : (s.modPort p f).tiles = s.tiles := rfl
@[simp] theorem modPort_domains (p : Nat) (f : Port → Port) : (s.modPort p f).domains = s.domains := rfl
@[simp] theorem modPort_spares (p : Nat) (f : Port → Port) : (s.modPort p f).spares = s.spares := rfl
@[simp] theorem modPort_jobs (p : Nat) (f : Port → Port) : (s.modPort p f).jobs = s.jobs := rfl
@[simp] theorem modPort_router (p : Nat) (f : Port → Port) : (s.modPort p f).router = s.router := rfl
@[simp] theorem modPort_host (p : Nat) (f : Port → Port) : (s.modPort p f).host = s.host := rfl
@[simp] theorem modPort_sec (p : Nat) (f : Port → Port) : (s.modPort p f).sec = s.sec := rfl
@[simp] theorem modPort_svc (p : Nat) (f : Port → Port) : (s.modPort p f).svc = s.svc := rfl
@[simp] theorem modPort_coolLogic (p : Nat) (f : Port → Port) : (s.modPort p f).coolLogic = s.coolLogic := rfl
@[simp] theorem modPort_lanes (p : Nat) (f : Port → Port) : (s.modPort p f).lanes = s.lanes := rfl
@[simp] theorem modPort_turns (p : Nat) (f : Port → Port) : (s.modPort p f).turns = s.turns := rfl
@[simp] theorem modPort_kept (p : Nat) (f : Port → Port) : (s.modPort p f).kept = s.kept := rfl
@[simp] theorem modPort_out (p : Nat) (f : Port → Port) : (s.modPort p f).out = s.out := rfl
@[simp] theorem modPort_free (p : Nat) (f : Port → Port) : (s.modPort p f).free = s.free := rfl

/-! ### setDev -/

@[simp] theorem setDev_pending (d : DevState) : (s.setDev d).pending = s.pending := rfl
@[simp] theorem setDev_regs (d : DevState) : (s.setDev d).regs = s.regs := rfl
@[simp] theorem setDev_staged (d : DevState) : (s.setDev d).staged = s.staged := rfl
@[simp] theorem setDev_clock (d : DevState) : (s.setDev d).clock = s.clock := rfl
@[simp] theorem setDev_lantern (d : DevState) : (s.setDev d).lantern = s.lantern := rfl
@[simp] theorem setDev_dram (d : DevState) : (s.setDev d).dram = s.dram := rfl
@[simp] theorem setDev_ue (d : DevState) : (s.setDev d).ue = s.ue := rfl
@[simp] theorem setDev_tiles (d : DevState) : (s.setDev d).tiles = s.tiles := rfl
@[simp] theorem setDev_domains (d : DevState) : (s.setDev d).domains = s.domains := rfl
@[simp] theorem setDev_spares (d : DevState) : (s.setDev d).spares = s.spares := rfl
@[simp] theorem setDev_jobs (d : DevState) : (s.setDev d).jobs = s.jobs := rfl
@[simp] theorem setDev_ports (d : DevState) : (s.setDev d).ports = s.ports := rfl
@[simp] theorem setDev_router (d : DevState) : (s.setDev d).router = s.router := rfl
@[simp] theorem setDev_host (d : DevState) : (s.setDev d).host = s.host := rfl
@[simp] theorem setDev_sec (d : DevState) : (s.setDev d).sec = s.sec := rfl
@[simp] theorem setDev_svc (d : DevState) : (s.setDev d).svc = s.svc := rfl
@[simp] theorem setDev_coolLogic (d : DevState) : (s.setDev d).coolLogic = s.coolLogic := rfl
@[simp] theorem setDev_lanes (d : DevState) : (s.setDev d).lanes = s.lanes := rfl
@[simp] theorem setDev_turns (d : DevState) : (s.setDev d).turns = s.turns := rfl
@[simp] theorem setDev_kept (d : DevState) : (s.setDev d).kept = s.kept := rfl
@[simp] theorem setDev_out (d : DevState) : (s.setDev d).out = s.out := rfl
@[simp] theorem setDev_free (d : DevState) : (s.setDev d).free = s.free := rfl

/-! ### modPlat -/

@[simp] theorem modPlat_pending (f : Plat → Plat) : (s.modPlat f).pending = s.pending := rfl
@[simp] theorem modPlat_regs (f : Plat → Plat) : (s.modPlat f).regs = s.regs := rfl
@[simp] theorem modPlat_staged (f : Plat → Plat) : (s.modPlat f).staged = s.staged := rfl
@[simp] theorem modPlat_clock (f : Plat → Plat) : (s.modPlat f).clock = s.clock := rfl
@[simp] theorem modPlat_lantern (f : Plat → Plat) : (s.modPlat f).lantern = s.lantern := rfl
@[simp] theorem modPlat_dram (f : Plat → Plat) : (s.modPlat f).dram = s.dram := rfl
@[simp] theorem modPlat_ue (f : Plat → Plat) : (s.modPlat f).ue = s.ue := rfl
@[simp] theorem modPlat_tiles (f : Plat → Plat) : (s.modPlat f).tiles = s.tiles := rfl
@[simp] theorem modPlat_domains (f : Plat → Plat) : (s.modPlat f).domains = s.domains := rfl
@[simp] theorem modPlat_spares (f : Plat → Plat) : (s.modPlat f).spares = s.spares := rfl
@[simp] theorem modPlat_jobs (f : Plat → Plat) : (s.modPlat f).jobs = s.jobs := rfl
@[simp] theorem modPlat_ports (f : Plat → Plat) : (s.modPlat f).ports = s.ports := rfl
@[simp] theorem modPlat_router (f : Plat → Plat) : (s.modPlat f).router = s.router := rfl
@[simp] theorem modPlat_host (f : Plat → Plat) : (s.modPlat f).host = s.host := rfl
@[simp] theorem modPlat_sec (f : Plat → Plat) : (s.modPlat f).sec = s.sec := rfl
@[simp] theorem modPlat_svc (f : Plat → Plat) : (s.modPlat f).svc = s.svc := rfl
@[simp] theorem modPlat_coolLogic (f : Plat → Plat) : (s.modPlat f).coolLogic = s.coolLogic := rfl
@[simp] theorem modPlat_lanes (f : Plat → Plat) : (s.modPlat f).lanes = s.lanes := rfl
@[simp] theorem modPlat_turns (f : Plat → Plat) : (s.modPlat f).turns = s.turns := rfl
@[simp] theorem modPlat_kept (f : Plat → Plat) : (s.modPlat f).kept = s.kept := rfl
@[simp] theorem modPlat_out (f : Plat → Plat) : (s.modPlat f).out = s.out := rfl
@[simp] theorem modPlat_free (f : Plat → Plat) : (s.modPlat f).free = s.free := rfl

/-! ### cfgReject -/

@[simp] theorem cfgReject_pending : (s.cfgReject).pending = s.pending := rfl
@[simp] theorem cfgReject_regs : (s.cfgReject).regs = s.regs := rfl
@[simp] theorem cfgReject_staged : (s.cfgReject).staged = s.staged := rfl
@[simp] theorem cfgReject_clock : (s.cfgReject).clock = s.clock := rfl
@[simp] theorem cfgReject_lantern : (s.cfgReject).lantern = s.lantern := rfl
@[simp] theorem cfgReject_dram : (s.cfgReject).dram = s.dram := rfl
@[simp] theorem cfgReject_ue : (s.cfgReject).ue = s.ue := rfl
@[simp] theorem cfgReject_tiles : (s.cfgReject).tiles = s.tiles := rfl
@[simp] theorem cfgReject_domains : (s.cfgReject).domains = s.domains := rfl
@[simp] theorem cfgReject_spares : (s.cfgReject).spares = s.spares := rfl
@[simp] theorem cfgReject_jobs : (s.cfgReject).jobs = s.jobs := rfl
@[simp] theorem cfgReject_ports : (s.cfgReject).ports = s.ports := rfl
@[simp] theorem cfgReject_router : (s.cfgReject).router = s.router := rfl
@[simp] theorem cfgReject_host : (s.cfgReject).host = s.host := rfl
@[simp] theorem cfgReject_sec : (s.cfgReject).sec = s.sec := rfl
@[simp] theorem cfgReject_svc : (s.cfgReject).svc = s.svc := rfl
@[simp] theorem cfgReject_coolLogic : (s.cfgReject).coolLogic = s.coolLogic := rfl
@[simp] theorem cfgReject_lanes : (s.cfgReject).lanes = s.lanes := rfl
@[simp] theorem cfgReject_turns : (s.cfgReject).turns = s.turns := rfl
@[simp] theorem cfgReject_kept : (s.cfgReject).kept = s.kept := rfl
@[simp] theorem cfgReject_out : (s.cfgReject).out = s.out := rfl
@[simp] theorem cfgReject_free : (s.cfgReject).free = s.free := rfl

/-! ### modClock -/

@[simp] theorem modClock_pending (f : Clock → Clock) : (s.modClock f).pending = s.pending := rfl
@[simp] theorem modClock_regs (f : Clock → Clock) : (s.modClock f).regs = s.regs := rfl
@[simp] theorem modClock_staged (f : Clock → Clock) : (s.modClock f).staged = s.staged := rfl
@[simp] theorem modClock_plat (f : Clock → Clock) : (s.modClock f).plat = s.plat := rfl
@[simp] theorem modClock_lantern (f : Clock → Clock) : (s.modClock f).lantern = s.lantern := rfl
@[simp] theorem modClock_dram (f : Clock → Clock) : (s.modClock f).dram = s.dram := rfl
@[simp] theorem modClock_ue (f : Clock → Clock) : (s.modClock f).ue = s.ue := rfl
@[simp] theorem modClock_tiles (f : Clock → Clock) : (s.modClock f).tiles = s.tiles := rfl
@[simp] theorem modClock_domains (f : Clock → Clock) : (s.modClock f).domains = s.domains := rfl
@[simp] theorem modClock_spares (f : Clock → Clock) : (s.modClock f).spares = s.spares := rfl
@[simp] theorem modClock_jobs (f : Clock → Clock) : (s.modClock f).jobs = s.jobs := rfl
@[simp] theorem modClock_ports (f : Clock → Clock) : (s.modClock f).ports = s.ports := rfl
@[simp] theorem modClock_router (f : Clock → Clock) : (s.modClock f).router = s.router := rfl
@[simp] theorem modClock_host (f : Clock → Clock) : (s.modClock f).host = s.host := rfl
@[simp] theorem modClock_sec (f : Clock → Clock) : (s.modClock f).sec = s.sec := rfl
@[simp] theorem modClock_svc (f : Clock → Clock) : (s.modClock f).svc = s.svc := rfl
@[simp] theorem modClock_coolLogic (f : Clock → Clock) : (s.modClock f).coolLogic = s.coolLogic := rfl
@[simp] theorem modClock_lanes (f : Clock → Clock) : (s.modClock f).lanes = s.lanes := rfl
@[simp] theorem modClock_turns (f : Clock → Clock) : (s.modClock f).turns = s.turns := rfl
@[simp] theorem modClock_kept (f : Clock → Clock) : (s.modClock f).kept = s.kept := rfl
@[simp] theorem modClock_out (f : Clock → Clock) : (s.modClock f).out = s.out := rfl
@[simp] theorem modClock_free (f : Clock → Clock) : (s.modClock f).free = s.free := rfl

/-! ### modRouter -/

@[simp] theorem modRouter_pending (f : Router → Router) : (s.modRouter f).pending = s.pending := rfl
@[simp] theorem modRouter_regs (f : Router → Router) : (s.modRouter f).regs = s.regs := rfl
@[simp] theorem modRouter_staged (f : Router → Router) : (s.modRouter f).staged = s.staged := rfl
@[simp] theorem modRouter_plat (f : Router → Router) : (s.modRouter f).plat = s.plat := rfl
@[simp] theorem modRouter_clock (f : Router → Router) : (s.modRouter f).clock = s.clock := rfl
@[simp] theorem modRouter_lantern (f : Router → Router) : (s.modRouter f).lantern = s.lantern := rfl
@[simp] theorem modRouter_dram (f : Router → Router) : (s.modRouter f).dram = s.dram := rfl
@[simp] theorem modRouter_ue (f : Router → Router) : (s.modRouter f).ue = s.ue := rfl
@[simp] theorem modRouter_tiles (f : Router → Router) : (s.modRouter f).tiles = s.tiles := rfl
@[simp] theorem modRouter_domains (f : Router → Router) : (s.modRouter f).domains = s.domains := rfl
@[simp] theorem modRouter_spares (f : Router → Router) : (s.modRouter f).spares = s.spares := rfl
@[simp] theorem modRouter_jobs (f : Router → Router) : (s.modRouter f).jobs = s.jobs := rfl
@[simp] theorem modRouter_ports (f : Router → Router) : (s.modRouter f).ports = s.ports := rfl
@[simp] theorem modRouter_host (f : Router → Router) : (s.modRouter f).host = s.host := rfl
@[simp] theorem modRouter_sec (f : Router → Router) : (s.modRouter f).sec = s.sec := rfl
@[simp] theorem modRouter_svc (f : Router → Router) : (s.modRouter f).svc = s.svc := rfl
@[simp] theorem modRouter_coolLogic (f : Router → Router) : (s.modRouter f).coolLogic = s.coolLogic := rfl
@[simp] theorem modRouter_lanes (f : Router → Router) : (s.modRouter f).lanes = s.lanes := rfl
@[simp] theorem modRouter_turns (f : Router → Router) : (s.modRouter f).turns = s.turns := rfl
@[simp] theorem modRouter_kept (f : Router → Router) : (s.modRouter f).kept = s.kept := rfl
@[simp] theorem modRouter_out (f : Router → Router) : (s.modRouter f).out = s.out := rfl
@[simp] theorem modRouter_free (f : Router → Router) : (s.modRouter f).free = s.free := rfl

/-! ### modHost -/

@[simp] theorem modHost_pending (f : HostPort → HostPort) : (s.modHost f).pending = s.pending := rfl
@[simp] theorem modHost_regs (f : HostPort → HostPort) : (s.modHost f).regs = s.regs := rfl
@[simp] theorem modHost_staged (f : HostPort → HostPort) : (s.modHost f).staged = s.staged := rfl
@[simp] theorem modHost_plat (f : HostPort → HostPort) : (s.modHost f).plat = s.plat := rfl
@[simp] theorem modHost_clock (f : HostPort → HostPort) : (s.modHost f).clock = s.clock := rfl
@[simp] theorem modHost_lantern (f : HostPort → HostPort) : (s.modHost f).lantern = s.lantern := rfl
@[simp] theorem modHost_dram (f : HostPort → HostPort) : (s.modHost f).dram = s.dram := rfl
@[simp] theorem modHost_ue (f : HostPort → HostPort) : (s.modHost f).ue = s.ue := rfl
@[simp] theorem modHost_tiles (f : HostPort → HostPort) : (s.modHost f).tiles = s.tiles := rfl
@[simp] theorem modHost_domains (f : HostPort → HostPort) : (s.modHost f).domains = s.domains := rfl
@[simp] theorem modHost_spares (f : HostPort → HostPort) : (s.modHost f).spares = s.spares := rfl
@[simp] theorem modHost_jobs (f : HostPort → HostPort) : (s.modHost f).jobs = s.jobs := rfl
@[simp] theorem modHost_ports (f : HostPort → HostPort) : (s.modHost f).ports = s.ports := rfl
@[simp] theorem modHost_router (f : HostPort → HostPort) : (s.modHost f).router = s.router := rfl
@[simp] theorem modHost_sec (f : HostPort → HostPort) : (s.modHost f).sec = s.sec := rfl
@[simp] theorem modHost_svc (f : HostPort → HostPort) : (s.modHost f).svc = s.svc := rfl
@[simp] theorem modHost_coolLogic (f : HostPort → HostPort) : (s.modHost f).coolLogic = s.coolLogic := rfl
@[simp] theorem modHost_lanes (f : HostPort → HostPort) : (s.modHost f).lanes = s.lanes := rfl
@[simp] theorem modHost_turns (f : HostPort → HostPort) : (s.modHost f).turns = s.turns := rfl
@[simp] theorem modHost_kept (f : HostPort → HostPort) : (s.modHost f).kept = s.kept := rfl
@[simp] theorem modHost_out (f : HostPort → HostPort) : (s.modHost f).out = s.out := rfl
@[simp] theorem modHost_free (f : HostPort → HostPort) : (s.modHost f).free = s.free := rfl

/-! ### modSec -/

@[simp] theorem modSec_pending (f : Sec → Sec) : (s.modSec f).pending = s.pending := rfl
@[simp] theorem modSec_regs (f : Sec → Sec) : (s.modSec f).regs = s.regs := rfl
@[simp] theorem modSec_staged (f : Sec → Sec) : (s.modSec f).staged = s.staged := rfl
@[simp] theorem modSec_plat (f : Sec → Sec) : (s.modSec f).plat = s.plat := rfl
@[simp] theorem modSec_clock (f : Sec → Sec) : (s.modSec f).clock = s.clock := rfl
@[simp] theorem modSec_lantern (f : Sec → Sec) : (s.modSec f).lantern = s.lantern := rfl
@[simp] theorem modSec_dram (f : Sec → Sec) : (s.modSec f).dram = s.dram := rfl
@[simp] theorem modSec_ue (f : Sec → Sec) : (s.modSec f).ue = s.ue := rfl
@[simp] theorem modSec_tiles (f : Sec → Sec) : (s.modSec f).tiles = s.tiles := rfl
@[simp] theorem modSec_domains (f : Sec → Sec) : (s.modSec f).domains = s.domains := rfl
@[simp] theorem modSec_spares (f : Sec → Sec) : (s.modSec f).spares = s.spares := rfl
@[simp] theorem modSec_jobs (f : Sec → Sec) : (s.modSec f).jobs = s.jobs := rfl
@[simp] theorem modSec_ports (f : Sec → Sec) : (s.modSec f).ports = s.ports := rfl
@[simp] theorem modSec_router (f : Sec → Sec) : (s.modSec f).router = s.router := rfl
@[simp] theorem modSec_host (f : Sec → Sec) : (s.modSec f).host = s.host := rfl
@[simp] theorem modSec_svc (f : Sec → Sec) : (s.modSec f).svc = s.svc := rfl
@[simp] theorem modSec_coolLogic (f : Sec → Sec) : (s.modSec f).coolLogic = s.coolLogic := rfl
@[simp] theorem modSec_lanes (f : Sec → Sec) : (s.modSec f).lanes = s.lanes := rfl
@[simp] theorem modSec_turns (f : Sec → Sec) : (s.modSec f).turns = s.turns := rfl
@[simp] theorem modSec_kept (f : Sec → Sec) : (s.modSec f).kept = s.kept := rfl
@[simp] theorem modSec_out (f : Sec → Sec) : (s.modSec f).out = s.out := rfl
@[simp] theorem modSec_free (f : Sec → Sec) : (s.modSec f).free = s.free := rfl

/-! ### modSvc -/

@[simp] theorem modSvc_pending (f : Svc → Svc) : (s.modSvc f).pending = s.pending := rfl
@[simp] theorem modSvc_regs (f : Svc → Svc) : (s.modSvc f).regs = s.regs := rfl
@[simp] theorem modSvc_staged (f : Svc → Svc) : (s.modSvc f).staged = s.staged := rfl
@[simp] theorem modSvc_plat (f : Svc → Svc) : (s.modSvc f).plat = s.plat := rfl
@[simp] theorem modSvc_clock (f : Svc → Svc) : (s.modSvc f).clock = s.clock := rfl
@[simp] theorem modSvc_lantern (f : Svc → Svc) : (s.modSvc f).lantern = s.lantern := rfl
@[simp] theorem modSvc_dram (f : Svc → Svc) : (s.modSvc f).dram = s.dram := rfl
@[simp] theorem modSvc_ue (f : Svc → Svc) : (s.modSvc f).ue = s.ue := rfl
@[simp] theorem modSvc_tiles (f : Svc → Svc) : (s.modSvc f).tiles = s.tiles := rfl
@[simp] theorem modSvc_domains (f : Svc → Svc) : (s.modSvc f).domains = s.domains := rfl
@[simp] theorem modSvc_spares (f : Svc → Svc) : (s.modSvc f).spares = s.spares := rfl
@[simp] theorem modSvc_jobs (f : Svc → Svc) : (s.modSvc f).jobs = s.jobs := rfl
@[simp] theorem modSvc_ports (f : Svc → Svc) : (s.modSvc f).ports = s.ports := rfl
@[simp] theorem modSvc_router (f : Svc → Svc) : (s.modSvc f).router = s.router := rfl
@[simp] theorem modSvc_host (f : Svc → Svc) : (s.modSvc f).host = s.host := rfl
@[simp] theorem modSvc_sec (f : Svc → Svc) : (s.modSvc f).sec = s.sec := rfl
@[simp] theorem modSvc_coolLogic (f : Svc → Svc) : (s.modSvc f).coolLogic = s.coolLogic := rfl
@[simp] theorem modSvc_lanes (f : Svc → Svc) : (s.modSvc f).lanes = s.lanes := rfl
@[simp] theorem modSvc_turns (f : Svc → Svc) : (s.modSvc f).turns = s.turns := rfl
@[simp] theorem modSvc_kept (f : Svc → Svc) : (s.modSvc f).kept = s.kept := rfl
@[simp] theorem modSvc_out (f : Svc → Svc) : (s.modSvc f).out = s.out := rfl
@[simp] theorem modSvc_free (f : Svc → Svc) : (s.modSvc f).free = s.free := rfl

/-! ### modSpares -/

@[simp] theorem modSpares_pending (f : Spares → Spares) : (s.modSpares f).pending = s.pending := rfl
@[simp] theorem modSpares_regs (f : Spares → Spares) : (s.modSpares f).regs = s.regs := rfl
@[simp] theorem modSpares_staged (f : Spares → Spares) : (s.modSpares f).staged = s.staged := rfl
@[simp] theorem modSpares_plat (f : Spares → Spares) : (s.modSpares f).plat = s.plat := rfl
@[simp] theorem modSpares_clock (f : Spares → Spares) : (s.modSpares f).clock = s.clock := rfl
@[simp] theorem modSpares_lantern (f : Spares → Spares) : (s.modSpares f).lantern = s.lantern := rfl
@[simp] theorem modSpares_dram (f : Spares → Spares) : (s.modSpares f).dram = s.dram := rfl
@[simp] theorem modSpares_ue (f : Spares → Spares) : (s.modSpares f).ue = s.ue := rfl
@[simp] theorem modSpares_tiles (f : Spares → Spares) : (s.modSpares f).tiles = s.tiles := rfl
@[simp] theorem modSpares_domains (f : Spares → Spares) : (s.modSpares f).domains = s.domains := rfl
@[simp] theorem modSpares_jobs (f : Spares → Spares) : (s.modSpares f).jobs = s.jobs := rfl
@[simp] theorem modSpares_ports (f : Spares → Spares) : (s.modSpares f).ports = s.ports := rfl
@[simp] theorem modSpares_router (f : Spares → Spares) : (s.modSpares f).router = s.router := rfl
@[simp] theorem modSpares_host (f : Spares → Spares) : (s.modSpares f).host = s.host := rfl
@[simp] theorem modSpares_sec (f : Spares → Spares) : (s.modSpares f).sec = s.sec := rfl
@[simp] theorem modSpares_svc (f : Spares → Spares) : (s.modSpares f).svc = s.svc := rfl
@[simp] theorem modSpares_coolLogic (f : Spares → Spares) : (s.modSpares f).coolLogic = s.coolLogic := rfl
@[simp] theorem modSpares_lanes (f : Spares → Spares) : (s.modSpares f).lanes = s.lanes := rfl
@[simp] theorem modSpares_turns (f : Spares → Spares) : (s.modSpares f).turns = s.turns := rfl
@[simp] theorem modSpares_kept (f : Spares → Spares) : (s.modSpares f).kept = s.kept := rfl
@[simp] theorem modSpares_out (f : Spares → Spares) : (s.modSpares f).out = s.out := rfl
@[simp] theorem modSpares_free (f : Spares → Spares) : (s.modSpares f).free = s.free := rfl

/-! ### emit -/

@[simp] theorem emit_pending (o : Output) : (s.emit o).pending = s.pending := rfl
@[simp] theorem emit_regs (o : Output) : (s.emit o).regs = s.regs := rfl
@[simp] theorem emit_staged (o : Output) : (s.emit o).staged = s.staged := rfl
@[simp] theorem emit_plat (o : Output) : (s.emit o).plat = s.plat := rfl
@[simp] theorem emit_clock (o : Output) : (s.emit o).clock = s.clock := rfl
@[simp] theorem emit_lantern (o : Output) : (s.emit o).lantern = s.lantern := rfl
@[simp] theorem emit_dram (o : Output) : (s.emit o).dram = s.dram := rfl
@[simp] theorem emit_ue (o : Output) : (s.emit o).ue = s.ue := rfl
@[simp] theorem emit_tiles (o : Output) : (s.emit o).tiles = s.tiles := rfl
@[simp] theorem emit_domains (o : Output) : (s.emit o).domains = s.domains := rfl
@[simp] theorem emit_spares (o : Output) : (s.emit o).spares = s.spares := rfl
@[simp] theorem emit_jobs (o : Output) : (s.emit o).jobs = s.jobs := rfl
@[simp] theorem emit_ports (o : Output) : (s.emit o).ports = s.ports := rfl
@[simp] theorem emit_router (o : Output) : (s.emit o).router = s.router := rfl
@[simp] theorem emit_host (o : Output) : (s.emit o).host = s.host := rfl
@[simp] theorem emit_sec (o : Output) : (s.emit o).sec = s.sec := rfl
@[simp] theorem emit_svc (o : Output) : (s.emit o).svc = s.svc := rfl
@[simp] theorem emit_coolLogic (o : Output) : (s.emit o).coolLogic = s.coolLogic := rfl
@[simp] theorem emit_lanes (o : Output) : (s.emit o).lanes = s.lanes := rfl
@[simp] theorem emit_turns (o : Output) : (s.emit o).turns = s.turns := rfl
@[simp] theorem emit_kept (o : Output) : (s.emit o).kept = s.kept := rfl
@[simp] theorem emit_free (o : Output) : (s.emit o).free = s.free := rfl

/-! ### setMem -/

@[simp] theorem setMem_pending (a : Nat) (bs : Bytes) : (s.setMem a bs).pending = s.pending := rfl
@[simp] theorem setMem_regs (a : Nat) (bs : Bytes) : (s.setMem a bs).regs = s.regs := rfl
@[simp] theorem setMem_staged (a : Nat) (bs : Bytes) : (s.setMem a bs).staged = s.staged := rfl
@[simp] theorem setMem_plat (a : Nat) (bs : Bytes) : (s.setMem a bs).plat = s.plat := rfl
@[simp] theorem setMem_clock (a : Nat) (bs : Bytes) : (s.setMem a bs).clock = s.clock := rfl
@[simp] theorem setMem_lantern (a : Nat) (bs : Bytes) : (s.setMem a bs).lantern = s.lantern := rfl
@[simp] theorem setMem_tiles (a : Nat) (bs : Bytes) : (s.setMem a bs).tiles = s.tiles := rfl
@[simp] theorem setMem_domains (a : Nat) (bs : Bytes) : (s.setMem a bs).domains = s.domains := rfl
@[simp] theorem setMem_spares (a : Nat) (bs : Bytes) : (s.setMem a bs).spares = s.spares := rfl
@[simp] theorem setMem_jobs (a : Nat) (bs : Bytes) : (s.setMem a bs).jobs = s.jobs := rfl
@[simp] theorem setMem_ports (a : Nat) (bs : Bytes) : (s.setMem a bs).ports = s.ports := rfl
@[simp] theorem setMem_router (a : Nat) (bs : Bytes) : (s.setMem a bs).router = s.router := rfl
@[simp] theorem setMem_host (a : Nat) (bs : Bytes) : (s.setMem a bs).host = s.host := rfl
@[simp] theorem setMem_sec (a : Nat) (bs : Bytes) : (s.setMem a bs).sec = s.sec := rfl
@[simp] theorem setMem_svc (a : Nat) (bs : Bytes) : (s.setMem a bs).svc = s.svc := rfl
@[simp] theorem setMem_coolLogic (a : Nat) (bs : Bytes) : (s.setMem a bs).coolLogic = s.coolLogic := rfl
@[simp] theorem setMem_lanes (a : Nat) (bs : Bytes) : (s.setMem a bs).lanes = s.lanes := rfl
@[simp] theorem setMem_turns (a : Nat) (bs : Bytes) : (s.setMem a bs).turns = s.turns := rfl
@[simp] theorem setMem_kept (a : Nat) (bs : Bytes) : (s.setMem a bs).kept = s.kept := rfl
@[simp] theorem setMem_out (a : Nat) (bs : Bytes) : (s.setMem a bs).out = s.out := rfl
@[simp] theorem setMem_free (a : Nat) (bs : Bytes) : (s.setMem a bs).free = s.free := rfl

/-! ### setSession -/

@[simp] theorem setSession_pending (k : Nat) (x : Session) : (s.setSession k x).pending = s.pending := rfl
@[simp] theorem setSession_regs (k : Nat) (x : Session) : (s.setSession k x).regs = s.regs := rfl
@[simp] theorem setSession_staged (k : Nat) (x : Session) : (s.setSession k x).staged = s.staged := rfl
@[simp] theorem setSession_plat (k : Nat) (x : Session) : (s.setSession k x).plat = s.plat := rfl
@[simp] theorem setSession_clock (k : Nat) (x : Session) : (s.setSession k x).clock = s.clock := rfl
@[simp] theorem setSession_lantern (k : Nat) (x : Session) : (s.setSession k x).lantern = s.lantern := rfl
@[simp] theorem setSession_dram (k : Nat) (x : Session) : (s.setSession k x).dram = s.dram := rfl
@[simp] theorem setSession_ue (k : Nat) (x : Session) : (s.setSession k x).ue = s.ue := rfl
@[simp] theorem setSession_tiles (k : Nat) (x : Session) : (s.setSession k x).tiles = s.tiles := rfl
@[simp] theorem setSession_domains (k : Nat) (x : Session) : (s.setSession k x).domains = s.domains := rfl
@[simp] theorem setSession_spares (k : Nat) (x : Session) : (s.setSession k x).spares = s.spares := rfl
@[simp] theorem setSession_jobs (k : Nat) (x : Session) : (s.setSession k x).jobs = s.jobs := rfl
@[simp] theorem setSession_ports (k : Nat) (x : Session) : (s.setSession k x).ports = s.ports := rfl
@[simp] theorem setSession_router (k : Nat) (x : Session) : (s.setSession k x).router = s.router := rfl
@[simp] theorem setSession_sec (k : Nat) (x : Session) : (s.setSession k x).sec = s.sec := rfl
@[simp] theorem setSession_svc (k : Nat) (x : Session) : (s.setSession k x).svc = s.svc := rfl
@[simp] theorem setSession_coolLogic (k : Nat) (x : Session) : (s.setSession k x).coolLogic = s.coolLogic := rfl
@[simp] theorem setSession_lanes (k : Nat) (x : Session) : (s.setSession k x).lanes = s.lanes := rfl
@[simp] theorem setSession_turns (k : Nat) (x : Session) : (s.setSession k x).turns = s.turns := rfl
@[simp] theorem setSession_kept (k : Nat) (x : Session) : (s.setSession k x).kept = s.kept := rfl
@[simp] theorem setSession_out (k : Nat) (x : Session) : (s.setSession k x).out = s.out := rfl
@[simp] theorem setSession_free (k : Nat) (x : Session) : (s.setSession k x).free = s.free := rfl

/-! ### What is changed -/

@[simp] theorem setDev_dev (d : DevState) : (s.setDev d).plat.dev = d := rfl
@[simp] theorem modPlat_plat (f : Plat → Plat) : (s.modPlat f).plat = f s.plat := rfl
@[simp] theorem modClock_clock (f : Clock → Clock) : (s.modClock f).clock = f s.clock := rfl
@[simp] theorem modRouter_router (f : Router → Router) : (s.modRouter f).router = f s.router := rfl
@[simp] theorem modHost_host (f : HostPort → HostPort) : (s.modHost f).host = f s.host := rfl
@[simp] theorem modSec_sec (f : Sec → Sec) : (s.modSec f).sec = f s.sec := rfl
@[simp] theorem modSvc_svc (f : Svc → Svc) : (s.modSvc f).svc = f s.svc := rfl
@[simp] theorem modSpares_spares (f : Spares → Spares) : (s.modSpares f).spares = f s.spares := rfl
@[simp] theorem emit_out (o : Output) : (s.emit o).out = s.out ++ [o] := rfl
@[simp] theorem cfgReject_plat : s.cfgReject.plat = { s.plat with cfgReject := true } := rfl

/-! ### Parts read after an update of the whole -/

@[simp] theorem setReg_at_tile (k v : Nat) (t' : Nat) : (s.setReg k v).tile t' = s.tile t' := rfl
@[simp] theorem setReg_at_dom (k v : Nat) (q' : Nat) : (s.setReg k v).dom q' = s.dom q' := rfl
@[simp] theorem setReg_at_job (k v : Nat) (j' : Nat) : (s.setReg k v).job j' = s.job j' := rfl
@[simp] theorem setReg_at_port (k v : Nat) (p' : Nat) : (s.setReg k v).port p' = s.port p' := rfl
@[simp] theorem setReg_at_mem (k v : Nat) (a' n' : Nat) : (s.setReg k v).mem a' n' = s.mem a' n' := rfl
@[simp] theorem setFld_at_tile (f : Fld) (v i : Nat) (t' : Nat) : (s.setFld f v i).tile t' = s.tile t' := rfl
@[simp] theorem setFld_at_dom (f : Fld) (v i : Nat) (q' : Nat) : (s.setFld f v i).dom q' = s.dom q' := rfl
@[simp] theorem setFld_at_job (f : Fld) (v i : Nat) (j' : Nat) : (s.setFld f v i).job j' = s.job j' := rfl
@[simp] theorem setFld_at_port (f : Fld) (v i : Nat) (p' : Nat) : (s.setFld f v i).port p' = s.port p' := rfl
@[simp] theorem setFld_at_mem (f : Fld) (v i : Nat) (a' n' : Nat) : (s.setFld f v i).mem a' n' = s.mem a' n' := rfl
@[simp] theorem count_at_tile (f : Fld) (n i : Nat) (t' : Nat) : (s.count f n i).tile t' = s.tile t' := rfl
@[simp] theorem count_at_dom (f : Fld) (n i : Nat) (q' : Nat) : (s.count f n i).dom q' = s.dom q' := rfl
@[simp] theorem count_at_job (f : Fld) (n i : Nat) (j' : Nat) : (s.count f n i).job j' = s.job j' := rfl
@[simp] theorem count_at_port (f : Fld) (n i : Nat) (p' : Nat) : (s.count f n i).port p' = s.port p' := rfl
@[simp] theorem count_at_mem (f : Fld) (n i : Nat) (a' n' : Nat) : (s.count f n i).mem a' n' = s.mem a' n' := rfl
@[simp] theorem orFld_at_tile (f : Fld) (v i : Nat) (t' : Nat) : (s.orFld f v i).tile t' = s.tile t' := rfl
@[simp] theorem orFld_at_dom (f : Fld) (v i : Nat) (q' : Nat) : (s.orFld f v i).dom q' = s.dom q' := rfl
@[simp] theorem orFld_at_job (f : Fld) (v i : Nat) (j' : Nat) : (s.orFld f v i).job j' = s.job j' := rfl
@[simp] theorem orFld_at_port (f : Fld) (v i : Nat) (p' : Nat) : (s.orFld f v i).port p' = s.port p' := rfl
@[simp] theorem orFld_at_mem (f : Fld) (v i : Nat) (a' n' : Nat) : (s.orFld f v i).mem a' n' = s.mem a' n' := rfl
@[simp] theorem setTile_at_dom (t : Nat) (x : Tile) (q' : Nat) : (s.setTile t x).dom q' = s.dom q' := rfl
@[simp] theorem setTile_at_job (t : Nat) (x : Tile) (j' : Nat) : (s.setTile t x).job j' = s.job j' := rfl
@[simp] theorem setTile_at_port (t : Nat) (x : Tile) (p' : Nat) : (s.setTile t x).port p' = s.port p' := rfl
@[simp] theorem setTile_at_reg (t : Nat) (x : Tile) (k' : Nat) : (s.setTile t x).reg k' = s.reg k' := rfl
@[simp] theorem setTile_at_mem (t : Nat) (x : Tile) (a' n' : Nat) : (s.setTile t x).mem a' n' = s.mem a' n' := rfl
@[simp] theorem modTile_at_dom (t : Nat) (f : Tile → Tile) (q' : Nat) : (s.modTile t f).dom q' = s.dom q' := rfl
@[simp] theorem modTile_at_job (t : Nat) (f : Tile → Tile) (j' : Nat) : (s.modTile t f).job j' = s.job j' := rfl
@[simp] theorem modTile_at_port (t : Nat) (f : Tile → Tile) (p' : Nat) : (s.modTile t f).port p' = s.port p' := rfl
@[simp] theorem modTile_at_reg (t : Nat) (f : Tile → Tile) (k' : Nat) : (s.modTile t f).reg k' = s.reg k' := rfl
@[simp] theorem modTile_at_mem (t : Nat) (f : Tile → Tile) (a' n' : Nat) : (s.modTile t f).mem a' n' = s.mem a' n' := rfl
@[simp] theorem modDom_at_tile (q : Nat) (f : Domain → Domain) (t' : Nat) : (s.modDom q f).tile t' = s.tile t' := rfl
@[simp] theorem modDom_at_job (q : Nat) (f : Domain → Domain) (j' : Nat) : (s.modDom q f).job j' = s.job j' := rfl
@[simp] theorem modDom_at_port (q : Nat) (f : Domain → Domain) (p' : Nat) : (s.modDom q f).port p' = s.port p' := rfl
@[simp] theorem modDom_at_reg (q : Nat) (f : Domain → Domain) (k' : Nat) : (s.modDom q f).reg k' = s.reg k' := rfl
@[simp] theorem modDom_at_mem (q : Nat) (f : Domain → Domain) (a' n' : Nat) : (s.modDom q f).mem a' n' = s.mem a' n' := rfl
@[simp] theorem setJob_at_tile (j : Nat) (x : Job) (t' : Nat) : (s.setJob j x).tile t' = s.tile t' := rfl
@[simp] theorem setJob_at_dom (j : Nat) (x : Job) (q' : Nat) : (s.setJob j x).dom q' = s.dom q' := rfl
@[simp] theorem setJob_at_port (j : Nat) (x : Job) (p' : Nat) : (s.setJob j x).port p' = s.port p' := rfl
@[simp] theorem setJob_at_reg (j : Nat) (x : Job) (k' : Nat) : (s.setJob j x).reg k' = s.reg k' := rfl
@[simp] theorem setJob_at_mem (j : Nat) (x : Job) (a' n' : Nat) : (s.setJob j x).mem a' n' = s.mem a' n' := rfl
@[simp] theorem modJob_at_tile (j : Nat) (f : Job → Job) (t' : Nat) : (s.modJob j f).tile t' = s.tile t' := rfl
@[simp] theorem modJob_at_dom (j : Nat) (f : Job → Job) (q' : Nat) : (s.modJob j f).dom q' = s.dom q' := rfl
@[simp] theorem modJob_at_port (j : Nat) (f : Job → Job) (p' : Nat) : (s.modJob j f).port p' = s.port p' := rfl
@[simp] theorem modJob_at_reg (j : Nat) (f : Job → Job) (k' : Nat) : (s.modJob j f).reg k' = s.reg k' := rfl
@[simp] theorem modJob_at_mem (j : Nat) (f : Job → Job) (a' n' : Nat) : (s.modJob j f).mem a' n' = s.mem a' n' := rfl
@[simp] theorem modAtt_at_tile (j : Nat) (f : Attempt → Attempt) (t' : Nat) : (s.modAtt j f).tile t' = s.tile t' := rfl
@[simp] theorem modAtt_at_dom (j : Nat) (f : Attempt → Attempt) (q' : Nat) : (s.modAtt j f).dom q' = s.dom q' := rfl
@[simp] theorem modAtt_at_port (j : Nat) (f : Attempt → Attempt) (p' : Nat) : (s.modAtt j f).port p' = s.port p' := rfl
@[simp] theorem modAtt_at_reg (j : Nat) (f : Attempt → Attempt) (k' : Nat) : (s.modAtt j f).reg k' = s.reg k' := rfl
@[simp] theorem modAtt_at_mem (j : Nat) (f : Attempt → Attempt) (a' n' : Nat) : (s.modAtt j f).mem a' n' = s.mem a' n' := rfl
@[simp] theorem modLed_at_tile (j : Nat) (f : Ledger → Ledger) (t' : Nat) : (s.modLed j f).tile t' = s.tile t' := rfl
@[simp] theorem modLed_at_dom (j : Nat) (f : Ledger → Ledger) (q' : Nat) : (s.modLed j f).dom q' = s.dom q' := rfl
@[simp] theorem modLed_at_port (j : Nat) (f : Ledger → Ledger) (p' : Nat) : (s.modLed j f).port p' = s.port p' := rfl
@[simp] theorem modLed_at_reg (j : Nat) (f : Ledger → Ledger) (k' : Nat) : (s.modLed j f).reg k' = s.reg k' := rfl
@[simp] theorem modLed_at_mem (j : Nat) (f : Ledger → Ledger) (a' n' : Nat) : (s.modLed j f).mem a' n' = s.mem a' n' := rfl
@[simp] theorem modDxe_at_tile (j : Nat) (f : Dxe → Dxe) (t' : Nat) : (s.modDxe j f).tile t' = s.tile t' := rfl
@[simp] theorem modDxe_at_dom (j : Nat) (f : Dxe → Dxe) (q' : Nat) : (s.modDxe j f).dom q' = s.dom q' := rfl
@[simp] theorem modDxe_at_port (j : Nat) (f : Dxe → Dxe) (p' : Nat) : (s.modDxe j f).port p' = s.port p' := rfl
@[simp] theorem modDxe_at_reg (j : Nat) (f : Dxe → Dxe) (k' : Nat) : (s.modDxe j f).reg k' = s.reg k' := rfl
@[simp] theorem modDxe_at_mem (j : Nat) (f : Dxe → Dxe) (a' n' : Nat) : (s.modDxe j f).mem a' n' = s.mem a' n' := rfl
@[simp] theorem modPort_at_tile (p : Nat) (f : Port → Port) (t' : Nat) : (s.modPort p f).tile t' = s.tile t' := rfl
@[simp] theorem modPort_at_dom (p : Nat) (f : Port → Port) (q' : Nat) : (s.modPort p f).dom q' = s.dom q' := rfl
@[simp] theorem modPort_at_job (p : Nat) (f : Port → Port) (j' : Nat) : (s.modPort p f).job j' = s.job j' := rfl
@[simp] theorem modPort_at_reg (p : Nat) (f : Port → Port) (k' : Nat) : (s.modPort p f).reg k' = s.reg k' := rfl
@[simp] theorem modPort_at_mem (p : Nat) (f : Port → Port) (a' n' : Nat) : (s.modPort p f).mem a' n' = s.mem a' n' := rfl
@[simp] theorem setDev_at_tile (d : DevState) (t' : Nat) : (s.setDev d).tile t' = s.tile t' := rfl
@[simp] theorem setDev_at_dom (d : DevState) (q' : Nat) : (s.setDev d).dom q' = s.dom q' := rfl
@[simp] theorem setDev_at_job (d : DevState) (j' : Nat) : (s.setDev d).job j' = s.job j' := rfl
@[simp] theorem setDev_at_port (d : DevState) (p' : Nat) : (s.setDev d).port p' = s.port p' := rfl
@[simp] theorem setDev_at_reg (d : DevState) (k' : Nat) : (s.setDev d).reg k' = s.reg k' := rfl
@[simp] theorem setDev_at_mem (d : DevState) (a' n' : Nat) : (s.setDev d).mem a' n' = s.mem a' n' := rfl
@[simp] theorem modPlat_at_tile (f : Plat → Plat) (t' : Nat) : (s.modPlat f).tile t' = s.tile t' := rfl
@[simp] theorem modPlat_at_dom (f : Plat → Plat) (q' : Nat) : (s.modPlat f).dom q' = s.dom q' := rfl
@[simp] theorem modPlat_at_job (f : Plat → Plat) (j' : Nat) : (s.modPlat f).job j' = s.job j' := rfl
@[simp] theorem modPlat_at_port (f : Plat → Plat) (p' : Nat) : (s.modPlat f).port p' = s.port p' := rfl
@[simp] theorem modPlat_at_reg (f : Plat → Plat) (k' : Nat) : (s.modPlat f).reg k' = s.reg k' := rfl
@[simp] theorem modPlat_at_mem (f : Plat → Plat) (a' n' : Nat) : (s.modPlat f).mem a' n' = s.mem a' n' := rfl
@[simp] theorem cfgReject_at_tile (t' : Nat) : (s.cfgReject).tile t' = s.tile t' := rfl
@[simp] theorem cfgReject_at_dom (q' : Nat) : (s.cfgReject).dom q' = s.dom q' := rfl
@[simp] theorem cfgReject_at_job (j' : Nat) : (s.cfgReject).job j' = s.job j' := rfl
@[simp] theorem cfgReject_at_port (p' : Nat) : (s.cfgReject).port p' = s.port p' := rfl
@[simp] theorem cfgReject_at_reg (k' : Nat) : (s.cfgReject).reg k' = s.reg k' := rfl
@[simp] theorem cfgReject_at_mem (a' n' : Nat) : (s.cfgReject).mem a' n' = s.mem a' n' := rfl
@[simp] theorem modClock_at_tile (f : Clock → Clock) (t' : Nat) : (s.modClock f).tile t' = s.tile t' := rfl
@[simp] theorem modClock_at_dom (f : Clock → Clock) (q' : Nat) : (s.modClock f).dom q' = s.dom q' := rfl
@[simp] theorem modClock_at_job (f : Clock → Clock) (j' : Nat) : (s.modClock f).job j' = s.job j' := rfl
@[simp] theorem modClock_at_port (f : Clock → Clock) (p' : Nat) : (s.modClock f).port p' = s.port p' := rfl
@[simp] theorem modClock_at_reg (f : Clock → Clock) (k' : Nat) : (s.modClock f).reg k' = s.reg k' := rfl
@[simp] theorem modClock_at_mem (f : Clock → Clock) (a' n' : Nat) : (s.modClock f).mem a' n' = s.mem a' n' := rfl
@[simp] theorem modRouter_at_tile (f : Router → Router) (t' : Nat) : (s.modRouter f).tile t' = s.tile t' := rfl
@[simp] theorem modRouter_at_dom (f : Router → Router) (q' : Nat) : (s.modRouter f).dom q' = s.dom q' := rfl
@[simp] theorem modRouter_at_job (f : Router → Router) (j' : Nat) : (s.modRouter f).job j' = s.job j' := rfl
@[simp] theorem modRouter_at_port (f : Router → Router) (p' : Nat) : (s.modRouter f).port p' = s.port p' := rfl
@[simp] theorem modRouter_at_reg (f : Router → Router) (k' : Nat) : (s.modRouter f).reg k' = s.reg k' := rfl
@[simp] theorem modRouter_at_mem (f : Router → Router) (a' n' : Nat) : (s.modRouter f).mem a' n' = s.mem a' n' := rfl
@[simp] theorem modHost_at_tile (f : HostPort → HostPort) (t' : Nat) : (s.modHost f).tile t' = s.tile t' := rfl
@[simp] theorem modHost_at_dom (f : HostPort → HostPort) (q' : Nat) : (s.modHost f).dom q' = s.dom q' := rfl
@[simp] theorem modHost_at_job (f : HostPort → HostPort) (j' : Nat) : (s.modHost f).job j' = s.job j' := rfl
@[simp] theorem modHost_at_port (f : HostPort → HostPort) (p' : Nat) : (s.modHost f).port p' = s.port p' := rfl
@[simp] theorem modHost_at_reg (f : HostPort → HostPort) (k' : Nat) : (s.modHost f).reg k' = s.reg k' := rfl
@[simp] theorem modHost_at_mem (f : HostPort → HostPort) (a' n' : Nat) : (s.modHost f).mem a' n' = s.mem a' n' := rfl
@[simp] theorem modSec_at_tile (f : Sec → Sec) (t' : Nat) : (s.modSec f).tile t' = s.tile t' := rfl
@[simp] theorem modSec_at_dom (f : Sec → Sec) (q' : Nat) : (s.modSec f).dom q' = s.dom q' := rfl
@[simp] theorem modSec_at_job (f : Sec → Sec) (j' : Nat) : (s.modSec f).job j' = s.job j' := rfl
@[simp] theorem modSec_at_port (f : Sec → Sec) (p' : Nat) : (s.modSec f).port p' = s.port p' := rfl
@[simp] theorem modSec_at_reg (f : Sec → Sec) (k' : Nat) : (s.modSec f).reg k' = s.reg k' := rfl
@[simp] theorem modSec_at_mem (f : Sec → Sec) (a' n' : Nat) : (s.modSec f).mem a' n' = s.mem a' n' := rfl
@[simp] theorem modSvc_at_tile (f : Svc → Svc) (t' : Nat) : (s.modSvc f).tile t' = s.tile t' := rfl
@[simp] theorem modSvc_at_dom (f : Svc → Svc) (q' : Nat) : (s.modSvc f).dom q' = s.dom q' := rfl
@[simp] theorem modSvc_at_job (f : Svc → Svc) (j' : Nat) : (s.modSvc f).job j' = s.job j' := rfl
@[simp] theorem modSvc_at_port (f : Svc → Svc) (p' : Nat) : (s.modSvc f).port p' = s.port p' := rfl
@[simp] theorem modSvc_at_reg (f : Svc → Svc) (k' : Nat) : (s.modSvc f).reg k' = s.reg k' := rfl
@[simp] theorem modSvc_at_mem (f : Svc → Svc) (a' n' : Nat) : (s.modSvc f).mem a' n' = s.mem a' n' := rfl
@[simp] theorem modSpares_at_tile (f : Spares → Spares) (t' : Nat) : (s.modSpares f).tile t' = s.tile t' := rfl
@[simp] theorem modSpares_at_dom (f : Spares → Spares) (q' : Nat) : (s.modSpares f).dom q' = s.dom q' := rfl
@[simp] theorem modSpares_at_job (f : Spares → Spares) (j' : Nat) : (s.modSpares f).job j' = s.job j' := rfl
@[simp] theorem modSpares_at_port (f : Spares → Spares) (p' : Nat) : (s.modSpares f).port p' = s.port p' := rfl
@[simp] theorem modSpares_at_reg (f : Spares → Spares) (k' : Nat) : (s.modSpares f).reg k' = s.reg k' := rfl
@[simp] theorem modSpares_at_mem (f : Spares → Spares) (a' n' : Nat) : (s.modSpares f).mem a' n' = s.mem a' n' := rfl
@[simp] theorem emit_at_tile (o : Output) (t' : Nat) : (s.emit o).tile t' = s.tile t' := rfl
@[simp] theorem emit_at_dom (o : Output) (q' : Nat) : (s.emit o).dom q' = s.dom q' := rfl
@[simp] theorem emit_at_job (o : Output) (j' : Nat) : (s.emit o).job j' = s.job j' := rfl
@[simp] theorem emit_at_port (o : Output) (p' : Nat) : (s.emit o).port p' = s.port p' := rfl
@[simp] theorem emit_at_reg (o : Output) (k' : Nat) : (s.emit o).reg k' = s.reg k' := rfl
@[simp] theorem emit_at_mem (o : Output) (a' n' : Nat) : (s.emit o).mem a' n' = s.mem a' n' := rfl
@[simp] theorem setMem_at_tile (a : Nat) (bs : Bytes) (t' : Nat) : (s.setMem a bs).tile t' = s.tile t' := rfl
@[simp] theorem setMem_at_dom (a : Nat) (bs : Bytes) (q' : Nat) : (s.setMem a bs).dom q' = s.dom q' := rfl
@[simp] theorem setMem_at_job (a : Nat) (bs : Bytes) (j' : Nat) : (s.setMem a bs).job j' = s.job j' := rfl
@[simp] theorem setMem_at_port (a : Nat) (bs : Bytes) (p' : Nat) : (s.setMem a bs).port p' = s.port p' := rfl
@[simp] theorem setMem_at_reg (a : Nat) (bs : Bytes) (k' : Nat) : (s.setMem a bs).reg k' = s.reg k' := rfl
@[simp] theorem setSession_at_tile (k : Nat) (x : Session) (t' : Nat) : (s.setSession k x).tile t' = s.tile t' := rfl
@[simp] theorem setSession_at_dom (k : Nat) (x : Session) (q' : Nat) : (s.setSession k x).dom q' = s.dom q' := rfl
@[simp] theorem setSession_at_job (k : Nat) (x : Session) (j' : Nat) : (s.setSession k x).job j' = s.job j' := rfl
@[simp] theorem setSession_at_port (k : Nat) (x : Session) (p' : Nat) : (s.setSession k x).port p' = s.port p' := rfl
@[simp] theorem setSession_at_reg (k : Nat) (x : Session) (k' : Nat) : (s.setSession k x).reg k' = s.reg k' := rfl
@[simp] theorem setSession_at_mem (k : Nat) (x : Session) (a' n' : Nat) : (s.setSession k x).mem a' n' = s.mem a' n' := rfl

/-! ### Fields of registers after updates that leave the registers -/

@[simp] theorem setTile_fld (t : Nat) (x : Tile) (g : Fld) (i' : Nat) : (s.setTile t x).fld g i' = s.fld g i' := rfl
@[simp] theorem modTile_fld (t : Nat) (f : Tile → Tile) (g : Fld) (i' : Nat) : (s.modTile t f).fld g i' = s.fld g i' := rfl
@[simp] theorem modDom_fld (q : Nat) (f : Domain → Domain) (g : Fld) (i' : Nat) : (s.modDom q f).fld g i' = s.fld g i' := rfl
@[simp] theorem setJob_fld (j : Nat) (x : Job) (g : Fld) (i' : Nat) : (s.setJob j x).fld g i' = s.fld g i' := rfl
@[simp] theorem modJob_fld (j : Nat) (f : Job → Job) (g : Fld) (i' : Nat) : (s.modJob j f).fld g i' = s.fld g i' := rfl
@[simp] theorem modAtt_fld (j : Nat) (f : Attempt → Attempt) (g : Fld) (i' : Nat) : (s.modAtt j f).fld g i' = s.fld g i' := rfl
@[simp] theorem modLed_fld (j : Nat) (f : Ledger → Ledger) (g : Fld) (i' : Nat) : (s.modLed j f).fld g i' = s.fld g i' := rfl
@[simp] theorem modDxe_fld (j : Nat) (f : Dxe → Dxe) (g : Fld) (i' : Nat) : (s.modDxe j f).fld g i' = s.fld g i' := rfl
@[simp] theorem modPort_fld (p : Nat) (f : Port → Port) (g : Fld) (i' : Nat) : (s.modPort p f).fld g i' = s.fld g i' := rfl
@[simp] theorem setDev_fld (d : DevState) (g : Fld) (i' : Nat) : (s.setDev d).fld g i' = s.fld g i' := rfl
@[simp] theorem modPlat_fld (f : Plat → Plat) (g : Fld) (i' : Nat) : (s.modPlat f).fld g i' = s.fld g i' := rfl
@[simp] theorem cfgReject_fld (g : Fld) (i' : Nat) : (s.cfgReject).fld g i' = s.fld g i' := rfl
@[simp] theorem modClock_fld (f : Clock → Clock) (g : Fld) (i' : Nat) : (s.modClock f).fld g i' = s.fld g i' := rfl
@[simp] theorem modRouter_fld (f : Router → Router) (g : Fld) (i' : Nat) : (s.modRouter f).fld g i' = s.fld g i' := rfl
@[simp] theorem modHost_fld (f : HostPort → HostPort) (g : Fld) (i' : Nat) : (s.modHost f).fld g i' = s.fld g i' := rfl
@[simp] theorem modSec_fld (f : Sec → Sec) (g : Fld) (i' : Nat) : (s.modSec f).fld g i' = s.fld g i' := rfl
@[simp] theorem modSvc_fld (f : Svc → Svc) (g : Fld) (i' : Nat) : (s.modSvc f).fld g i' = s.fld g i' := rfl
@[simp] theorem modSpares_fld (f : Spares → Spares) (g : Fld) (i' : Nat) : (s.modSpares f).fld g i' = s.fld g i' := rfl
@[simp] theorem emit_fld (o : Output) (g : Fld) (i' : Nat) : (s.emit o).fld g i' = s.fld g i' := rfl
@[simp] theorem setMem_fld (a : Nat) (bs : Bytes) (g : Fld) (i' : Nat) : (s.setMem a bs).fld g i' = s.fld g i' := rfl
@[simp] theorem setSession_fld (k : Nat) (x : Session) (g : Fld) (i' : Nat) : (s.setSession k x).fld g i' = s.fld g i' := rfl

/-! ### A part read after it was written -/

theorem setTile_tile_same (t : Nat) (x : Tile) (h : keysAbove 0 s.tiles = true) : (s.setTile t x).tile t = x :=
  look_store_same s.tiles t x Tile.reset h
@[simp] theorem setTile_tile_ne {t t' : Nat} (x : Tile) (h : t' ≠ t) : (s.setTile t x).tile t' = s.tile t' :=
  look_store_ne s.tiles x Tile.reset Tile.reset h
theorem modTile_tile_same (t : Nat) (f : Tile → Tile) (h : keysAbove 0 s.tiles = true) : (s.modTile t f).tile t = f (s.tile t) :=
  setTile_tile_same s t _ h
@[simp] theorem modTile_tile_ne {t t' : Nat} (f : Tile → Tile) (h : t' ≠ t) : (s.modTile t f).tile t' = s.tile t' :=
  setTile_tile_ne s _ h

theorem setJob_job_same (j : Nat) (x : Job) (h : keysAbove 0 s.jobs = true) : (s.setJob j x).job j = x :=
  look_store_same s.jobs j x Job.reset h
@[simp] theorem setJob_job_ne {j j' : Nat} (x : Job) (h : j' ≠ j) : (s.setJob j x).job j' = s.job j' :=
  look_store_ne s.jobs x Job.reset Job.reset h
theorem modJob_job_same (j : Nat) (f : Job → Job) (h : keysAbove 0 s.jobs = true) : (s.modJob j f).job j = f (s.job j) :=
  setJob_job_same s j _ h
@[simp] theorem modJob_job_ne {j j' : Nat} (f : Job → Job) (h : j' ≠ j) : (s.modJob j f).job j' = s.job j' :=
  setJob_job_ne s _ h

theorem modDom_dom_same (q : Nat) (f : Domain → Domain) (h : keysAbove 0 s.domains = true) : (s.modDom q f).dom q = f (s.dom q) :=
  look_store_same s.domains q _ Domain.reset h
@[simp] theorem modDom_dom_ne {q q' : Nat} (f : Domain → Domain) (h : q' ≠ q) : (s.modDom q f).dom q' = s.dom q' :=
  look_store_ne s.domains _ Domain.reset Domain.reset h

theorem modPort_port_same (p : Nat) (f : Port → Port) (h : keysAbove 0 s.ports = true) : (s.modPort p f).port p = f (s.port p) :=
  look_store_same s.ports p _ Port.reset h
@[simp] theorem modPort_port_ne {p p' : Nat} (f : Port → Port) (h : p' ≠ p) : (s.modPort p f).port p' = s.port p' :=
  look_store_ne s.ports _ Port.reset Port.reset h

theorem setReg_reg_same (k v : Nat) (h : keysAbove 0 s.regs = true) (hv : v < 2 ^ 64) : (s.setReg k v).reg k = v := by
  rw [State.reg, State.setReg, look_store_same s.regs k _ _ h, BitVec.toNat_ofNat, Nat.mod_eq_of_lt hv]
@[simp] theorem setReg_reg_ne {k k' v : Nat} (h : k' ≠ k) : (s.setReg k v).reg k' = s.reg k' := by
  rw [State.reg, State.reg, State.setReg, look_store_ne s.regs _ _ _ h]

end Sys2Proof.Machine
end

