-- ==== Sys2Proof/Laws/Ops.lean ====
section
/-! SUPPORT. What each shared operation can do, said once: register words and fields, memory, what the host port sends
and the lantern log keep of the state, and the issue of a tile instruction. -/
namespace Sys2Proof.Machine

/-! ## Bit fields -/

theorem bits_lt (v lo hi : Nat) : bits v lo hi < 2 ^ (hi + 1 - lo) := Nat.mod_lt _ (Nat.two_pow_pos _)

/-- A field written reads as the value, cut to the field's width. -/
theorem bits_withBits_same (v lo hi x : Nat) : bits (withBits v lo hi x) lo hi = x % 2 ^ (hi + 1 - lo) := by
  unfold bits withBits bits
  rw [Nat.shiftRight_eq_div_pow, Nat.shiftRight_eq_div_pow]
  set a := 2 ^ lo with ha
  set b := 2 ^ (hi + 1 - lo) with hb
  have ha' : 0 < a := Nat.two_pow_pos _
  have h1 : v / a % b * a ≤ v := le_trans (Nat.mul_le_mul_right _ (Nat.mod_le _ _)) (Nat.div_mul_le_self _ _)
  have h2 : v - v / a % b * a + x % b * a = v % a + (v / a - v / a % b + x % b) * a := by
    have h3 : v % a + v / a * a = v := by rw [Nat.mul_comm]; exact Nat.mod_add_div v a
    have h4 : v / a % b ≤ v / a := Nat.mod_le _ _
    have h5 : (v / a - v / a % b) * a = v / a * a - v / a % b * a := Nat.sub_mul _ _ _
    have h6 : v / a % b * a ≤ v / a * a := Nat.mul_le_mul_right _ h4
    rw [Nat.add_mul, h5]; omega
  rw [h2, Nat.add_mul_div_right _ _ ha', Nat.div_eq_of_lt (Nat.mod_lt _ ha'), Nat.zero_add]
  have h7 : v / a - v / a % b = b * (v / a / b) := by
    have := Nat.mod_add_div (v / a) b; omega
  rw [h7, Nat.add_mod, Nat.mul_mod_right, Nat.zero_add, Nat.mod_mod, Nat.mod_mod]

theorem satTo_le (n v : Nat) : satTo n v < 2 ^ n := by
  unfold satTo; split
  · assumption
  · have := Nat.two_pow_pos n; omega

/-! ## Canonical form -/

theorem State.regsWf_setReg {s : State} (h : s.regsWf = true) (k v : Nat) : (s.setReg k v).regsWf = true :=
  canonical_store (d := regReset) k (BitVec.ofNat 64 v) h

theorem State.regsWf_setFld {s : State} (h : s.regsWf = true) (f : Fld) (v i : Nat) : (s.setFld f v i).regsWf = true :=
  State.regsWf_setReg h _ _

theorem State.keys_regs {s : State} (h : s.regsWf = true) : keysAbove 0 s.regs = true := canonical_keys h

theorem State.partsWf_iff (s : State) : s.partsWf = true ↔ canonical s.tiles (fun _ => Tile.reset) = true ∧
    canonical s.domains (fun _ => Domain.reset) = true ∧ canonical s.jobs (fun _ => Job.reset) = true ∧
    canonical s.ports (fun _ => Port.reset) = true := by
  simp [State.partsWf, Bool.and_eq_true, and_assoc]

theorem State.partsWf_setTile {s : State} (h : s.partsWf = true) (t : Nat) (x : Tile) : (s.setTile t x).partsWf = true := by
  rw [State.partsWf_iff] at h ⊢
  exact ⟨canonical_store (d := fun _ => Tile.reset) t x h.1, h.2⟩

theorem State.partsWf_modTile {s : State} (h : s.partsWf = true) (t : Nat) (f : Tile → Tile) : (s.modTile t f).partsWf = true :=
  State.partsWf_setTile h t _

theorem State.partsWf_modDom {s : State} (h : s.partsWf = true) (q : Nat) (f : Domain → Domain) : (s.modDom q f).partsWf = true := by
  rw [State.partsWf_iff] at h ⊢
  exact ⟨h.1, canonical_store (d := fun _ => Domain.reset) q _ h.2.1, h.2.2⟩

theorem State.partsWf_setJob {s : State} (h : s.partsWf = true) (j : Nat) (x : Job) : (s.setJob j x).partsWf = true := by
  rw [State.partsWf_iff] at h ⊢
  exact ⟨h.1, h.2.1, canonical_store (d := fun _ => Job.reset) j x h.2.2.1, h.2.2.2⟩

theorem State.partsWf_modJob {s : State} (h : s.partsWf = true) (j : Nat) (f : Job → Job) : (s.modJob j f).partsWf = true :=
  State.partsWf_setJob h j _

theorem State.partsWf_modPort {s : State} (h : s.partsWf = true) (p : Nat) (f : Port → Port) : (s.modPort p f).partsWf = true := by
  rw [State.partsWf_iff] at h ⊢
  exact ⟨h.1, h.2.1, h.2.2.1, canonical_store (d := fun _ => Port.reset) p _ h.2.2.2⟩

/-- The state after reset lists nothing: it is in canonical form. -/
theorem State.reset_wf : State.reset.wf = true := by decide +kernel

theorem State.reset_memory_wf : Memory.wf State.reset.dram = true := rfl

/-! ## DRAM: every operation keeps its canonical form -/

theorem State.dramWf_setMem {s : State} (h : s.dramWf = true) (a : Nat) (bs : Bytes) : (s.setMem a bs).dramWf = true :=
  Memory.wf_wrN a bs h

theorem State.dramWf_putTracked {s : State} (h : s.dramWf = true) (j k : Nat) (r : Region) : (s.putTracked j k r).dramWf = true :=
  State.dramWf_setMem h _ _

theorem State.dramWf_putRegion {s : State} (h : s.dramWf = true) (j k : Nat) (r : Region) : (s.putRegion j k r).dramWf = true :=
  State.dramWf_setMem h _ _

/-- A property that every step of a fold keeps. -/
theorem foldl_keeps {α β : Type} {P : β → Prop} {f : β → α → β} (h : ∀ b a, P b → P (f b a)) (l : List α) {b : β} (hb : P b) :
    P (l.foldl f b) := by
  induction l generalizing b with
  | nil => exact hb
  | cons a r ih => exact ih (h b a hb)

theorem dramWf_markWritten {s : State} (h : s.dramWf = true) (j a n : Nat) : (markWritten s j a n).dramWf = true := by
  refine foldl_keeps (P := fun u : State => u.dramWf = true) (fun u p hu => ?_) _ h
  split
  · exact State.dramWf_putTracked hu _ _ _
  · exact hu

/-- Digests of lines change nothing but the job's record of them. -/
theorem digestWrite_dram (s : State) (j a n : Nat) : (digestWrite s j a n).dram = s.dram := by
  refine foldl_keeps (P := fun u : State => u.dram = s.dram) (fun u p hu => ?_) _ rfl
  dsimp only
  split
  · exact hu
  · exact hu

theorem dramWf_digestWrite {s : State} (h : s.dramWf = true) (j a n : Nat) : (digestWrite s j a n).dramWf = true := by
  unfold State.dramWf; rw [digestWrite_dram]; exact h

theorem State.dramWf_writeFor {s : State} (h : s.dramWf = true) (j a : Nat) (bs : Bytes) : (s.writeFor j a bs).dramWf = true := by
  unfold State.writeFor; split
  · exact h
  · exact dramWf_digestWrite (dramWf_markWritten (State.dramWf_setMem h _ _) _ _ _) _ _ _

theorem State.dramWf_writeDram {s : State} (h : s.dramWf = true) (j a : Nat) (bs : Bytes) : (s.writeDram j a bs).1.dramWf = true := by
  unfold State.writeDram; dsimp only; split
  · exact State.dramWf_writeFor h _ _ _
  · refine foldl_keeps (P := fun u : State => u.dramWf = true) (fun u l hu => ?_) _ h
    split
    · exact hu
    · exact State.dramWf_writeFor hu _ _ _

/-- Scratchpads are no DRAM. -/
theorem State.writeSpad_dram (s : State) (a : Nat) (bs : Bytes) : (s.writeSpad a bs).dram = s.dram := by
  unfold State.writeSpad; split
  · rfl
  · refine foldl_keeps (P := fun u : State => u.dram = s.dram) (fun u p hu => ?_) _ rfl
    exact hu

theorem State.dramWf_writeAt {s : State} (h : s.dramWf = true) (j a : Nat) (bs : Bytes) : (s.writeAt j a bs).1.dramWf = true := by
  unfold State.writeAt; split
  · split
    · exact h
    · exact State.dramWf_writeDram h _ _ _
  · show (s.writeSpad a bs).dramWf = true
    unfold State.dramWf; rw [State.writeSpad_dram]; exact h
  · exact h

theorem dramWf_clearFlags {s : State} (h : s.dramWf = true) (j : Nat) : (clearFlags s j).dramWf = true := by
  unfold clearFlags State.dramWf
  simp only [modJob_dram]
  refine foldl_keeps (P := fun u : State => u.dramWf = true) (fun u p hu => ?_) _ h
  split
  · exact State.dramWf_putTracked hu _ _ _
  · exact hu

/-! ## What memory reads as after a write -/

theorem State.mem_setMem {s : State} (h : s.dramWf = true) (a : Nat) (bs : Bytes) : (s.setMem a bs).mem a bs.length = bs := rdN_wrN a bs h

theorem State.rd_setMem_outside (s : State) {a x : Nat} {bs : Bytes} (h : x < a ∨ a + bs.length ≤ x) : rd (s.setMem a bs).dram x = rd s.dram x :=
  rd_wrN_of_not_mem h

theorem length_mem (s : State) (a n : Nat) : (s.mem a n).length = n := length_rdN _ _ _

theorem length_toLE (n v : Nat) : (toLE n v).length = n := by
  induction n generalizing v with
  | zero => rfl
  | succ n ih => simp [toLE, ih]

theorem leNat_toLE (n v : Nat) : leNat (toLE n v) = v % 256 ^ n := by
  induction n generalizing v with
  | zero => simp [toLE, leNat, Nat.mod_one]
  | succ n ih =>
    simp only [toLE, leNat, ih, BitVec.toNat_ofNat]
    rw [show (2 : Nat) ^ 8 = 256 from rfl, pow_succ, Nat.mul_comm (256 ^ n) 256, Nat.mod_mul]

/-- A field of a register word reads as the value written, cut to its width. -/
theorem State.fld_setFld_same {s : State} (hs : s.regsWf = true) (f : Fld) (v i : Nat) (h : f.hi < 64) :
    (s.setFld f v i).fld f i = v % 2 ^ (f.hi + 1 - f.lo) := by
  unfold State.fld State.setFld State.reg State.setReg
  rw [look_store_same _ _ _ _ (State.keys_regs hs), BitVec.toNat_ofNat]
  set w := withBits (look s.regs (f.key i) (regReset (f.key i))).toNat f.lo f.hi v with hw
  have e : bits (w % 2 ^ 64) f.lo f.hi = bits w f.lo f.hi := by
    unfold bits
    rw [Nat.shiftRight_eq_div_pow, Nat.shiftRight_eq_div_pow]
    by_cases hlo : f.lo ≤ f.hi
    · obtain ⟨d, hd⟩ := Nat.exists_eq_add_of_le (show f.hi + 1 ≤ 64 by omega)
      have e1 : (2 : Nat) ^ 64 = 2 ^ f.lo * (2 ^ (f.hi + 1 - f.lo) * 2 ^ d) := by
        rw [← Nat.pow_add, ← Nat.pow_add]; congr 1; omega
      rw [e1, Nat.mod_mul_right_div_self, Nat.mod_mul_right_mod]
    · have e0 : f.hi + 1 - f.lo = 0 := by omega
      rw [e0]; simp [Nat.mod_one]
  rw [e, hw, bits_withBits_same]

/-- A word other than the field's reads as before. -/
theorem State.fld_setFld_other (s : State) (f g : Fld) (v i k : Nat) (h : g.key k ≠ f.key i) : (s.setFld f v i).fld g k = s.fld g k := by
  unfold State.fld State.setFld State.reg State.setReg
  rw [look_store_ne _ _ _ _ h]

theorem State.reg_setReg_other (s : State) {k k' : Nat} (v : Nat) (h : k' ≠ k) : (s.setReg k v).reg k' = s.reg k' := by
  unfold State.reg State.setReg
  rw [look_store_ne _ _ _ _ h]

/-! ## What the host port's sending and the lantern log leave as it was -/

/-- All that runs and all that is stored stays: registers, sessions, associations, datagrams kept for a re-send, the log,
outputs and the count of free values may change, and the registers stay in canonical form. -/
structure Quiet (s u : State) : Prop where
  pending : u.pending = s.pending
  staged : u.staged = s.staged
  plat : u.plat = s.plat
  clock : u.clock = s.clock
  dram : u.dram = s.dram
  ue : u.ue = s.ue
  tiles : u.tiles = s.tiles
  domains : u.domains = s.domains
  spares : u.spares = s.spares
  jobs : u.jobs = s.jobs
  ports : u.ports = s.ports
  router : u.router = s.router
  svc : u.svc = s.svc
  coolLogic : u.coolLogic = s.coolLogic
  lanes : u.lanes = s.lanes
  turns : u.turns = s.turns
  regs : s.regsWf = true → u.regsWf = true

theorem Quiet.refl (s : State) : Quiet s s := ⟨rfl, rfl, rfl, rfl, rfl, rfl, rfl, rfl, rfl, rfl, rfl, rfl, rfl, rfl, rfl, rfl, id⟩

theorem Quiet.trans {s t u : State} (a : Quiet s t) (b : Quiet t u) : Quiet s u :=
  ⟨b.pending.trans a.pending, b.staged.trans a.staged, b.plat.trans a.plat, b.clock.trans a.clock, b.dram.trans a.dram,
   b.ue.trans a.ue, b.tiles.trans a.tiles, b.domains.trans a.domains, b.spares.trans a.spares, b.jobs.trans a.jobs,
   b.ports.trans a.ports, b.router.trans a.router, b.svc.trans a.svc, b.coolLogic.trans a.coolLogic, b.lanes.trans a.lanes, b.turns.trans a.turns, b.regs ∘ a.regs⟩

theorem quiet_foldl {α : Type} {f : State → α → State} (h : ∀ s a, Quiet s (f s a)) (l : List α) (s : State) : Quiet s (l.foldl f s) :=
  foldl_keeps (P := Quiet s) (fun b a hb => hb.trans (h b a)) l (Quiet.refl s)

theorem quiet_setReg (s : State) (k v : Nat) : Quiet s (s.setReg k v) :=
  ⟨rfl, rfl, rfl, rfl, rfl, rfl, rfl, rfl, rfl, rfl, rfl, rfl, rfl, rfl, rfl, rfl, fun h => State.regsWf_setReg h k v⟩
theorem quiet_setFld (s : State) (f : Fld) (v i : Nat) : Quiet s (s.setFld f v i) := quiet_setReg _ _ _
theorem quiet_count (s : State) (f : Fld) (n i : Nat) : Quiet s (s.count f n i) := quiet_setReg _ _ _
theorem quiet_orFld (s : State) (f : Fld) (v i : Nat) : Quiet s (s.orFld f v i) := quiet_setReg _ _ _
theorem quiet_emit (s : State) (o : Output) : Quiet s (s.emit o) :=
  ⟨rfl, rfl, rfl, rfl, rfl, rfl, rfl, rfl, rfl, rfl, rfl, rfl, rfl, rfl, rfl, rfl, id⟩
theorem quiet_modHost (s : State) (f : HostPort → HostPort) : Quiet s (s.modHost f) :=
  ⟨rfl, rfl, rfl, rfl, rfl, rfl, rfl, rfl, rfl, rfl, rfl, rfl, rfl, rfl, rfl, rfl, id⟩
theorem quiet_modSec (s : State) (f : Sec → Sec) : Quiet s (s.modSec f) :=
  ⟨rfl, rfl, rfl, rfl, rfl, rfl, rfl, rfl, rfl, rfl, rfl, rfl, rfl, rfl, rfl, rfl, id⟩
theorem quiet_free (s : State) (n : Nat) : Quiet s { s with free := n } :=
  ⟨rfl, rfl, rfl, rfl, rfl, rfl, rfl, rfl, rfl, rfl, rfl, rfl, rfl, rfl, rfl, rfl, id⟩
theorem Quiet.setFree {s u : State} (h : Quiet s u) (n : Nat) : Quiet s { u with free := n } := h.trans (quiet_free u n)
theorem quiet_draw (s : State) : Quiet s s.draw.2 := quiet_free _ _

theorem quiet_net (s : State) (o : Output) : Quiet s (s.net o) := by
  unfold State.net; split
  · exact quiet_emit _ _
  · exact Quiet.refl _

theorem quiet_resolve (s : State) (a : BitVec 128) : Quiet s (s.resolve a) := by
  unfold State.resolve; dsimp only; split
  · exact Quiet.refl _
  · exact Quiet.trans (quiet_emit _ _) (quiet_modHost _ _)

theorem quiet_udp (s : State) (h : Head) (o : Output) : Quiet s (s.udp h o) := by
  unfold State.udp; split
  · exact Quiet.trans (quiet_resolve _ _) (quiet_emit _ _)
  · exact Quiet.refl _

theorem quiet_udps (s : State) (ds : List (Head × Output)) : Quiet s (s.udps ds) := quiet_foldl (fun (u : State) (d : Head × Output) => quiet_udp u d.1 d.2) _ _

theorem quiet_shakeNet (s : State) (kind : BitVec 8) (path : NetPath) (dst : BitVec 32) (nonce : BitVec 128) (o : Output) :
    Quiet s (s.shakeNet kind path dst nonce o) := by
  unfold State.shakeNet; split
  · exact quiet_udp _ _ _
  · exact Quiet.refl _

theorem quiet_setTx (s : State) (a : Assoc) (e : Epochs) : Quiet s (s.setTx a e) := quiet_modSec _ _
theorem quiet_through (s : State) (n : Nat) (urgent : Bool) (job len : Nat) : Quiet s (s.through n urgent job len) := by
  unfold State.through; exact quiet_modSec _ _

theorem quiet_keep (s : State) (a : Assoc) (e : Epochs) (ds : List (Head × Output)) : Quiet s (s.keep a e ds) := by
  unfold State.keep; split
  · exact ⟨rfl, rfl, rfl, rfl, rfl, rfl, rfl, rfl, rfl, rfl, rfl, rfl, rfl, rfl, rfl, rfl, id⟩
  · exact Quiet.refl _

theorem quiet_startShake (s : State) (kind page : Nat) (peer : BitVec 32) : Quiet s (startShake s kind page peer) := by
  unfold startShake; dsimp only
  exact Quiet.setFree (Quiet.trans (quiet_modSec s _) (quiet_shakeNet _ _ _ _ _ _)) _

theorem quiet_endAssocs (s : State) : Quiet s (endAssocs s) := by
  unfold endAssocs; dsimp only
  refine Quiet.trans (quiet_modSec s _) (quiet_foldl (fun u a => ?_) _ _)
  split
  · exact quiet_modHost _ _
  · split
    · exact quiet_startShake _ _ _ _
    · exact Quiet.refl _

/-- A message that leaves the host port changes keys, sessions, outputs and free values at most. -/
theorem quiet_sendBy (s : State) (by' : Assoc → Bool) (passes : Bool) (os : List Output) : Quiet s (s.sendBy by' passes os) := by
  unfold State.sendBy; split
  · exact Quiet.refl _
  · split
    · split
      · split
        · exact quiet_udps _ _
        · exact Quiet.refl _
      · dsimp only; split
        · exact Quiet.trans (quiet_setTx _ _ _) (quiet_endAssocs _)
        · exact Quiet.trans (Quiet.trans (Quiet.trans (quiet_setTx _ _ _) (quiet_through _ _ _ _ _)) (Quiet.trans (quiet_keep _ _ _ _) (quiet_udps _ _)))
            (quiet_endAssocs _)
    · exact quiet_udps _ _

theorem quiet_sendFor (s : State) (j : Nat) (o : Output) : Quiet s (s.sendFor j o) := quiet_sendBy _ _ _ _
theorem quiet_sendTo (s : State) (slot : Nat) (o : Output) : Quiet s (s.sendTo slot o) := quiet_sendBy _ _ _ _
theorem quiet_setSession (s : State) (slot : Nat) (x : Session) : Quiet s (s.setSession slot x) := quiet_modHost _ _

theorem quiet_sendNotice (s : State) (slot code job arg : Nat) : Quiet s (sendNotice s slot code job arg) := by
  unfold sendNotice; split
  · exact Quiet.refl _
  · split
    · exact Quiet.trans (quiet_setSession _ _ _) (quiet_sendTo _ _ _)
    · exact quiet_setSession _ _ _

/-- A notice to the sessions changes sessions, keys, outputs and free values at most. -/
theorem quiet_notify (s : State) (code job arg : Nat) : Quiet s (s.notify code job arg) := by
  refine quiet_foldl (fun u p => ?_) _ _
  split
  · exact quiet_sendNotice _ _ _ _ _
  · exact Quiet.refl _

theorem Quiet.ite_notify {s u : State} (h : Quiet s u) (c : Prop) [Decidable c] (code job arg : Nat) :
    Quiet s (if c then u.notify code job arg else u) := by
  split
  · exact h.trans (quiet_notify _ _ _ _)
  · exact h

theorem quiet_fltStatus (s : State) (cls source cause : Nat) : Quiet s (s.fltStatus cls source cause) := by
  unfold State.fltStatus; split
  · exact quiet_setReg _ _ _
  · exact Quiet.refl _

/-- A lantern entry changes FLT_STATUS, the log, and what a notice of it changes. -/
theorem quiet_logEntry (s : State) (cls source cause action jobs loc0 loc1 : Nat) (inj : Bool) (detail : Option Bytes) :
    Quiet s (logEntry s cls source cause action jobs loc0 loc1 inj detail) := by
  refine Quiet.trans (quiet_fltStatus s cls source cause) ?_
  unfold logEntry; dsimp only
  split
  · exact Quiet.refl _
  · have h (l : Lantern) (n : Nat) : Quiet (s.fltStatus cls source cause) { (s.fltStatus cls source cause) with lantern := l, free := n } :=
      ⟨rfl, rfl, rfl, rfl, rfl, rfl, rfl, rfl, rfl, rfl, rfl, rfl, rfl, rfl, rfl, rfl, id⟩
    exact (h _ _).ite_notify _ _ _ _

/-- Entering a device state changes the device state, and what notice 1 changes. -/
theorem enter_next (s : State) (d : DevState) : Quiet (s.setDev d) (s.enter d) := quiet_notify _ _ _ _

/-! ## The issue of a tile instruction -/

/-- A tile instruction always answers a next state. -/
theorem issue_total (op : Instr) (i : At) (s : State) (f : State → Issue) : ∃ u, issue op i s f = .next u := by
  unfold issue; split
  · dsimp only; split
    · exact ⟨_, rfl⟩
    · split
      · split
        · exact ⟨_, rfl⟩
        · exact ⟨_, rfl⟩
        · split <;> exact ⟨_, rfl⟩
        · exact ⟨_, rfl⟩
        · exact ⟨_, rfl⟩
      · exact ⟨_, rfl⟩
  · exact ⟨_, rfl⟩

/-- A context that may not issue leaves the state as it is. -/
theorem issue_held {op : Instr} {i : At} {s : State} {f : State → Issue} (h : mayIssue s i = false) : issue op i s f = .next s := by
  simp [issue, h]

/-- The high bits of an append are those of its high part. -/
theorem extract_high {a b : Nat} (x : BitVec a) (y : BitVec b) (n l : Nat) (h : b ≤ n) : (x ++ y).extractLsb' n l = x.extractLsb' (n - b) l := by
  apply BitVec.eq_of_getLsbD_eq; intro k hk
  simp only [BitVec.getLsbD_extractLsb', BitVec.getLsbD_append]
  rw [if_neg (by omega), show n + k - b = n - b + k by omega]

theorem extract_all {a : Nat} (x : BitVec a) : x.extractLsb' 0 a = x := by simp

/-! The opcode of a word is its top byte (R118). -/

theorem opcode_wordR (o : BitVec 8) (f : LayR) : (wordR o f).extractLsb' 120 8 = o := by
  simp only [wordR, extract_high, Nat.reduceLeDiff, Nat.reduceSub, extract_all]

theorem opcode_wordMM (o : BitVec 8) (f : LayMM) : (wordMM o f).extractLsb' 120 8 = o := by
  simp only [wordMM, extract_high, Nat.reduceLeDiff, Nat.reduceSub, extract_all]

theorem opcode_wordVC (o : BitVec 8) (f : LayVC) : (wordVC o f).extractLsb' 120 8 = o := by
  simp only [wordVC, extract_high, Nat.reduceLeDiff, Nat.reduceSub, extract_all]

/-- A word that stands for an instruction has a defined opcode. -/
theorem tileInstr_isSome {op : Instr} {w : IWord} (h : tileWord op = some w) (i : At) : (tileInstr i w).isSome = true := by
  cases op <;> first | (simp [tileWord] at h; done) | (obtain rfl := Option.some.inj h; simp only [tileInstr, opcode_wordR, opcode_wordMM, opcode_wordVC]; rfl)

theorem issue_reject {op : Instr} {i : At} {s : State} {f : State → Issue} {code : Nat} (h : Issues op s i) (hf : f s = .reject code) :
    issue op i s f = .next (rejectAt s i.tile i.ctx (s.ctxOf i).index code) := by
  simp [issue, h.may, h.word, Option.isNone_eq_false_iff.2 (tileInstr_isSome h.word i), hf, State.ctxOf]

/-- An instruction that is held leaves the state as it is, but that its tile has found it so. -/
theorem issue_hold {op : Instr} {i : At} {s : State} {f : State → Issue} (h : Issues op s i) (hf : f s = .hold) :
    issue op i s f = .next (s.modTile i.tile (fun x => { x with passed := addTo i.ctx x.passed })) := by
  simp [issue, h.may, h.word, Option.isNone_eq_false_iff.2 (tileInstr_isSome h.word i), hf]

/-- An instruction that takes effect moves its context to the next index; what follows of itself in the tile follows. -/
theorem issue_go {op : Instr} {i : At} {s u : State} {f : State → Issue} (h : Ready op s i) (hf : f s = .go u) :
    issue op i s f = .next (issuedAt (s.nextIndex i) u i) := by
  have h2 : ((s.tile i.tile).ctx i.ctx).index ≠ 4095 := h.inside
  simp [issue, h.may, h.word, Option.isNone_eq_false_iff.2 (tileInstr_isSome h.word i), hf, h2, issuedAt, State.nextIndex, State.ctxOf]

/-- At the last index the instruction is rejected with RANGE. -/
theorem issue_last {op : Instr} {i : At} {s u : State} {f : State → Issue} (h : Issues op s i) (hi : (s.ctxOf i).index = 4095) (hf : f s = .go u) :
    issue op i s f = .next (rejectAt s i.tile i.ctx 4095 rejRange) := by
  have h2 : ((s.tile i.tile).ctx i.ctx).index = 4095 := hi
  simp [issue, h.may, h.word, Option.isNone_eq_false_iff.2 (tileInstr_isSome h.word i), hf, h2]

/-- A word of an undefined opcode is rejected with OPCODE. -/
theorem issue_opcode {op : Instr} {i : At} {s : State} {f : State → Issue} (h : mayIssue s i = true) (hw : tileInstr i (s.fetched i) = none) :
    issue op i s f = .next (rejectAt s i.tile i.ctx (s.ctxOf i).index rejOpcode) := by
  simp [issue, h, hw, State.ctxOf]

/-! ## Scalar registers, predicates and events -/

theorem Ctx.sreg_zero (x : Ctx) : x.sreg 0 = 0 := rfl

theorem Ctx.setSreg_zero (x : Ctx) (v : Word) : x.setSreg 0 v = x := rfl

theorem Tile.pred_zero (t : Tile) : t.pred 0 = BitVec.allOnes 64 := rfl

@[simp] theorem Tile.ctx_modCtx_same (t : Tile) (c : Nat) (f : Ctx → Ctx) (h : c < 3) : (t.modCtx c f).ctx c = f (t.ctx c) := by
  obtain rfl | rfl | rfl : c = 0 ∨ c = 1 ∨ c = 2 := by omega
  all_goals rfl

theorem Tile.ctx_modCtx_other (t : Tile) {c d : Nat} (f : Ctx → Ctx) (hc : c < 3) (hd : d < 3) (h : d ≠ c) : (t.modCtx c f).ctx d = t.ctx d := by
  obtain rfl | rfl | rfl : c = 0 ∨ c = 1 ∨ c = 2 := by omega
  all_goals (obtain rfl | rfl | rfl : d = 0 ∨ d = 1 ∨ d = 2 := by omega)
  all_goals first | rfl | exact absurd rfl h

/-! ## The queue of commands -/

theorem step_front {s : State} {c : Instr} {rest : List Instr} (h : s.pending = c :: rest) : step s = exec c { s with pending := rest } := by
  unfold step; rw [h]

theorem step_idle {s : State} (h : s.pending = []) : step s = .next s := by
  unfold step; rw [h]

end Sys2Proof.Machine
end

