-- ==== Sys2Proof/Tests/Slice0.lean ====
section
/-! SUPPORT. Tests: for every statement with hypotheses a state and operands that meet them, clause by clause, and what the
command does there; operands that the checks refuse; words of tile instructions written from the spec's encodings. -/
namespace Sys2Proof.Tests
open Sys2Proof Sys2Proof.Machine
set_option Elab.async false

/-! ## Small states -/

/-- The outcome is a next state with a property. -/
def nextIs (r : Res) (f : State → Bool) : Bool :=
  match r with
  | .next u => f u
  | _ => false

/-- The outcome is this next state. -/
def goesTo (r : Res) (t : State) : Bool := nextIs r (fun u => decide (u = t))

/-- The device after reset, with a seed that can be read. -/
def plat0 : Plat := { Plat.reset with fuses := { Plat.reset.fuses with seed := 1 } }
def dev0 : State := { State.reset with plat := plat0 }

/-- A job of domain 0 on a single device, with an open attempt. -/
def jobA : Job :=
  { Job.reset with
    mask := 1, tag := 5, origin := ⟨0, 0, 0, 0⟩, extent := ⟨1, 1, 1, 1⟩, running := true, phase := .opened,
    att := { Attempt.reset with started := true } }

/-- The device in RUN with such a job. -/
def run0 : State := { dev0 with plat := { plat0 with dev := .run }, jobs := [(0, jobA)] }

/-- Tile 0 runs a frame; context 0 is at index 5 with 7 in s4 and 9 in s5. -/
def tile5 : Tile := { Tile.reset with busy := true, frame := 1, ctx0 := { Ctx.reset with run := .running, index := 5, regs := [(4, 7), (5, 9)] } }
def busy0 : State := { run0 with tiles := [(0, tile5)] }

def c0 : At := ⟨0, 0⟩
def c2 : At := ⟨0, 2⟩

/-- Fields of layout R, the others zero. -/
def layR (fa fb fc aux imm : Nat) : LayR :=
  ⟨BitVec.ofNat 5 fa, BitVec.ofNat 5 fb, BitVec.ofNat 5 fc, 0, 0, 0, BitVec.ofNat 26 aux, BitVec.ofNat 64 imm⟩

/-- An instruction stands at the index of its context (R118). -/
def put (i : At) (c : Instr) (s : State) : State :=
  match tileWord c with
  | some w => s.modTile i.tile (fun x => { x with imem := wrN x.imem (16 * (s.ctxOf i).index) (toLE 16 w.toNat) })
  | none => s

/-- The instruction is ready to issue. -/
def isReady (c : Instr) (i : At) (s : State) : Bool :=
  mayIssue s i && decide (tileWord c = some (s.fetched i)) && decide ((s.ctxOf i).index ≠ 4095)

theorem ready_of (c : Instr) (i : At) (s : State) (h : isReady c i s = true) : Ready c s i := by
  simp only [isReady, Bool.and_eq_true, decide_eq_true_eq] at h
  exact ⟨⟨h.1.1, h.1.2⟩, h.2⟩

/-- The instruction stands in memory, is ready, and issues into a state with a property; or into this state. -/
def ran (i : At) (c : Instr) (s : State) (f : State → Bool) : Bool := isReady c i (put i c s) && nextIs (exec c (put i c s)) f
def ranTo (i : At) (c : Instr) (s : State) (f : State → State) : Bool := ran i c s (fun u => decide (u = f (put i c s)))

/-! ## Scalar and control -/


/-- Table PRG-4 on 7 and 9, and on 7 and an immediate of -1 (all ones). -/
theorem test_alu_values :
    (aluRows.map (fun r => r.1 c0 (layR 3 4 5 0 0))).zip [16, 2 ^ 64 - 2, 63, 1, 15, 14, 3584, 0, 0, 1, 1] |>.all
      (fun p => ran c0 p.1 busy0 (fun u => (u.sreg c0 3).toNat = p.2 && (u.ctxOf c0).index = 6)) := by decide +kernel
theorem test_alu_immediate :
    (aluRows.map (fun r => r.1 c0 (layR 3 4 0 1 (2 ^ 64 - 1)))).zip
        [6, 8, 2 ^ 64 - 7, 7, 2 ^ 64 - 1, 2 ^ 64 - 8, 7 * 2 ^ 63 % 2 ^ 64, 0, 0, 0, 1] |>.all
      (fun p => ran c0 p.1 busy0 (fun u => (u.sreg c0 3).toNat = p.2 && (u.ctxOf c0).index = 6)) := by decide +kernel
theorem test_sra_negative : ran c0 (.sra c0 (layR 3 6 0 1 4)) (busy0.putSreg c0 6 (BitVec.ofInt 64 (-32)))
    (fun u => u.sreg c0 3 = BitVec.ofInt 64 (-2)) := by decide +kernel
theorem witness_ScalarOperations :
    unusedZero (layR 3 4 5 0 0) { a := true, b := true, c := true, aux := 1 } = true ∧ busy0.sregBusy c0 [3, 4, 5] = false ∧
    unusedZero (layR 3 4 0 1 5) { a := true, b := true, aux := 1, imm := immAll } = true ∧ busy0.sregBusy c0 [3, 4] = false ∧
    aluRows.all (fun r =>
      ranTo c0 (r.1 c0 (layR 3 4 5 0 0)) busy0 (fun s => (issuedAt 6 (s.putSreg c0 3 (r.2 7 9)) c0)) &&
      ranTo c0 (r.1 c0 (layR 3 4 0 1 5)) busy0 (fun s => (issuedAt 6 (s.putSreg c0 3 (r.2 7 5)) c0))) = true := by decide +kernel
theorem witness_ScalarRegisterZero : keysAbove 0 tile5.ctx0.regs = true ∧ (tile5.ctx0.setSreg 0 3).sreg 0 = 0 ∧
    (tile5.ctx0.setSreg 31 3).sreg 31 = 3 ∧ (tile5.ctx0.setSreg 31 3).sreg 4 = 7 := by decide +kernel

theorem witness_nop : unusedZero (layR 0 0 0 0 0) {} = true ∧ ranTo c0 (.nop c0 (layR 0 0 0 0 0)) busy0 (fun s => (issuedAt 6 s c0)) = true := by
  decide +kernel
theorem witness_rdinfo : unusedZero (layR 3 0 0 0 5) { a := true, imm := immAll } = true ∧ busy0.sregBusy c0 [3] = false ∧
    ([(0, 0), (1, 0), (2, 0), (3, 0), (4, 0), (5, 0)]).all (fun p =>
      ran c0 (.rdinfo c0 (layR 3 0 0 0 p.1)) busy0 (fun u => (u.sreg c0 3).toNat = p.2)) = true ∧
    ran c0 (.rdinfo c0 (layR 3 0 0 0 6)) busy0 (fun u => (u.tile 0).rejected) = true := by decide +kernel
theorem witness_pset : unusedZero (layR 0 4 0 7 0) { b := true, aux := 7 } = true ∧ busy0.predBusy 0 7 = false ∧
    busy0.sregBusy c0 [4] = false ∧
    ran c0 (.pset c0 (layR 0 4 0 7 0)) busy0 (fun u => (u.tile 0).pred 7 = 7) = true ∧
    ran c0 (.pset c0 (layR 0 4 0 0 0)) busy0 (fun u => (u.tile 0).pred 0 = BitVec.allOnes 64) = true := by decide +kernel
theorem witness_pget : unusedZero (layR 3 0 0 1 0) { a := true, aux := 7 } = true ∧ busy0.predBusy 0 1 = false ∧
    ran c0 (.pget c0 (layR 3 0 0 1 0)) busy0 (fun u => u.sreg c0 3 = 0) = true ∧
    ran c0 (.pget c0 (layR 3 0 0 0 0)) busy0 (fun u => u.sreg c0 3 = BitVec.allOnes 64) = true := by decide +kernel

/-- BR by 10 and by -5 (to index 0), not taken, and out of the memory. -/
theorem witness_br : mayIssue busy0 c0 = true ∧
    unusedZero (layR 0 4 5 3 10) { b := true, c := true, aux := 7, imm := immAll } = true ∧
    ([(0, true), (1, false), (2, true), (3, true), (4, false), (5, true), (6, false)]).all (fun p =>
      ran c0 (.br c0 (layR 0 (if p.1 = 0 then 0 else 4) (if p.1 = 0 then 0 else 5) p.1 10)) busy0
        (fun u => (u.ctxOf c0).index = if p.2 then 15 else 6)) = true ∧
    ran c0 (.br c0 (layR 0 0 0 0 (2 ^ 64 - 5))) busy0 (fun u => (u.ctxOf c0).index = 0) = true ∧
    ran c0 (.br c0 (layR 0 0 0 0 4090)) busy0 (fun u => (u.ctxOf c0).index = 4095) = true ∧
    ran c0 (.br c0 (layR 0 0 0 0 4091)) busy0 (fun u => (u.tile 0).rejected && u.fld TILE_STATUS_rej_code 0 = 5) = true ∧
    ran c0 (.br c0 (layR 0 0 0 7 1)) busy0 (fun u => (u.tile 0).rejected) = true := by decide +kernel
theorem witness_fend : unusedZero (layR 0 0 0 0 0xFFF) { imm := 0xFFF } = true ∧ (busy0.tile 0).syncDone 0 = true ∧
    ran c0 (.fend c0 (layR 0 0 0 0 0xFFF)) busy0
      (fun u => (u.ctxOf c0).next = 4095 && (u.ctxOf c0).run = .ended && !(u.tile 0).busy) = true := by decide +kernel
theorem witness_UnusedFieldRejected : unusedZero (layR 1 0 0 0 0) {} = false ∧
    ran c0 (.nop c0 (layR 1 0 0 0 0)) busy0 (fun u => (u.tile 0).rejected && u.fld TILE_STATUS_rej_code 0 = 1 &&
      u.fld TILE_STATUS_rej_index 0 = 5 && u.fld TILE_STATUS_rej_ctx 0 = 0 && (u.job 0).phase = .aborting && !(u.tile 0).busy) = true := by
  decide +kernel
def lastIndex : State := { run0 with tiles := [(0, { tile5 with ctx0 := { tile5.ctx0 with index := 4095 } })] }
theorem witness_LastIndexRejected : mayIssue lastIndex c0 = true ∧ (lastIndex.ctxOf c0).index = 4095 ∧
    goesTo (exec (.nop c0 (layR 0 0 0 0 0)) (put c0 (.nop c0 (layR 0 0 0 0 0)) lastIndex)) (rejectAt (put c0 (.nop c0 (layR 0 0 0 0 0)) lastIndex) 0 0 4095 5) = true := by decide +kernel
theorem witness_NothingIssuesWhenHeld : mayIssue run0 c0 = false ∧ goesTo (exec (.add c0 (layR 3 4 5 0 0)) run0) run0 = true := by
  decide +kernel
theorem witness_IssueFrame : busy0.partsWf = true ∧ (busy0.job 0).phase ≠ .aborting ∧ (busy0.job 0).phase ≠ .repairing ∧
    busy0.jobOfTile 0 = some 0 ∧ ((issuedAt 6 busy0 c0).tile 0).ctx0.regs = tile5.ctx0.regs := by decide +kernel


/-! ## Loads and stores -/

/-- Tile 0 with bytes 1, 2, 3, 0x84 at scratchpad 64 and register v1 starting with 11, 12; s4 is 7. -/
def tileM : Tile := { tile5 with spad := [(64, 1), (65, 2), (66, 3), (67, 0x84)], vrf := [(256, 11), (257, 12)] }
def busyM : State := { run0 with tiles := [(0, tileM)] }

/-- What a completion makes of a load or store just issued. -/
def lsThen (c : Instr) (s : State) (f : State → Bool) : Bool :=
  ran c0 c s (fun u => nextIs (exec (.loadStoreComplete 0 0 4096) u) f)

/-- Register v63 and the last 256 bytes of the scratchpad: the whole access lies inside. -/
def lsTop : LayR := layR 0 0 0 (63 + 2 ^ 12 * 255) (262144 - 256)
theorem witness_WideLoads_top :
    unusedZero lsTop { b := true, aux := lsAux, imm := immAll } = true ∧ busyM.sregBusy c0 [lsTop.fb] = false ∧
    256 * lsReg lsTop + lsLen lsTop ≤ 16384 ∧ effAddr (busyM.sreg c0 lsTop.fb) lsTop.imm + lsLen lsTop ≤ 262144 ∧
    busyM.writable 0 [(lsReg lsTop, regsOf (lsLen lsTop))] = true ∧ busyM.readable 0 [(lsReg lsTop, regsOf (lsLen lsTop))] = true ∧
    ranTo c0 (.ld c0 lsTop) busyM (fun s => (issuedAt 6 (s.putLs c0 (.ld 261888 16128 256) (0, 0) [] false false) c0)) = true ∧
    ranTo c0 (.st c0 lsTop) busyM (fun s => (issuedAt 6 (s.putLs c0 (.st 261888 (List.replicate 256 0) 2048) (0, 0) [] false false) c0)) = true := by
  decide +kernel
/-- LD of four bytes at 57 + s4 into v2; ST of two bytes of v1 to scratchpad 100. -/
theorem test_ld_st :
    lsThen (.ld c0 (layR 0 4 0 (2 + 2 ^ 12 * 3) 57)) busyM (fun u => rdN (u.tile 0).vrf 510 8 = [0, 0, 1, 2, 3, 0x84, 0, 0] && (u.tile 0).ls.isEmpty) = true ∧
    lsThen (.st c0 (layR 0 0 0 (1 + 2 ^ 12 * 1) 65)) busyM (fun u => rdN (u.tile 0).spad 64 4 = [1, 11, 12, 0x84]) = true := by decide +kernel
/-- LDT of 16 rows of 16 elements, pitch 7: row 0 element 0 is at 64, row 0 element 1 at 66. -/
def ldtF : LayR := layR 0 0 4 (2 + 2 ^ 12 * 511) 64
theorem witness_WideLoads_ldt :
    unusedZero ldtF { b := true, c := true, aux := lsAux, imm := immAll } = true ∧ busyM.sregBusy c0 [ldtF.fb, ldtF.fc] = false ∧
    lsLen ldtF % 512 = 0 ∧ (List.range 16).all (fun r => decide ((64 + r * 7) % 2 ^ 64 + lsLen ldtF / 16 ≤ 262144)) = true ∧
    ranTo c0 (.ldt c0 ldtF) busyM (fun s => (issuedAt 6 (s.putLs c0 (.ldt 64 7 512 16) (0, 0) [] false false) c0)) = true ∧
    lsThen (.ldt c0 ldtF) { run0 with tiles := [(0, { tileM with spad := [(64, 1), (65, 2), (66, 3), (67, 4), (71, 5)] })] } (fun u => rdN (u.tile 0).vrf 512 4 = [1, 2, 5, 0] && rdN (u.tile 0).vrf 544 4 = [3, 4, 0, 0]) = true := by
  decide +kernel

/-- LDS and STS of each size at the top of the scratchpad; LDS sign-extends on bit 2. -/
theorem witness_ScalarLoads :
    ([0, 1, 2, 3]).all (fun k =>
      let a := 262144 - 2 ^ k
      unusedZero (layR 3 0 0 (k + 4) a) { a := true, b := true, aux := 7, imm := immAll } &&
      unusedZero (layR 0 0 4 k a) { b := true, c := true, aux := 3, imm := immAll } &&
      ranTo c0 (.lds c0 (layR 3 0 0 (k + 4) a)) busyM (fun s => (issuedAt 6 (s.putLs c0 (.lds a (2 ^ k) true 3) (0, 0) [] false false) c0)) &&
      ranTo c0 (.sts c0 (layR 0 0 4 k a)) busyM (fun s => (issuedAt 6 (s.putLs c0 (.st a (toLE (2 ^ k) 7) (8 * 2 ^ k)) (0, 0) [] false false) c0))) = true ∧
    busyM.sregBusy c0 [3, 0] = false := by decide +kernel
theorem test_lds :
    lsThen (.lds c0 (layR 3 0 0 6 64)) busyM (fun u => u.sreg c0 3 = BitVec.ofInt 64 (0x84030201 - 2 ^ 32)) = true ∧
    lsThen (.lds c0 (layR 3 0 0 2 64)) busyM (fun u => u.sreg c0 3 = 0x84030201) = true ∧
    lsThen (.sts c0 (layR 0 0 4 1 64)) busyM (fun u => rdN (u.tile 0).spad 64 4 = [7, 0, 3, 0x84]) = true := by decide +kernel
theorem witness_ScalarLoads_vdl :
    unusedZero (layR 0 0 0 31 (262144 - 32)) { b := true, aux := 31, imm := immAll } = true ∧ (busyM.tile 0).vcs = [] ∧
    ranTo c0 (.vdl c0 (layR 0 0 0 31 (262144 - 32))) busyM (fun s => (issuedAt 6 (s.putLs c0 (.vdl 262112 31) (0, 0) [] false false) c0)) = true ∧
    lsThen (.vdl c0 (layR 0 0 0 31 64)) busyM (fun u => look (u.tile 0).descs 31 0 = 0x84030201) = true := by decide +kernel

/-- STC of one accumulator, exact 1 in W48 (2^24), as FP32 to scratchpad 64; with tag 2 and no scale. -/
def stcF : LayR := { layR 0 0 0 (1 + 2 ^ 8 * 0 + 2 ^ 12 * 2 + 2 ^ 14 * 0) 64 with fd := 0 }
theorem witness_StoreConverted :
    unusedZero stcF { b := true, c := true, d := true, e := true, f := false, aux := 0x3FFFF3F, imm := 0x1FFFFFFFFF } = true ∧
    auxBits stcF 12 13 ≠ 3 ∧ auxBits stcF 8 11 < 9 ∧ busyM.sregBusy c0 [0, 0, 0, 0, 0] = false ∧
    busyM.readable 0 [(1, 1)] = true ∧
    lsThen (.stc c0 stcF) busyM (fun u => (u.tile 0).ls.isEmpty && (u.tile 0).vrf = tileM.vrf) = true := by decide +kernel
theorem witness_StoreConverted_scaled :
    let f : LayR := layR 0 0 0 (63 + 2 ^ 8 * 4 + 2 ^ 12 * 1 + 2 ^ 14 * 31) (2 ^ 36)
    scalingOk 4 .tensor = true ∧ busyM.readable 0 [(63, 1)] = true ∧ 256 * 63 + 8 * 32 ≤ 16384 ∧
    ran c0 (.stc c0 f) busyM (fun u => (u.tile 0).ls.map (fun l => (l.holds, decide (l.tensors.length = 1))) = [((63, 1), true)]) = true := by
  decide +kernel

theorem witness_LoadStoreEffects : busyM.partsWf = true ∧ (busyM.tile 0).wf = true ∧
    ran c0 (.ld c0 lsTop) busyM (fun u => decide ((u.tile 0).ls.length = 1) && (u.tile 0).wf && u.partsWf &&
      u.blocksRun) = true := by decide +kernel
/-- An ST of four bytes over the line boundary at 128 is two accesses: granted one by one, its halves become visible one by one (R48). -/
theorem test_halves : ran c0 (.st c0 (layR 0 0 0 (1 + 2 ^ 12 * 3) 126)) busyM (fun u =>
    (u.tile 0).ls.map (fun l => (l.kind.accesses.length, l.granted)) = [(2, 0)] &&
    nextIs (exec (.loadStoreComplete 0 0 1) u) (fun v => (v.tile 0).ls.map (·.granted) = [1] && rdN (v.tile 0).spad 126 4 = [11, 12, 0, 0] &&
      !(v.tile 0).ls.isEmpty && nextIs (exec (.loadStoreComplete 0 0 1) v) (fun w => (w.tile 0).ls.isEmpty && (w.tile 0).spad.length = 6))) = true := by
  decide +kernel

theorem witness_RangesRejected :
    ([.ld c0 (layR 0 0 0 (63 + 2 ^ 12 * 256) 0), .st c0 (layR 0 0 0 (2 ^ 12 * 255) 261889),
      .ld c0 (layR 0 0 0 0 (2 ^ 64 - 1))] : List Instr).all (fun c =>
        ran c0 c busyM (fun u => u.fld TILE_STATUS_rej_code 0 = 5 && (u.tile 0).rejected)) = true ∧
    ran c0 (.vdl c0 (layR 0 0 0 0 1)) busyM (fun u => u.fld TILE_STATUS_rej_code 0 = 6) = true ∧
    ranTo c0 (.vdl c0 (layR 0 0 0 0 262111)) busyM (fun s => (rejectAt s 0 0 5 6)) = true := by decide +kernel


/-! ## Matrix and vector -/

/-- BF16 3.0 at S(0, 0) and 5.0 at S(0, 1) of array 0, in v0; BF16 2.0 as element 0 of the streamed row, in v4. -/
def tileX : Tile := { tile5 with vrf := [(0, 0x40), (1, 0x40), (2, 0xA0), (3, 0x40), (1025, 0x40)] }
def busyX : State := { run0 with tiles := [(0, tileX)] }
/-- MMW on array 0: BF16 by BF16, one row, into v8 and v9. -/
def mmF : LayMM :=
  { arrays := 1, sfmt := 6, xfmt := 6, sbase := 0, xbase := 4, dbase := 8, dcount := 1, rows := 0, rowmask := 0xFFFF, colmask := 0xFFFF,
    acc := 0, xsrc := 0, xaddr := 0, smx := 0, xmx := 0, sscale := 0, xscale := 0, rsv := 0 }
/-- The instruction issued, streamed and complete. -/
def mmThen (c : Instr) (s : State) (f : State → Bool) : Bool :=
  ran c0 c s (fun u => nextIs (exec (.mmStreamStart 0) u) (fun v => nextIs (exec (.mmComplete 0 4096) v) f))
/-- 6.0 and 10.0 in W48: bias 1023 and a 36-bit fraction (R64). -/
def six : Nat := 1025 * 2 ^ 36 + 2 ^ 35
def ten : Nat := 1026 * 2 ^ 36 + 2 ^ 34
theorem test_mmw_values : mmThen (.mmw c0 mmF) busyX (fun u =>
    leNat (rdN (u.tile 0).vrf 2048 8) = six && leNat (rdN (u.tile 0).vrf 2056 8) = ten && (u.tile 0).mms.isEmpty) = true := by decide +kernel
theorem test_mmf_values : mmThen (.mmf c0 mmF) busyX (fun u =>
    leNat (rdN (u.tile 0).vrf 2048 8) = six && leNat (rdN (u.tile 0).vrf 2056 8) = 0) = true := by decide +kernel
/-- MMD: elementwise on 16 elements; A in v4, B in v0. Only element 0 of A is not zero. -/
theorem test_mmd_values : mmThen (.mmd c0 mmF) busyX (fun u =>
    leNat (rdN (u.tile 0).vrf 2048 8) = six && leNat (rdN (u.tile 0).vrf 2056 8) = 0) = true := by decide +kernel
theorem witness_MatrixIssue : mmRowsOf.all (fun r =>
      (mmReject r.2 mmF (busyX.kl5 0) 0).isNone && !busyX.sregBusy c0 [mmF.xaddr] && (tileX.mms.all (·.streaming)) &&
      busyX.readable 0 ((mmSpans r.2 mmF).map (fun p => (p.1, regsOf p.2))) && busyX.writable 0 [(8, 2)] &&
      ran c0 (r.1 c0 mmF) busyX (fun u => (u.tile 0).mms.map (fun m => (m.op, m.index, m.kind, m.streaming)) = [(0, 5, r.2, false)] &&
        (u.tile 0).opNext = 1 && (u.ctxOf c0).index = 6)) = true := by decide +kernel
/-- Rejections of Table PRG-7: reserved format, INT8 with BF16, no array; KL5-EXACT with FP4. -/
def kl5State : State := busyX.setFld NUM_CTRL_determinism 2 0
theorem witness_MatrixRejected : mmUnusedZero .warp mmF = true ∧ kl5State.kl5 0 = true ∧ mayIssue kl5State c0 = true ∧
    ([({ mmF with sfmt := 10 }, 2), ({ mmF with xfmt := 15 }, 2), ({ mmF with sfmt := 5 }, 3), ({ mmF with xfmt := 9 }, 3),
      ({ mmF with arrays := 0 }, 5)] : List (LayMM × Nat)).all (fun p => mmRowsOf.all (fun r =>
        ranTo c0 (r.1 c0 p.1) busyX (fun s => (rejectAt s 0 0 5 p.2)))) = true ∧
    ([{ mmF with sfmt := 2 }, { mmF with xfmt := 9 }, { mmF with smx := 1 }, { mmF with xmx := 1 }] : List LayMM).all (fun l =>
      mmRowsOf.all (fun r => ranTo c0 (r.1 c0 l) kl5State (fun s => (rejectAt s 0 0 5 4)))) = true := by decide +kernel
def mmQueued : State := match exec (.mmw c0 mmF) (put c0 (.mmw c0 mmF) busyX) with
  | .next u => u
  | _ => busyX
def mmRuns : State := match exec (.mmStreamStart 0) mmQueued with
  | .next u => u
  | _ => busyX
theorem witness_MatrixStreams : mmQueued.partsWf = true ∧ ((mmQueued.tile 0).mms.find? (fun x => !x.streaming)).isSome = true ∧
    mmRuns.partsWf = true ∧ ((mmRuns.tile 0).mms.find? (·.streaming)).isSome = true ∧ (mmRuns.tile 0).vrf = tileX.vrf ∧
    ((mmRuns.tile 0).mms.all (fun m => (endStream 0 false (mmRuns.tile 0) m).result.bytes.all (fun p => decide (2048 ≤ p.1) && decide (p.1 < 2560)))) = true := by decide +kernel
/-- A change of axis waits for what streams (R40). -/
theorem test_mm_breaks : ran c0 (.mmf c0 { mmF with dbase := 12 }) mmRuns (fun u => goesTo (exec (.mmStreamStart 0) u) u) = true := by
  decide +kernel

/-- A chain of one FMA stage in FP32 lanes: A × (+1) + B, 16 elements a row. -/
def chain1 : Nat :=
  2 ^ 253 + 2 * 2 ^ 251 + 8 * 2 ^ 247 + 8 * 2 ^ 240 + 8 * 2 ^ 233 + 8 * 2 ^ 226 + 4 * 2 ^ 222 + (2 ^ 33 + 2 ^ 30 + 7 * 2 ^ 27 + 2 * 2 ^ 24)
/-- A chain of one CMPSEL stage that writes A < B to p1. -/
def chain2 : Nat :=
  2 ^ 253 + 2 * 2 ^ 251 + 8 * 2 ^ 247 + 8 * 2 ^ 240 + 8 * 2 ^ 233 + 8 * 2 ^ 226 + 4 * 2 ^ 222 +
    (3 * 2 ^ 33 + 2 ^ 30 + 2 * 2 ^ 27 + 6 * 2 ^ 24 + 2 * 2 ^ 13 + (2 ^ 8 + 1) * 2 ^ 4)
/-- 1.0 in element 0 of v0 (A), 2.0 in element 0 of v1 (B). -/
def tileV : Tile := { tile5 with vrf := [(2, 0x80), (3, 0x3F), (259, 0x40)], descs := [(0, BitVec.ofNat 256 chain1), (31, BitVec.ofNat 256 chain2)] }
def busyV : State := { run0 with tiles := [(0, tileV)] }
def vcF (slot : BitVec 5) : LayVC :=
  { slot := slot, abase := 0, bbase := 1, cbase := 2, dbase := 3, n := 15, pred := 0, k0 := 0, k1 := 0, tid := 0, e0 := 0, g := 0, rsv := 0 }
def vcThen (c : Instr) (s : State) (f : State → Bool) : Bool :=
  ran c0 c s (fun u => nextIs (exec (.vcStart 0) u) (fun v => nextIs (exec (.vcComplete 0) v) f))
theorem test_vcr_fma : vcThen (.vcr c0 (vcF 0)) busyV (fun u => leNat (rdN (u.tile 0).vrf 768 4) = 0x40400000 && (u.tile 0).vcs.isEmpty &&
    leNat (rdN (u.tile 0).vrf 772 4) = 0) = true := by decide +kernel
theorem test_vcr_predicate : vcThen (.vcr c0 (vcF 31)) busyV (fun u => (u.tile 0).pred 1 = 1 && (u.tile 0).pred 0 = BitVec.allOnes 64) = true := by
  decide +kernel
theorem witness_VectorIssue :
    ([0, 31] : List (BitVec 5)).all (fun k =>
      let h := chainOf (look tileV.descs k.toNat 0).toNat
      (vcReject (vcF k) h).isNone && tileV.ls.isEmpty && !busyV.sregBusy c0 (h.scalars (vcF k)) &&
      busyV.readable 0 ((vcSpans h (vcF k)).map (fun p => (p.1, regsOf ((p.2 + 7) / 8)))) &&
      busyV.writable 0 [(3, regsOf ((resultBits h (vcN (vcF k)) + 7) / 8))] && h.predsOut.all (fun p => !busyV.predBusy 0 p) &&
      ran c0 (.vcr c0 (vcF k)) busyV (fun u => decide ((u.tile 0).vcs.length = 1) && decide ((u.ctxOf c0).index = 6))) = true := by
  decide +kernel
theorem witness_VectorRuns : ran c0 (.vcr c0 (vcF 31)) busyV (fun u => u.partsWf && ((u.tile 0).vcs.find? (fun x => !x.streaming)).isSome &&
    nextIs (exec (.vcStart 0) u) (fun v => v.partsWf && (v.tile 0).wf && (v.tile 0).vrf = tileV.vrf &&
      (v.tile 0).vcs.map (fun o => o.result.preds.map (fun p => (p.1, p.2.1.toNat, p.2.2.toNat % 2))) = [[(1, 0xFFFF, 1)]])) = true := by decide +kernel

/-- A load while the array's instruction waits goes to the shadow registers, and the swap comes with its stream (R31, R32). -/
theorem test_shadow : mmQueued.blocksRun = true ∧ look (mmQueued.tile 0).live 0 Stat.reset ≠ Stat.reset ∧ look (mmRuns.tile 0).shadow 0 none = none ∧
    ran c0 (.mmw c0 { mmF with dbase := 12, sbase := 16 }) mmRuns (fun u =>
      (look (u.tile 0).shadow 0 none).isSome && look (u.tile 0).live 0 Stat.reset = look (mmRuns.tile 0).live 0 Stat.reset &&
      nextIs (exec (.mmStreamStart 0) u) (fun v => (look (v.tile 0).shadow 0 none).isNone &&
        some (look (v.tile 0).live 0 Stat.reset) = look (u.tile 0).shadow 0 none)) = true := by decide +kernel
/-- A stream of two rows from the scratchpad takes its accesses one by one (R48, R52). -/
theorem test_mm_fed : ran c0 (.mmw c0 { mmF with xsrc := 1, xbase := 0, rows := 1 }) busyX (fun u =>
    nextIs (exec (.mmStreamStart 0) u) (fun v => (v.tile 0).mms.map (fun m => decide (0 < m.unfed.length)) = [true] &&
      nextIs (exec (.mmComplete 0 0) v) (fun w => (w.tile 0).mms.length = 1) &&
      nextIs (exec (.mmComplete 0 4096) v) (fun w => (w.tile 0).mms.isEmpty))) = true := by decide +kernel

/-- SGD with momentum and Lion on w = 1, b = m = 2, e = 0.5, g = 3, with every constant 0.5: by hand, b = 4, w = 3.5 and e = 2;
and u = 2.5 of sign 1, m = 2.5, w = 2 and e = 1.25. -/
theorem test_programs :
    let f (w m e g : Nat) : UpdVar → List XVal
      | .w => [fp32 w]
      | .m => [fp32 m]
      | .e => [fp32 e]
      | .g => [fp32 g]
      | _ => []
    let env := f 0x3F800000 0x40000000 0x3F000000 0x40400000
    let out (p : List UpdStep) (x : UpdVar) := (runUpdate (fun _ => 0x3F000000) 1 2 3 0 1 false p env x).map fmtFP32.rne
    ([UpdVar.newM, .newW, .newE].map (out (sgdmProgram 8)) = [[0x40800000], [0x40600000], [0x40000000]]) ∧
    ([UpdVar.newM, .newW, .newE].map (out (lionProgram 8)) = [[0x40200000], [0x40000000], [0x3FA00000]]) := by decide +kernel


/-! ## Transfers, events and barriers -/

/-- DIN of one row of 64 bytes from DRAM address 128 to scratchpad 0; event 3: s6 = 128, s7 = 64. -/
def tileD : Tile := { tile5 with ctx0 := { tile5.ctx0 with regs := [(4, 7), (5, 9), (6, 128), (7, 64), (8, 0x20000000000)] }, spad := [(0, 33)] }
def busyD : State := { run0 with tiles := [(0, tileD)], dram := [(128, 1), (191, 2), (192, 3)] }
def dinF : LayR := layR 0 6 7 (3 * 32) 0
theorem witness_TransferIssue_din :
    busyD.sregBusy c0 [dinF.fa, dinF.fb, dinF.fc, dinF.fd, dinF.fe] = false ∧
    unusedZero dinF { a := true, b := true, c := true, d := true, e := true, aux := 0x3FFFFE3 } = true ∧
    dmaReject (busyD.job 0).mask.toNat 0 (dmaOf false c0 dinF busyD) = none ∧ (dmasOf (busyD.tile 0) false).length < 16 ∧
    ran c0 (.din c0 dinF) busyD (fun u => (u.tile 0).asyncs.map (fun a => (a.index, a.event, a.done)) = [(5, 3, 0)] && (u.ctxOf c0).index = 6 &&
      nextIs (exec (.dmaComplete 0 (((u.tile 0).asyncs.map (·.id)).getD 0 0) 4096) u) (fun v => (v.tile 0).asyncs.isEmpty && (v.tile 0).event 3 = 1 &&
        (v.tile 0).spad = [(0, 1), (63, 2)] && v.dram = busyD.dram)) = true := by decide +kernel
/-- Into the instruction memory: aux[0], all three a multiple of 16. -/
theorem test_din_imem : ran c0 (.din c0 (layR 0 6 7 1 0)) busyD (fun u =>
    nextIs (exec (.dmaComplete 0 (((u.tile 0).asyncs.map (·.id)).getD 0 0) 4096) u) (fun v => rdN (v.tile 0).imem 0 64 = 1 :: List.replicate 62 0 ++ [2] && (v.tile 0).spad = [(0, 33)])) = true := by
  decide +kernel
theorem witness_TransferIssue_dout :
    unusedZero dinF { a := true, b := true, c := true, d := true, e := true, aux := 0x3FFFFE2 } = true ∧
    dmaReject (busyD.job 0).mask.toNat 0 (dmaOf true c0 dinF busyD) = none ∧ (dmasOf (busyD.tile 0) true).length < 16 ∧
    ran c0 (.dout c0 dinF) busyD (fun u =>
      nextIs (exec (.dmaComplete 0 (((u.tile 0).asyncs.map (·.id)).getD 0 0) 4096) u) (fun v => (v.tile 0).asyncs.isEmpty &&
        v.dram = [(128, 33), (192, 3)])) = true := by decide +kernel
/-- A codec DOUT of a block of 128 bytes: slot 2 in bits 63:60 of s_len. -/
def tileK (slot : Nat) : Tile := { tileD with ctx0 := { tileD.ctx0 with regs := [(6, 128), (7, BitVec.ofNat 64 (slot * 2 ^ 60 + 128))] } }
def busyK (st : SlotState) : State :=
  ({ busyD with
    jobs := [(0, { jobA with slots := if st = SlotState.free then [] else [(2, { CodeSlot.reset with st := st })] })],
    tiles := [(0, tileK 2)] }).setFld MEM_CODEC_CFG_mode 1 0
theorem witness_TransferIssue_codec :
    let f := layR 0 6 7 (3 * 32 + 2) 0
    ([SlotState.held, .free]).all (fun st => (dmaReject 1 1 (dmaOf true c0 f (busyK st))).isNone && (busyK st).fld MEM_CODEC_CFG_mode 0 = 1) = true ∧
    ran c0 (.dout c0 f) (busyK .held) (fun u => ((u.job 0).slot 2).queued = 1 && (u.tile 0).asyncs.map (fun a => match a.kind with
      | .dma d => d.blocks
      | _ => 9) = [1]) = true ∧
    ran c0 (.dout c0 f) (busyK .free) (fun u => ((u.job 0).slot 2).queued = 0 && (u.tile 0).asyncs.length = 1) = true := by decide +kernel
/-- A DOUT in flight to a device queue. -/
def dmaQ (k : Nat) : Async :=
  { id := 4, ctx := 0, index := 5, kind := .dma { out := true, spad := 0, mem := BitVec.ofNat 64 (queueBase + 0x1000 * k), len := 64, mpitch := 0, spitch := 0, rows := 1, codec := false, imem := false, blocks := 0 },
    event := 3, done := 0, status := 0, part := 0, buf := [] }
def queueS (full : Bool) (k : Nat) : State :=
  let d : Desc := ⟨1, 0, 0, []⟩
  let l := if full then List.replicate 256 d else []
  { busyD with tiles := [(0, { tileD with asyncs := [dmaQ k] })], domains := if full then [(0, { Domain.reset with lookupQ := l, appendQ := l, codecQ := l })] else [] }
theorem witness_QueueEntry : ([0, 1, 2]).all (fun k =>
    !(queueS true k).halted ((queueS true k).phys 0) && (queueS true k).jobOfTile 0 = some 0 && (queueS false k).partsWf && (queueS true k).partsWf &&
    nextIs (exec (.queueRoom 0 4) (queueS true k)) (fun u => u.dom 0 = (queueS true k).dom 0 && (u.tile 0).asyncs.map (·.id) = [4]) &&
    [Instr.queueRoom 0 4, .dmaComplete 0 4 1].all (fun c => nextIs (exec c (queueS false k)) (fun u =>
      (u.dom 0).queue k = [⟨0, 0, 5, 33 :: List.replicate 63 0⟩] && (u.tile 0).asyncs.isEmpty))) = true := by decide +kernel

/-- PUT of 64 bytes at 128 to address 0 of device 1; the rings have two devices, the links of port 0 and 1 are up. -/
def netS (up : Bool) : State :=
  let s := ({ busyD with
    tiles := [(0, { tileD with ctx0 := { tileD.ctx0 with regs := [(6, 128), (7, 64), (8, BitVec.ofNat 64 (2 ^ 42))] } })],
    jobs := [(0, { jobA with extent := ⟨2, 1, 1, 1⟩ })] }).setFld FAB_COORD_dims (2 + 128 * 1 + 128 ^ 2 * 1 + 128 ^ 3 * 1)
  if up then (s.modPort 0 (fun p => { p with st := .up })).modPort 1 (fun p => { p with st := .up }) else s
/-- The same with an address of device 2, which the slice does not hold. -/
def far : State := (netS true).putSreg c0 8 (BitVec.ofNat 64 (2 * 2 ^ 42))
theorem witness_PutGetIssue :
    let f := layR 6 8 7 (2 + 4 * 31) 0
    let s := netS true
    unusedZero f { a := true, b := true, c := true, aux := 0x7F } = true ∧ inJob 1 128 64 = true ∧ far.noRoute 0 (2 * 2 ^ 42) 64 = true ∧ far.sregBusy c0 [6, 8, 7] = false ∧
    s.noRoute 0 (2 ^ 42) 64 = false ∧ s.sregBusy c0 [6, 8, 7] = false ∧
    ran c0 (.put c0 f) far (fun u => (u.tile 0).event 31 = 1 && (u.tile 0).asyncs.isEmpty && (u.ctxOf c0).index = 6) = true ∧
    ran c0 (.put c0 f) s (fun u => u.router.xfers.map (fun y => (y.dst.toNat, y.len, y.get, y.cls, y.data.getD 0 0, y.data.getD 63 0)) = [(1, 64, false, 2, 1, 2)] &&
      (u.tile 0).asyncs.length = 1 && u.out.length = 1) = true ∧
    ran c0 (.get c0 f) s (fun u => u.router.xfers.map (fun y => (y.dst.toNat, y.len, y.get, y.dstAddr.toNat, y.srcAddr.toNat)) = [(1, 64, true, 128, 0)]) = true := by
  decide +kernel
/-- A length of 1 passes, 0 and one more than 64 MiB are rejected. -/
theorem test_put_lengths : ([(0, true), (1, false), (2 ^ 26 + 1, true)]).all (fun p =>
    ran c0 (.put c0 (layR 6 8 7 2 0)) ((netS false).putSreg c0 7 (BitVec.ofNat 64 p.1)) (fun u => (u.tile 0).rejected = p.2)) = true := by decide +kernel

/-! ## Events, fences, barriers -/

theorem witness_Events :
    unusedZero (layR 0 4 0 31 0) { b := true, aux := 0x3F } = true ∧ unusedZero (layR 0 0 0 63 7) { aux := 0x3F, imm := 0xFFFFFFFF } = true ∧
    unusedZero (layR 0 0 0 255 0) { aux := 0xFF } = true ∧
    ([layR 0 4 0 31 0, layR 0 0 0 63 7]).all (fun f =>
      ran c0 (.evset c0 f) busy0 (fun u => (u.tile 0).event 31 = 7) && ran c0 (.evadd c0 f) busy0 (fun u => (u.tile 0).event 31 = 7) &&
      ran c0 (.wait c0 f) busy0 (fun u => (u.ctxOf c0).run = .wait 31 7 && (u.ctxOf c0).index = 6)) = true ∧
    ran c0 (.fence c0 (layR 0 0 0 255 0)) busy0 (fun u => (u.ctxOf c0).run = .running && (u.ctxOf c0).index = 6) = true := by decide +kernel
/-- EVADD after an LD of the context in flight counts once the LD is complete (R131). -/
theorem test_evadd_order : ran c0 (.evadd c0 (layR 0 0 0 33 1)) (busyM.putLs c0 (.ld 0 0 1) (0, 0) [] false false) (fun u => (u.tile 0).event 1 = 0 &&
    nextIs (exec (.loadStoreComplete 0 0 4096) u) (fun v => (v.tile 0).event 1 = 1)) = true := by decide +kernel
/-- A wait for -1 is met at 0, a wait for 1 and one for 2^31 are not. -/
def waiting (r : CtxRun) : Tile := { tile5 with ctx0 := { tile5.ctx0 with run := r }, asyncs := [dmaQ 0] }
theorem witness_WaitsResume :
    ((((waiting (.wait 3 0xFFFFFFFF)).resume 0).ctx 0).run = .running) ∧ (((waiting (.wait 3 1)).resume 0).ctx 0).run = .wait 3 1 ∧
    (((waiting (.wait 3 0x80000000)).resume 0).ctx 0).run = .wait 3 0x80000000 ∧ (((waiting (.fence 0)).resume 0).ctx 0).run = .running ∧
    (((waiting (.fence 2)).resume 0).ctx 0).run = .fence 2 ∧ (((waiting (.fence 0xFD)).resume 0).ctx 0).run = .running := by decide +kernel

/-- Barrier 15 with counts 1 and 3072, with one context there already, and with a count that does not agree. -/
def barS (g : Nat × Nat) : State := { busy0 with jobs := [(0, { jobA with barriers := if g = (0, 0) then [] else [(15, g)] })] }
theorem witness_Barriers :
    unusedZero (layR 0 0 0 (15 + 32) 2) { aux := 0x2F, imm := 0xFFFFFFFF } = true ∧ unusedZero (layR 0 4 0 15 0) { b := true, aux := 0x2F } = true ∧
    ran c0 (.sync c0 (layR 0 0 0 (15 + 32) 3072)) (barS (0, 0)) (fun u => (u.ctxOf c0).run = .sync 15 && (u.job 0).barriers = [(15, (3072, 1))]) = true ∧
    ran c0 (.sync c0 (layR 0 0 0 (15 + 32) 1)) (barS (0, 0)) (fun u => (u.ctxOf c0).run = .running && (u.job 0).barriers = []) = true ∧
    ran c0 (.sync c0 (layR 0 4 0 15 0)) (barS (0, 0)) (fun u => (u.job 0).barriers = [(15, (7, 1))]) = true ∧
    ran c0 (.sync c0 (layR 0 0 0 (15 + 32) 2)) (barS (2, 1)) (fun u => (u.ctxOf c0).run = .running && (u.job 0).barriers = []) = true ∧
    ran c0 (.sync c0 (layR 0 0 0 (15 + 32) 3)) (barS (2, 1)) (fun u => u.fld TILE_STATUS_rej_code 0 = 12) = true := by decide +kernel


/-! ## Collective and step instructions -/

/-- Tile 0 is the only lead tile; context 2 runs at index 5. Step 1,024 is being computed, rounds are of 512 steps. -/
def onlyLead (s : State) : State := (((s.setReg 0x4080 1).setReg 0x4088 0).setReg 0x4090 0).setReg 0x4098 0
def lead0 : State :=
  let x : Tile := { Tile.reset with busy := true, frame := 1, ctx2 := { Ctx.reset with run := .running, index := 5, regs := [(4, 1024), (5, 1), (6, 33)] } }
  ((onlyLead { run0 with tiles := [(0, x)], jobs := [(0, { jobA with dxe := { Dxe.reset with sealedNext := 2 } })] }).setFld TILE_CTX_CTRL_enable 1 2).setFld
    STEP_NUMBER_step 1024 0
def dxeOn : State := lead0.setFld DXE_CTRL_enable 1 0
theorem witness_StepInstructions :
    lead0.isLead 0 = true ∧ lead0.jobAt c2 = 0 ∧ dxeOn.closable 0 = some 1 ∧ (dxeOn.job 0).dxe.closed ≠ some 1 ∧
    unusedZero (layR 3 4 0 0 0) { a := true, b := true } = true ∧ unusedZero (layR 0 4 0 255 0) { b := true, aux := 0xFF } = true ∧
    unusedZero (layR 0 5 0 31 0) { b := true, aux := 0x1F } = true ∧ unusedZero (layR 3 0 0 0 2) { a := true, imm := immAll } = true ∧
    ran c2 (.scommit c2 (layR 3 4 0 0 0)) lead0 (fun u => (u.ctxOf c2).run = .scommit 3 && (u.ctxOf c2).index = 6) = true ∧
    ran c2 (.sabort c2 (layR 0 4 0 255 0)) lead0 (fun u => (u.job 0).phase = .aborting &&
      (u.job 0).att.reason.map (fun r => (r.1.toNat, r.2.1.toNat)) = some (4, 255)) = true ∧
    ran c2 (.dclose c2 (layR 0 5 0 31 0)) lead0 (fun u => (u.tile 0).event 31 = 1 && (u.tile 0).asyncs.isEmpty) = true ∧
    ran c2 (.dclose c2 (layR 0 5 0 31 0)) dxeOn (fun u => (u.job 0).att.dcloses = [0] && (u.tile 0).asyncs.length = 1) = true ∧
    ([(0, 2), (1, 1), (2, 0)]).all (fun p => ran c2 (.dstat c2 (layR 3 0 0 0 p.1)) lead0 (fun u => (u.sreg c2 3).toNat = p.2)) = true := by
  decide +kernel
theorem witness_StepInstructionsRejected : mayIssue lead0 c2 = true ∧ (lead0.sreg c2 6).toNat ≠ lead0.step 0 ∧
    ([Instr.scommit c2 (layR 3 6 0 0 0), .sabort c2 (layR 0 6 0 1 0)]).all (fun c => ranTo c2 c lead0 (fun s => (rejectAt s 0 2 5 11))) = true := by
  decide +kernel
theorem test_dclose_round : ran c2 (.dclose c2 (layR 0 4 0 0 0)) dxeOn (fun u => u.fld TILE_STATUS_rej_code 0 = 11) = true := by decide +kernel
theorem witness_StepClassContext : mayIssue busy0 c0 = true ∧
    ([Instr.scommit c0 (layR 3 4 0 0 0), .sabort c0 (layR 0 4 0 0 0), .dclose c0 (layR 0 4 0 0 0), .dstat c0 (layR 3 0 0 0 0)]).all (fun c =>
      ranTo c0 c busy0 (fun s => (rejectAt s 0 0 5 9))) = true := by decide +kernel

/-- CEFENCE of epoch 9 with nothing launched; CLAUNCH of 64 bytes FP32 all-reduce, and of a length that is no multiple of 4. -/
theorem witness_CollectiveInstructions :
    unusedZero (layR 0 5 0 0 0) { b := true } = true ∧
    ran c0 (.cefence c0 (layR 0 5 0 0 0)) busy0 (fun u => (u.ctxOf c0).run = .running && (u.ctxOf c0).index = 6) = true ∧
    (let f : LayR := { layR 6 8 7 (2 + 4 * 8 + 64 * 0 + 1024 * 31) 0 with fd := 4, fe := 0 }
     let s := busyD.putSreg c0 8 4096
     unusedZero f { a := true, b := true, c := true, d := true, e := true, aux := 0x7FFF } = true ∧ auxBits f 2 5 < 10 ∧
     ran c0 (.claunch c0 f) s (fun u => (u.job 0).colls.map (fun c => [c.cid.toNat, c.op.toNat, c.fmt.toNat, c.src, c.dst, c.len]) = [[7, 2, 8, 128, 4096, 64]] &&
       (u.tile 0).asyncs.length = 1) = true ∧
     ran c0 (.claunch c0 f) (s.putSreg c0 7 62) (fun u => (u.job 0).colls = [] && u.fld CXE_STATUS_err 0 = 1 && (u.tile 0).event 31 = 1) = true) := by
  decide +kernel
theorem witness_dclose_closed : let s := dxeOn.modJob 0 (fun x => { x with dxe := { x.dxe with closed := some 1 } })
    (s.job 0).dxe.liveReading = false ∧ s.closable 0 = some 1 ∧
    ran c2 (.dclose c2 (layR 0 5 0 31 0)) s (fun u => (u.tile 0).event 31 = 1 && (u.tile 0).asyncs.isEmpty) = true := by decide +kernel


/-! ## The training step -/

/-- The first order of Table ARC-2 has passed; tile 0 is idle with context 0 enabled. -/
def tickS : State :=
  ({ run0 with clock := { Clock.reset with order := 5, ticking := true }, tiles := [(0, { Tile.reset with ctx0 := { Ctx.reset with next := 9, regs := [(4, 7)] } })] }).setFld
    TICK_COUNT_count 3
theorem witness_FrameStarts : tickS.jobOfTile 0 = some 0 ∧ mayStart tickS 0 0 = true ∧ (tickS.job 0).att.started = true ∧ tickS.partsWf = true ∧
    nextIs (exec (.frameStart 0) tickS) (fun u => (u.tile 0).busy && (u.tile 0).frame = 1 && (u.tile 0).lastStart = 3 && (u.tile 0).ctx0.index = 9 &&
      (u.tile 0).ctx0.run = .running && (u.tile 0).ctx1.run = .idle && (u.tile 0).ctx0.regs = [(4, 7)] && u.jobs = tickS.jobs && u.regs = tickS.regs) = true := by
  decide +kernel

/-- Context 2 of the lead tile waits in SCOMMIT. -/
def voteS : State :=
  (onlyLead { run0 with jobs := [(0, { jobA with led := { jobA.led with contributors := 1 } })], tiles := [(0, { Tile.reset with frame := 1, busy := true, ctx2 := { Ctx.reset with run := .scommit 3 } })] }).setFld TILE_CTX_CTRL_enable 1 2 |>.setFld FAB_COORD_dims (1 + 128 * 1 + 128 ^ 2 * 1 + 128 ^ 3 * 1)
theorem witness_VoteSends : voteReady voteS 0 = true ∧ voteS.partsWf = true ∧ voteS.dueReports 0 = [] ∧ (voteS.job 0).att.sent = false ∧
    nextIs (exec (.voteSend 0) voteS) (fun u => (u.job 0).phase = .voting && (u.job 0).att.voted && (u.job 0).att.sent && u.out.length = 1 &&
      u.tiles = voteS.tiles && u.regs = voteS.regs) = true := by decide +kernel

def phaseS (p : Phase) : State := { run0 with jobs := [(0, { jobA with phase := p })] }
theorem witness_AbortsBegin : ((run0.job 0).att.started = true ∧ (run0.job 0).att.reason = none ∧ run0.regsWf = true) ∧
    ([Phase.opened, .voting]).all (fun p => (phaseS p).partsWf && nextIs (exec (.hostAbort 0) (phaseS p)) (fun u => (u.job 0).phase = .aborting &&
      u.reg 0x6030 % 256 = 13 && (u.job 0).att.reason.map (·.1) = some 13)) = true ∧
    nextIs (exec (.voteTimeout 0 [1]) (phaseS .voting)) (fun u => (u.job 0).phase = .aborting && u.reg 0x6030 % 256 = 12) = true ∧
    goesTo (exec (.hostAbort 0) (phaseS .committing)) (phaseS .committing) = true := by decide +kernel

def abortS : State := ({ run0 with jobs := [(0, { jobA with phase := .aborting, glog := [] })] }).setFld STEP_CTRL_max_attempts 2 0
theorem witness_AttemptReopens : jobQuiet abortS 0 = true ∧ abortS.plat.dev = .run ∧ (abortS.job 0).att.damage = [] ∧
    (abortS.job 0).attemptNo + 1 < abortS.fld STEP_CTRL_max_attempts 0 ∧ abortS.partsWf = true ∧ abortS.regsWf = true ∧
    (abortS.job 0).running = true ∧ (abortS.job 0).phase = .aborting ∧ (abortS.job 0).att.stopNext = false := by decide +kernel

def lastStep : State := (phaseS .voting).setFld STEP_NUMBER_step (2 ^ 64 - 1) 0
def dec1 : Decision := { tag := lastStep.attTag 0 0, rejoin := none, number := 1, group := 0, divisor := 0, bucket := 0, veto := 0, flags := 0, origin := 77, norm := 0 }
theorem witness_VoteDecides_carried : (lastStep.partsWf && lastStep.regsWf && refusal lastStep 0 dec1 = 0 &&
    nextIs (exec (.decideVote 0 dec1) lastStep) (fun u => u.step 0 = 0 && (u.job 0).attemptNo = 0 && (u.job 0).ledgerSeq = 1 && (u.job 0).phase = .opened)) = true := by
  decide +kernel
theorem witness_VoteDecides_refused : refusal lastStep 0 { dec1 with veto := 13 } ≠ 0 ∧
    nextIs (exec (.decideVote 0 { dec1 with veto := 13 }) lastStep) (fun u => u.step 0 = 2 ^ 64 - 1 && (u.job 0).phase = .aborting &&
      (u.job 0).att.reason.map (fun r => (r.1.toNat, r.2.2.toNat)) = some (13, 77)) = true := by decide +kernel
theorem witness_VoteRefusals : refusal run0 0 dec1 = 0 ∧ refusal run0 0 { dec1 with flags := 1 } = 1 ∧ refusal run0 0 { dec1 with flags := 2 } = 2 ∧
    refusal run0 0 { dec1 with veto := 4 } = 4 ∧ refusal run0 0 { dec1 with veto := 4, flags := 1 } = 1 ∧
    normMeets 0x4000000000000000 0x3F800000 = false ∧ normMeets 0x3FF0000000000000 0x3F800000 = true ∧
    refusal (run0.setFld STEP_CTRL_norm_limit 0x3F800000 0) 0 { dec1 with norm := 0x4000000000000000 } = 3 := by decide +kernel

theorem witness_LiveReadEnds :
    let a : Async := { id := 0, ctx := 2, index := 5, kind := .dclose 1, event := 3, done := 0, status := 0, part := 0, buf := [] }
    let s : State := { lead0 with jobs := [(0, { jobA with dxe := { Dxe.reset with liveReading := true } })], tiles := [(0, { tile5 with asyncs := [a] })] }
    s.halted blkDxe = false ∧ s.partsWf = true ∧ (s.job 0).att.commitHeld = false ∧
    nextIs (exec (.liveReadDone 0) s) (fun u => !(u.job 0).dxe.liveReading && (u.tile 0).asyncs.isEmpty && (u.tile 0).event 3 = 1) = true := by decide +kernel

def repairS : State := { run0 with jobs := [(0, { jobA with phase := .repairing, att := { Attempt.reset with damage := [64] } })], ue := [64] }
theorem witness_Repairs : repairS.partsWf = true ∧ 64 ∈ (repairS.job 0).att.damage ∧
    nextIs (exec (.peerRepairDone 0 64 (List.replicate 64 9)) repairS) (fun u => (u.job 0).att.damage = [] && (u.job 0).phase = .opened &&
      rd u.dram 64 = 9 && rd u.dram 127 = 9 && rd u.dram 128 = 0) = true := by decide +kernel

/-- A region of one page-sized live copy in the table of the job. -/
def withRegion (s : State) : State :=
  s.setMem (s.tableBase 0) (Region.bytes { live := 0x800000, pend := 0x801000, size := 2048, kind := 0, flags := 0, rsv := 0, last := 0 })
def replaceS : State :=
  withRegion { run0 with jobs := [(0, { jobA with phase := .repairing, dig := { Digests.reset with replacing := [0] } })] }
theorem witness_Repairs_region : replaceS.partsWf = true ∧ ((replaceS.regions 0)[0]?).map (·.size) = some 2048 ∧ 0 ∈ (replaceS.job 0).dig.replacing ∧
    (List.replicate 2048 (1 : Byte)).length = 2048 := by decide +kernel

/-- A job over two devices in two groups of one. -/
def twoS : State := ({ run0 with jobs := [(0, { jobA with extent := ⟨2, 1, 1, 1⟩ })] }.setFld FAB_COORD_dims (2 + 128 * 1 + 128 ^ 2 * 1 + 128 ^ 3 * 1)).setFld CXE_CTRL_d_dims 1 0
def digS (own : BitVec 256) (peers : List (Nat × Nat × BitVec 256)) (open_ : List Nat) : State :=
  twoS.modJob 0 (fun x => { x with dig := { x.dig with kept := [(3, own)], peers := peers, open_ := open_ } })
theorem witness_DigestsCompare : (digS 8 [] [3]).otherGroups 0 = [1] ∧ (digS 8 [] [3]).partsWf = true ∧ 3 ∈ ((digS 8 [] [3]).job 0).dig.open_ ∧
    nextIs (exec (.digestReceive 0 1 3 8) (digS 8 [] [])) (fun u => (u.job 0).dig.peers = [(1, 3, 8)]) = true ∧
    nextIs (exec (.digestReceive 0 1 3 8) (digS 8 [] [3])) (fun u => (u.job 0).dig.open_ = [] && (u.job 0).led.flags = 2) = true ∧
    nextIs (exec (.digestReceive 0 1 3 9) (digS 8 [] [3])) (fun u => (u.job 0).dig.open_ = [3] && (u.job 0).led.flags = 4 && (u.job 0).led.mismatches = 1) = true := by
  decide +kernel
theorem witness_DigestRereads_two : digestsHeld (digS 8 [(1, 3, 9)] [3]) 0 3 = some [8, 9] ∧ majorDigest [(8 : BitVec 256), 9] = none ∧
    nextIs (exec (.digestRereadDone 0 3 8 [(1, true)]) (digS 8 [(1, 3, 9)] [3])) (fun u => (u.job 0).phase = .aborting && (u.job 0).att.fault) = true := by decide +kernel
/-- Three groups, of which the other two agree. -/
def threeS : State :=
  (((digS 8 [(1, 3, 9), (2, 3, 9)] [3]).modJob 0 (fun x => { x with extent := ⟨3, 1, 1, 1⟩ })).setFld FAB_COORD_dims (3 + 128 * 1 + 128 ^ 2 * 1 + 128 ^ 3 * 1))
theorem witness_DigestRereads_majority : digestsHeld threeS 0 3 = some [8, 9, 9] ∧ majorDigest [(8 : BitVec 256), 9, 9] = some 9 ∧
    nextIs (exec (.digestRereadDone 0 3 8 []) threeS) (fun u => (u.job 0).dig.replacing = [3] && (u.job 0).att.reason.map (·.1) = some 10) = true := by
  decide +kernel
theorem witness_Rejoin : run0.partsWf = true ∧ run0.regsWf = true ∧
    nextIs (exec (.rejoin 0) run0) (fun u => u.fld STEP_CTRL_rejoin 0 = 1 && (u.job 0).att.rejoinDue) = true ∧
    (let s : State := { run0 with jobs := [(0, { jobA with phase := .repairing, rejoining := [0], excludedGroups := [0, 3], att := { Attempt.reset with rejoinDue := true } })] }
     let s' : State := { run0 with jobs := [(0, { jobA with phase := .repairing, rejoining := [0], excludedGroups := [0, 3] })] }
     s.partsWf = true ∧ s.fld DXE_CTRL_enable 0 = 0 ∧ s.ownGroup 0 = 0 ∧ s'.partsWf = true ∧
     nextIs (exec (.rejoinCopyDone 0 5 7 [] [] true) s') (fun u => (u.job 0).rejoining = [] && (u.job 0).excludedGroups = [3] && (u.job 0).phase = .opened) = true ∧
     nextIs (exec (.rejoinCopyDone 0 0xFFFFFFFFFFFFFFFF 7 [(64, [1])] [(3, 9)] false) s) (fun u => (u.job 0).dig.kept = [(3, 9)] && !(u.job 0).att.rejoinDue && u.step 0 = 2 ^ 64 - 1 && u.fld CXE_EPOCH_epoch 0 = 7 &&
       rd u.dram 64 = 1 && (u.job 0).phase = .repairing) = true) := by decide +kernel
theorem witness_EpochAdvance : run0.regions 0 = [] ∧ nextIs (exec (.epochAdvance 0) run0) (fun u => u.fld CXE_EPOCH_epoch 0 = 1) = true ∧
    (replaceS.regions 0).length = 1 ∧ goesTo (exec (.epochAdvance 0) replaceS) replaceS = true := by decide +kernel


/-! ## Collectives, seals, votes -/

theorem witness_PartsCoverRange : partOf (3, 20) 4 0 = (3, 7) ∧ partOf (3, 20) 4 3 = (15, 20) ∧ partOf (3, 3) 4 2 = (3, 3) ∧ partOf (3, 20) 1 0 = (3, 20) := by
  decide +kernel

/-- A job over a ring of two devices in X and one group, and an FP32 all-reduce of two elements over it. -/
def ringJob : Job := { jobA with extent := ⟨2, 1, 1, 1⟩, led := { Ledger.reset with contributors := 1 } }
def coll1 : Coll :=
  { cid := 7, tile := 0, async := 4, op := 2, fmt := 8, dims := 1, src := 128, dst := 4096, len := 8, root := 0, bucket := false, bucketNo := 0,
    epoch := 0, step := 0, attempt := 0, phase := .waiting, run := 0, err := false, reported := false, readies := [], asked := [], seen := [], due := [],
    inbox := [], work := [], rings := [], norm := 0, nonFinite := false }
/-- 1.0 and 2.0 at 128. -/
def ringS (cs : List Coll) : State :=
  let up (s : State) : State := (s.modPort 0 (fun p => { p with st := .up })).modPort 1 (fun p => { p with st := .up })
  up <| ({ run0 with
    jobs := [(0, { ringJob with colls := cs })], dram := [(130, 0x80), (131, 0x3F), (135, 0x40)],
    tiles := [(0, { tile5 with asyncs := [{ id := 4, ctx := 0, index := 5, kind := .launch, event := 3, done := 0, status := 0, part := 0, buf := [] }] })] }).setFld FAB_COORD_dims
      (2 + 128 * 1 + 128 ^ 2 * 1 + 128 ^ 3 * 1)
def collNow (s : State) : Coll := ((s.job 0).coll 7).getD coll1
/-- Started, with the partner's READY. -/
def ringRuns : State := match exec (.collectiveStart 0 7) (ringS [{ coll1 with readies := [1] }]) with
  | .next u => u
  | _ => run0
def readyP : ColPacket :=
  { jobTag := 5, src := 1, dst := 0, cid := 7, chunk := 0, step := 0, epoch := 0, attempt := 0, contributor := 0, dim := 0, gather := false, minus := false,
    part := 0, run := 0, fmt := 0, payload := [] }
theorem witness_CollectivesStart :
    let s := ringS [coll1]
    s.halted blkCxe = false ∧ s.partsWf = true ∧ ((s.job 0).coll 7) = some coll1 ∧ s.neighbours 0 coll1 = [1] ∧ s.jobOfTag 5 = some 0 ∧
    nextIs (exec (.collectiveStart 0 7) s) (fun u => (collNow u).phase = .inFlight && u.out.any (fun o => match o with
      | .frame 0 _ (.data k) => decide (k.op.toNat = opReady) && decide (k.dst = 1)
      | _ => false)) = true ∧
    nextIs (exec (.ready readyP coll1.readyBody) s) (fun u => (u.job 0).readyEarly.length = 1) = true ∧
    nextIs (exec (.ready { readyP with cid := 8 } coll1.readyBody) s) (fun u => (u.job 0).readyEarly.length = 1) = true := by decide +kernel
def ringStarted : State := match exec (.collectiveStart 0 7) (ringS [coll1]) with
  | .next u => u
  | _ => run0
theorem witness_CollectivesStart_ready : (collNow ringStarted).phase = .inFlight ∧ (collNow ringStarted).tagged readyP = true ∧
    (collNow ringStarted).due.length = 1 ∧
    nextIs (exec (.ready readyP (collNow ringStarted).readyBody) ringStarted) (fun u => (collNow u).due.isEmpty && (collNow u).readies = [1] &&
      u.out.length = ringStarted.out.length + 1) = true ∧
    nextIs (exec (.ready readyP { (collNow ringStarted).readyBody with len := 9 }) ringStarted) (fun u => (collNow u).phase = .done && (collNow u).err &&
      (u.tile 0).asyncs.isEmpty) = true := by decide +kernel
/-- The partner's chunk of part 0 (element 0): 3.0, sent on + by device 1; then its gather chunk of part 1: 9.0. -/
def chunkP : ColPacket := { readyP with contributor := 1, fmt := 8, payload := [0, 0, 0x40, 0x40] }
theorem witness_ChunksCount : ringRuns.halted blkCxe = false ∧ ringRuns.partsWf = true ∧ ringRuns.jobOfTag 5 = some 0 ∧
    (collNow ringRuns).phase = .inFlight ∧ ringRuns.expectedPart 0 (collNow ringRuns) chunkP = some 0 ∧
    nextIs (exec (.chunk { chunkP with step := 1 }) ringRuns) (fun u => u.fld CXE_STATUS_discarded 0 = 1) = true ∧
    nextIs (exec (.chunk { chunkP with attempt := 1 }) ringRuns) (fun u => u.fld CXE_STATUS_discarded 0 = 1) = true ∧
    nextIs (exec (.chunk { chunkP with cid := 9 }) ringRuns) (fun u => u.fld CXE_STATUS_discarded 0 = 1) = true ∧
    nextIs (exec (.chunk chunkP) ringRuns) (fun u => (collNow u).seen = [(0, false, false, 0, 0)] && u.fld CXE_STATUS_discarded 0 = 0 &&
      (collNow u).work.head? = some 0x40800000 && nextIs (exec (.chunk chunkP) u) (fun v => v.fld CXE_STATUS_discarded 0 = 1)) = true := by decide +kernel
/-- Both phases: the sum 4.0 here, 9.0 from the partner; the result lands at 4096 and the event counts. -/
theorem test_allreduce : nextIs (exec (.chunk chunkP) ringRuns) (fun u =>
    nextIs (exec (.chunk { chunkP with gather := true, part := 1, payload := [0, 0, 0x10, 0x41] }) u) (fun v => (collNow v).phase = .reduced &&
      nextIs (exec (.collectiveDone 0 7) v) (fun w => (collNow w).phase = .done && rdN w.dram 4096 8 = [0, 0, 0x80, 0x40, 0, 0, 0x10, 0x41] &&
        (w.tile 0).event 3 = 1 && (w.tile 0).asyncs.isEmpty))) = true := by decide +kernel
def reducedC (bucket : Bool) : Coll := { coll1 with phase := .reduced, bucket := bucket, work := [0x40800000, 0x41100000] }
theorem witness_CollectivesEnd :
    let s := ringS [reducedC false]
    s.halted blkCxe = false ∧ ((s.job 0).coll 7).map (·.phase) = some .reduced ∧
    (s.writeAt 0 4096 (wirePack 4 (reducedC false).work)).2.1 = 0 ∧ (s.writeAt 0 4096 (wirePack 4 (reducedC false).work)).2.2 = [] ∧
    nextIs (exec (.collectiveDone 0 7) s) (fun u => (collNow u).phase = .done) = true ∧
    nextIs (exec (.collectiveDone 0 7) (ringS [reducedC true])) (fun u => rd u.dram 4098 = 0x80) = true := by decide +kernel

def rep1 : Report := { sender := 1, tag := (ringS []).attTag 0 0, rejoin := none, applied := 0, bucket := 0, veto := 0, flags := 0, origin := 0, norm := 0 }
def decR : Decision := { dec1 with tag := (ringS []).attTag 0 0 }
def sealC : Coll := { coll1 with bucket := true, phase := .sealing, norm := 0x3FF0000000000000, nonFinite := true }
theorem witness_BucketsSeal_report :
    let s := ringS [sealC]
    s.partsWf = true ∧ s.isCoordinator 0 = true ∧ s.dueReports 0 = [(1, 0)] ∧ ((s.job 0).unreported 0).isSome = true ∧ (s.job 0).sealedNext = 0 ∧
    nextIs (exec (.reportSeal 0 rep1) s) (fun u => (u.job 0).sealReports = [(0, 1)] && (u.job 0).sealedNext = 1 && u.out.any (fun o => match o with
      | .packet k => decide (k.op.toNat = opDecide)
      | _ => false)) = true := by decide +kernel
theorem witness_BucketsSeal_decision :
    (ringS [sealC]).partsWf = true ∧
    nextIs (exec (.decideSeal 0 { decR with number := 1 }) (ringS [sealC])) (fun u => (u.job 0).att.decided = 1 && (u.job 0).sealedNext = 1 &&
      (u.job 0).att.normPart = 0x3FF0000000000000 && (u.job 0).att.gradNf && (u.tile 0).asyncs.isEmpty && (u.tile 0).event 3 = 1) = true := by decide +kernel

theorem witness_VotesCombine :
    (combineVote { rep1 with veto := 9, origin := 5 } { rep1 with veto := 9, origin := 3 }).veto = 9 ∧
    (combineVote { rep1 with veto := 9, origin := 5 } { rep1 with veto := 9, origin := 3 }).origin = 3 ∧
    (combineVote { rep1 with veto := 255 } { rep1 with veto := 1 }).veto = 1 ∧ (combineVote rep1 { rep1 with veto := 1 }).veto = 1 ∧
    (combineVote { rep1 with flags := 5, norm := 0x3FF0000000000000 } { rep1 with flags := 6, norm := 0x3FF0000000000000 }).flags = 7 ∧
    (combineVote { rep1 with norm := 0x3FF0000000000000 } { rep1 with norm := 0x3FF0000000000000 }).norm = 0x4000000000000000 := by decide +kernel
theorem witness_ReportsArrive :
    let s := ringS []
    s.partsWf = true ∧ s.regsWf = true ∧
    nextIs (exec (.reportVote 0 rep1) s) (fun u => (u.job 0).att.votes = [rep1] && u.tiles = s.tiles) = true ∧
    nextIs (exec (.reportVote 0 { rep1 with veto := 13, origin := 1 }) s) (fun u => (u.job 0).phase = .aborting && u.out.length = 2 &&
      (u.job 0).att.reason = some (13, 0, 1)) = true ∧
    (let g := s.modAtt 0 (fun a => { a with gathering := true })
     let held : List (Fin 4 × Decision) := [(1, { decR with number := 3 })]
     s.isCoordinator 0 = true ∧ s.liveDev 0 1 = true ∧
     nextIs (exec (.reportApplied 0 { rep1 with sender := 9 } held) g) (fun u => (u.job 0).att.gathering && (u.job 0).att.applied.length = 1 &&
       (u.job 0).att.decisions.map (·.1) = [3]) = true ∧
     nextIs (exec (.reportVote 0 { rep1 with rejoin := some 0 }) s) (fun u => (u.job 0).rejoinAsked = [1]) = true ∧
     nextIs (exec (.reportApplied 0 rep1 []) g) (fun u => !(u.job 0).att.gathering) = true) := by decide +kernel
/-- Three groups in a ring; this device is of group 0. -/
def groupsS : State :=
  ((run0.modJob 0 (fun x => { x with extent := ⟨3, 1, 1, 1⟩, led := { x.led with contributors := 7 } })).setFld FAB_COORD_dims
    (3 + 128 * 1 + 128 ^ 2 * 1 + 128 ^ 3 * 1)).setFld CXE_CTRL_d_dims 1 0
theorem witness_GroupsExcluded : groupsS.partsWf = true ∧ groupsS.ownGroup 0 = 0 ∧ groupsS.svc.paused = false ∧
    nextIs (exec (.decideExclude 0 decR) groupsS) (fun u => (u.job 0).phase = .aborting) = true ∧
    nextIs (exec (.decideExclude 0 { decR with group := 2, divisor := 2, bucket := 4 }) groupsS) (fun u => (u.job 0).led.exclusions = [(2, 4)] &&
      (u.job 0).divisors = [(4, 2)] && (u.job 0).excludedGroups = [2] && u.tiles = groupsS.tiles) = true ∧
    nextIs (exec (.decideExclude 0 { decR with group := 2 }) (groupsS.setFld STEP_CTRL_min_groups 3 0)) (fun u => (u.job 0).phase = .aborting && (u.job 0).att.fault) = true ∧
    nextIs (exec (.decideExclude 0 { decR with group := 2 }) ((groupsS.setFld STEP_CTRL_min_groups 3 0).modAtt 0 (fun a => { a with started := false })))
      (fun u => !(u.job 0).running && (u.job 0).phase = .stopped) = true := by
  decide +kernel
theorem test_other_attempts : let later := { rep1 with tag := { rep1.tag with attempt := 1 } }
    let earlier := { rep1 with tag := { rep1.tag with attempt := 0xFFFF } }
    (ringS []).tagOrder 0 later.tag = .gt ∧ (ringS []).tagOrder 0 earlier.tag = .lt ∧
    nextIs (exec (.reportSeal 0 later) (ringS [])) (fun u => (u.job 0).early = [.reportSeal 0 later] && (u.job 0).sealReports = []) = true ∧
    goesTo (exec (.reportSeal 0 earlier) (ringS [])) (ringS []) = true := by decide +kernel


/-! ## Supplies, the configuration image, the boot chain, TRAIN -/

def off0 : State := { dev0 with plat := { plat0 with dev := .off } }
theorem witness_PowerAndReset :
    nextIs (exec (.powerOn true) off0) (fun u => u.plat.dev = .reset && !u.plat.resetLow) = true ∧
    nextIs (exec (.powerOn false) off0) (fun u => u.plat.resetLow) = true ∧ goesTo (exec (.powerOn true) run0) run0 = true ∧
    ([(Instr.resetNAssert, DevState.reset), (.powerLoss, .off)]).all (fun c =>
      nextIs (exec c.1 (busy0.setFld MEM_STACK_STATUS_withdrawn 1 3)) (fun u => u.plat.dev = c.2 && u.tiles.isEmpty && u.jobs.isEmpty && u.dram.isEmpty &&
        u.withdrawn 3 && !u.withdrawn 0 && u.fld FAB_BYPASS_STATUS_closed = 15 && !u.plat.lsEn)) = true ∧
    nextIs (exec .powerLoss off0) (fun u => u.plat.dev = .off) = true := by decide +kernel

/-! The signatures of the boot chain are opaque: what can be read is every other condition. -/

/-- Headers of a firmware and a microcode image, and a configuration image, before its signature. -/
def headOf (kind : Nat) : Bytes := toBE 4 0x4B494D47 ++ toBE 1 kind ++ toLE 15 0 ++ toLE 4 0 ++ toLE 4 0 ++ toLE 64 7 ++ toLE 36 0
def cfgBytes : Bytes := toBE 4 0x4B434647 ++ toBE 2 1 ++ toLE 2 0 ++ toBE 8 6 ++ toBE 4 218 ++ toLE 84 0
def bootOk : BootInput :=
  { fuseOk := true, romDigest := 1, fwA := ⟨headOf 1, 7, 1⟩, fwB := ⟨headOf 1, 7, 1⟩, cfg0 := ⟨cfgBytes, 2⟩, cfg1 := ⟨[], 0⟩,
    uc0 := ⟨headOf 2, 7, 3⟩, uc1 := ⟨[], 7, 0⟩, cutEntry := false }
/-- The least image: one record of each kind that must stand; the flash holds a firmware and a microcode. -/
def imaged : State :=
  let s := ([.deviceRecord ⟨16, true⟩ 3 ⟨0, 0, 0, 0⟩ 1, .topologyRecord ⟨16, true⟩ ⟨1, 1, 1, 1⟩ 0 1000 [],
    .hostNetRecord ⟨48, true⟩ ⟨0, 64, 1, 0x001122334455, 0xB7A0, 0, 46, 10, 0x20010db8000000000000000000000001, 0xFE800000000000000000000000000001⟩,
    .hostListRecord ⟨24, true⟩ [0x77]] : List Instr).foldl (fun s c => match exec c s with
      | .next u => u
      | _ => s) dev0
  s.modFlash (fun f => { f.setSlot false (slotOf (headOf 1) 7) with ucode0 := copyOf (headOf 2) 7 })
theorem image_accepted (kind : Nat) (head : Bytes) (d : BitVec 512) (sig : BitVec 912)
    (h : ¬ (head.length ≠ 128 ∨ beAt head 0 4 ≠ 0x4B494D47 ∨ beAt head 4 1 ≠ kind ∨ imageRoom kind < 256 + beAt head 16 4))
    (hd : ¬ (head.drop 28).take 64 ≠ toLE 64 d.toNat) (v : Config.ed448Verify ctxImage Config.imageKey head sig = true) :
    imageReject kind head d sig 0 = none := by
  unfold imageReject
  rw [if_neg h, if_neg hd, if_neg (by simp [v]), if_neg (by simp)]
/-- What stands before and after the signatures of the four checks. -/
theorem witness_BootReachesTrain : imaged.plat.dev = .reset ∧ imaged.regsWf = true ∧ imageOk imaged = true ∧ imaged.plat.fuses.owner = none ∧
    newerCfg bootOk = false ∧ cfgHeadOk cfgBytes = true ∧ ownerOk imaged cfgBytes = true ∧
    (vendorCert Config.serial (Config.ed448Public (identityOf imaged.plat.fuses.seed)) Config.certSig = true →
      Config.ed448Verify ctxImage Config.imageKey (headOf 1) 1 = true → Config.ed448Verify ctxImage Config.imageKey (headOf 2) 3 = true →
      cfgSigned cfgBytes 2 = true →
      bootOk.fuseOk = true ∧ bootSlotOf imaged bootOk = some false ∧ cfgReject imaged (cfgRead bootOk (newerCfg bootOk)) = none ∧
        (ucodeCopy imaged bootOk).isSome = true) := by
  refine ⟨by decide +kernel, by decide +kernel, by decide +kernel, by decide +kernel, by decide +kernel, by decide +kernel, by decide +kernel, ?_⟩
  intro _ hf hu hc
  have h1 : slotCheck imaged bootOk false = none :=
    (show slotCheck imaged bootOk false = imageReject 1 (headOf 1) 7 1 0 from by
      have hv : (imaged.plat.flash.slot false).valid = true := by decide +kernel
      have hm : imaged.plat.fuses.minFw = 0 := by decide +kernel
      unfold slotCheck; rw [hv, hm, if_neg (by decide)]; rfl).trans (image_accepted 1 (headOf 1) 7 1 (by decide +kernel) (by decide +kernel) hf)
  have h2 : ucodeCheck imaged bootOk false = none :=
    (show ucodeCheck imaged bootOk false = imageReject 2 (headOf 2) 7 3 0 from by
      have hv : imaged.plat.flash.ucode0.valid = true := by decide +kernel
      have hm : imaged.plat.fuses.minUcode = 0 := by decide +kernel
      unfold ucodeCheck; rw [if_neg (by decide), hm]
      rfl).trans (image_accepted 2 (headOf 2) 7 3 (by decide +kernel) (by decide +kernel) hu)
  have h3 : imaged.plat.flash.bootSlot = false := by decide +kernel
  have h4 : newerCfg bootOk = false := by decide +kernel
  have h5 : decide (beAt bootOk.uc0.head 8 4 < beAt bootOk.uc1.head 8 4) = false := by decide +kernel
  have h6 : cfgHeadOk cfgBytes = true := by decide +kernel
  have h7 : ownerOk imaged cfgBytes = true := by decide +kernel
  have h8 : imageOk imaged = true := by decide +kernel
  refine ⟨rfl, ?_, ?_, ?_⟩
  · simp [bootSlotOf, h3, h1]
  · rw [h4]
    show cfgReject imaged ⟨cfgBytes, 2⟩ = none
    unfold cfgReject
    rw [h6, h7, hc, h8]; rfl
  · simp [ucodeCopy, h5, h2]
/-- The device in BOOT with its seed locked, before its own checks. -/
def booting : State :=
  let s := (imaged.modPlat (fun p => { p with resetLow := false })).setDev .boot
  let s : State := { (s.setReg 0x1008 0x1FF) with lantern := { s.lantern with bootCount := s.lantern.bootCount + 1 } }
  s.modPlat (fun p => { p with idKey := identityOf p.fuses.seed, fuses := { p.fuses with seedLocked := true } })
/-- A boot that stops at the fuses, whatever the certificate; a lock outside RESET; conditions under which a later check fails. -/
theorem witness_BootFailures :
    (∃ c : Bool, exec (.pllLock { bootOk with fuseOk := false }) imaged = .next (stayInBoot booting 1 (if c then whyFormat else whySig))) ∧
    ([true, false]).all (fun c => let u := stayInBoot booting 1 (if c then whyFormat else whySig)
      u.plat.dev = .boot && u.fld SEC_STATUS_reason ≠ 0 && !u.plat.lsEn && u.lantern.bootCount = 1) = true ∧
    nextIs (exec (.pllLock bootOk) run0) (fun u => u.plat.dev = .run && u.lantern.bootCount = 0) = true ∧
    bootSlotOf dev0 { bootOk with fwA := ⟨[], 7, 1⟩, fwB := ⟨headOf 2, 7, 1⟩ } = none ∧ cfgHeadOk [] = false ∧ imageOk dev0 = false ∧
    ucodeCopy dev0 { bootOk with uc0 := ⟨[], 7, 1⟩ } = none ∧ ownerOk dev0 cfgBytes = true ∧
    imageReject 1 (headOf 2) 7 1 0 = some whyFormat ∧ imageReject 1 (headOf 1) 8 1 0 = some whyDigest := by
  exact ⟨⟨_, rfl⟩, by decide +kernel, by decide +kernel, by decide +kernel, by decide +kernel, by decide +kernel, by decide +kernel, by decide +kernel,
    by decide +kernel, by decide +kernel⟩

/-- Records at the ends of their ranges. -/
theorem witness_PlaceRecords_device : dev0.regsWf = true ∧ dev0.plat.vbypOk = true ∧
    nextIs (exec (.deviceRecord ⟨16, true⟩ 1023 ⟨63, 63, 63, 63⟩ 1) dev0) (fun u => u.fld FAB_COORD_site = 1023 && u.coord = [63, 63, 63, 63] &&
      u.fld FAB_BYPASS_STATUS_bypass_arm = 1 && u.plat.image.device = 1 && u.plat.image.valid) = true ∧
    nextIs (exec (.deviceRecord ⟨16, true⟩ 0 ⟨1, 2, 3, 4⟩ 0) dev0) (fun u => u.coord = [1, 2, 3, 4] && u.fld FAB_BYPASS_STATUS_bypass_arm = 0) = true := by
  decide +kernel
theorem witness_PlaceRecords_topology :
    nextIs (exec (.topologyRecord ⟨24, true⟩ ⟨64, 1, 2, 64⟩ 1 60000 [⟨5, 0, 9⟩]) dev0) (fun u => u.dims = [64, 1, 2, 64] &&
      u.fld FAB_TOPO_MODE_mode = 1 && u.fld FAB_TOPO_MODE_link_wait = 60000 && u.plat.image.endpoints = [⟨5, 0, 9⟩] && u.plat.image.topology = 1) = true ∧
    nextIs (exec (.topologyRecord ⟨16, true⟩ ⟨1, 1, 1, 1⟩ 0 100 []) dev0) (fun u => u.fld FAB_TOPO_MODE_link_wait = 100) = true := by decide +kernel
theorem witness_PlaceRecords_tick_power : tickOk 128 (BitVec.toInt (0xFFFFFFFF : BitVec 32)) = true ∧ tickOk 4 3999 = true ∧ tickOk 4 4000 = false ∧ tickOk 3 0 = false ∧
    nextIs (exec (.tickRecord ⟨16, true⟩ 128 0xFFFFFFFF 600000) dev0) (fun u => u.fld TICK_PERIOD_period = 128 && u.fld TICK_PERIOD_ptp_wait = 600000 &&
      u.fld TICK_PHASE_phase = 2 ^ 32 - 1 && u.plat.image.tick = 1) = true ∧
    ([(0, 400, 1850), (1, 1600, 1600), (2, 1000, 1350)]).all (fun p => nextIs (exec (.powerRecord ⟨8, true⟩ (BitVec.ofNat 8 p.1) (BitVec.ofNat 32 p.2.1)) dev0)
      (fun u => u.fld PWR_MODE_mode = p.1 && u.coreMHz = p.2.2 && u.fld PWR_LIMIT_watts = p.2.1 && u.plat.image.power = 1)) = true := by decide +kernel
theorem witness_NetRecords :
    ([0, 9]).all (fun p => nextIs (exec (.portRecord ⟨8, true⟩ (BitVec.ofNat 8 p) 0 3 ⟨4, 3, 2, 1⟩) dev0) (fun u => u.fld FAB_PORT_CTRL_port_en p = 0 &&
      u.fld (FAB_CREDIT_CFG_buf p) = 3 && (List.range 4).all (fun l => u.lanePhys p false l = 4 - l && u.lanePhys p true l = 4 - l) && u.plat.image.ports = [p])) = true ∧
    nextIs (exec (.hostNetRecord ⟨48, true⟩ ⟨1, 64, 4094, 0xFFFFFFFFFFFF, 0xFFFF, 255, 63, 63, 5, 6⟩) dev0) (fun u => u.fld HST_PORT_CTRL_pmd_sel = 1 &&
      u.fld HST_MAC_ADDR_mac = 2 ^ 48 - 1 && u.globalAddr = 5 && u.fld HST_IP_CFG_vlan = 4094 && u.fld HST_IP_CFG_ubtik_port = 65535 && u.fld HST_IP_CFG_ptp_domain = 255) = true ∧
    nextIs (exec (.hostListRecord ⟨24, true⟩ [7]) dev0) (fun u => u.plat.image.hosts = [7] && u.plat.image.hostList = 1) = true ∧
    nextIs (exec (.regRecord ⟨16, true⟩ [(0x6000, 0x0200000000000000)]) dev0) (fun u => u = imageWrite dev0 0x6000 0x0200000000000000) = true ∧
    goesTo (exec (.noteRecord ⟨4096, true⟩) dev0) dev0 = true := by decide +kernel
theorem witness_BadRecordsInvalidate : ([.deviceRecord ⟨15, true⟩ 3 ⟨0, 0, 0, 0⟩ 1, .deviceRecord ⟨16, false⟩ 3 ⟨0, 0, 0, 0⟩ 1, .deviceRecord ⟨16, true⟩ 1024 ⟨0, 0, 0, 0⟩ 1,
      .powerRecord ⟨8, true⟩ 3 400, .powerRecord ⟨8, true⟩ 0 399, .powerRecord ⟨8, true⟩ 0 1601, .portRecord ⟨8, true⟩ 10 0 0 ⟨0, 1, 2, 3⟩,
      .portRecord ⟨8, true⟩ 9 0 0 ⟨0, 0, 2, 3⟩, .hostListRecord ⟨8, true⟩ []] : List Instr).all (fun c =>
        goesTo (exec c dev0) (dev0.modPlat (fun p => { p with image := { p.image with valid := false } }))) = true := by decide +kernel

def train0 : State := { dev0 with plat := { plat0 with dev := .train } }
theorem witness_TrainConditions : train0.training = true ∧ train0.regsWf = true ∧ train0.hostRuns = true ∧
    nextIs (exec (.tileSelfTestDone []) { train0 with tiles := busy0.tiles }) (fun u => u.tiles.isEmpty && u.plat.train.tilesDone) = true ∧
    ([0, 3] : List (Fin 4)).all (fun q => nextIs (exec (.stackTrained q []) train0) (fun u => u.fld MEM_STACK_STATUS_trained q = 1 && u.plat.train.stacksUp.getLsbD q.val)) = true ∧
    nextIs (exec .opticalCalDone train0) (fun u => u.plat.train.opticalDone && nextIs (exec .linkWaitExpiry u) (fun v => v.plat.train.linkWaitOver)) = true ∧
    nextIs (exec .hostLinkWaitExpiry train0) (fun u => u.plat.train.hostWaived) = true ∧
    nextIs (exec .hostLinkUp train0) (fun u => u.fld HST_PORT_STATUS_link_up = 1 && nextIs (exec .hostLinkDown u) (fun v => v.fld HST_PORT_STATUS_link_up = 0)) = true := by
  decide +kernel
def trained : State :=
  { train0 with
    plat := { plat0 with
      dev := .train, train := { Train.reset with stacksUp := 15, tilesDone := true, hostWaived := true, linkWaitOver := true, kat := 7 } },
    clock := { Clock.reset with ticking := true } }
theorem witness_TrainEndsInReady : trained.training = true ∧ nextIs (exec .trainComplete trained) (fun u => u.plat.dev = .ready && u.regs = trained.regs) = true ∧
    goesTo (exec .trainComplete train0) train0 = true := by decide +kernel
theorem witness_FirstTick : train0.clock.ticking = false ∧
    (let s := ((train0.setFld PTP_STATUS_lock 1).setFld PPS_STATUS_lock 1).setFld TICK_PHASE_phase (2 ^ 32 - 5)
     let p := 1000 * s.fld TICK_PERIOD_period
     nextIs (exec (.firstTick (BitVec.ofNat 64 (7 * p - 5))) s) (fun u => u.clock.ticking && !u.clock.freeRun && u.clock.siteTime = 7 * p - 5 && u.fld TICK_COUNT_count = 0) = true ∧
     goesTo (exec (.firstTick (BitVec.ofNat 64 (7 * p - 4))) s) s = true) ∧
    nextIs (exec .ptpWaitExpiry train0) (fun u => u.clock.ticking && u.clock.freeRun) = true := by decide +kernel


/-! ## Clocks, time, power, the tick -/

/-- A retrain towards SITE under way: a write of its mode changes nothing, another is refused. -/
theorem witness_PowerModes_retrain :
    (let s := train0.modPlat (fun p => { p with train := { p.train with retrain := some 2 } })
     goesTo (exec (.pwrModeWrite 2) s) s && goesTo (exec (.pwrModeWrite 0) s) s.cfgReject) = true := by decide +kernel

def hostS : State := run0.setFld HST_PORT_STATUS_link_up 1
def ready0 : State := { dev0 with plat := { plat0 with dev := .ready }, clock := { Clock.reset with ticking := true, siteTime := 1000 } }
theorem witness_TimeReferences : hostS.regsWf = true ∧
    nextIs (exec (.ptpMessage ⟨0, .sync false 5 100, 121, 131⟩) hostS) (fun u => u.clock.meas = some ⟨5, some 100, 120, some 130⟩ && u.out = [.delayReq 0]) = true ∧
    nextIs (exec (.ptpMessage ⟨0, .sync true 5 100, 121, 131⟩) hostS) (fun u => u.clock.meas = some ⟨5, none, 120, none⟩ && u.out = [] &&
      nextIs (exec (.ptpMessage ⟨0, .followUp 5 100, 125, 131⟩) u) (fun v => v.clock.meas = some ⟨5, some 100, 120, some 130⟩)) = true ∧
    (let s := { hostS with clock := { hostS.clock with meas := some ⟨5, some 100, 120, some 130⟩, delaySeq := 1, ticking := true } }
     nextIs (exec (.ptpMessage ⟨0, .delayResp 0 164, 201, 0⟩) s) (fun u => u.fld PTP_STATUS_offset = 2 ^ 32 - 7 && u.clock.siteTime = 207 &&
       u.clock.phaseErr = -7 && u.clock.meas = none)) = true ∧
    nextIs (exec (.ptpLock true true (-7)) ready0) (fun u => u.fld PTP_STATUS_lock = 1 && u.fld PPS_STATUS_lock = 1 && u.clock.phaseErr = -7 && u.clock.siteTime = 1000 &&
      nextIs (exec (.ptpLockLost true true) u) (fun v => v.fld PTP_STATUS_lock = 0 && v.fld PTP_STATUS_holdover = 1 && v.fld PPS_STATUS_lock = 0)) = true ∧
    ([(1000, 1), (1001, 0), (2 ^ 32 - 1000, 1), (2 ^ 32 - 1001, 0)]).all (fun p => nextIs (exec (.ppsEdge (BitVec.ofNat 32 p.1)) ready0)
      (fun u => u.fld PPS_STATUS_edge_err = p.1 && u.fld PPS_STATUS_present = p.2)) = true ∧
    nextIs (exec .ppsAbsent (ready0.setFld PPS_STATUS_present 1)) (fun u => u.fld PPS_STATUS_present = 0) = true ∧
    nextIs (exec (.tickWrite false (128 + 600000 * 2 ^ 32)) ready0) (fun u => u.fld TICK_PERIOD_period = 128 && u.fld TICK_PERIOD_ptp_wait = 600000) = true ∧
    nextIs (exec (.tickWrite true 0xFFFFFFFF) ready0) (fun u => u.fld TICK_PHASE_phase = 2 ^ 32 - 1) = true ∧
    nextIs (exec (.tickWrite false 3) ready0) (fun u => u.plat.cfgReject) = true := by decide +kernel

/-- Tile 0 is still busy at the tick; 25 ns of phase error are left. -/
def overS : State :=
  ({ busy0 with clock := { Clock.reset with ticking := true, siteTime := 1000, tickAt := 1000, phaseErr := -25 } }.setFld PTP_STATUS_lock 1).setFld PPS_STATUS_lock 1
theorem witness_FrameTicks : overS.ticks = true ∧ overS.clock.realign = false ∧ overS.regsWf = true ∧ overS.partsWf = true ∧ (∀ p ∈ overS.host.sessions, p.2.held = []) ∧
    (∀ p ∈ overS.tiles, ∀ j, overS.jobOfTile p.1 = some j → p.2.serves = (overS.job j).ledgerSeq) ∧
    nextIs (exec .frameTick overS) (fun u => u.clock.siteTime = 17000 - 10 && overS.slew = -10 && u.clock.uptime = 16000 &&
      u.fld TICK_COUNT_count = 1 && (u.tile 0).held && (u.tile 0).busy && u.fld TILE_OVERRUN_overrun_flag 0 = 1 && u.fld TILE_OVERRUN_overrun_count 0 = 1 &&
      u.fld TILE_OVERRUN_overrun_count 1 = 0 && u.out = []) = true := by decide +kernel

def atTick (s : State) : State := { s with clock := { s.clock with order := 1 } }
theorem witness_TickActions_staged :
    let x : Staged := ⟨9, 0x9000, 8, 20, 33⟩
    let s := { atTick dev0 with staged := [x] }
    let b := { atTick busy0 with staged := [x] }
    stageIdle s x = true ∧ stageIdle b x = false ∧ b.regsWf = true ∧ b.partsWf = true ∧
    nextIs (exec .stagedWriteLand s) (fun u => u.staged = [] && u.fld DXE_CTRL_h 0 = 33) = true ∧
    nextIs (exec .stagedWriteLand b) (fun u => u.staged = [x] && u.regs = b.regs) = true ∧
    ([0, 1, 2]).all (fun m => nextIs (exec .stagedWriteLand { atTick dev0 with staged := [⟨1, 0x1010, 0, 1, m⟩] })
      (fun u => u.staged = [] && u.fld PWR_MODE_mode = m && u.coreMHz = [1850, 1600, 1350].getD m 0)) = true := by decide +kernel
def switchS : State := (atTick dev0).setRepairState 3 2 |>.modDom 3 (fun d => { d with repair := { d.repair with chan := 63, spare := 65, since := 9 } })
theorem witness_TickActions_channel : switchS.repairState 3 = 2 ∧ switchS.partsWf = true ∧ switchS.clock.tickAt ≠ (switchS.dom 3).repair.since ∧ (switchS.dom 3).repair.wanted = [] ∧
    nextIs (exec (.channelSwitch 3) switchS) (fun u => u.chanPhys 3 63 = 65 && u.repairState 3 = 3 && u.spares.badChans = [66 * 3 + 63]) = true := by decide +kernel
theorem witness_TickActions_swap :
    let s := (atTick dev0).modDom 2 (fun d => { d with ucodeSwap := some none })
    ucodeDue s 2 = true ∧ allIdle s = true ∧ s.partsWf = true ∧
    nextIs (exec (.microcodeSwap 2) s) (fun u => (u.dom 2).ucodeActive && (u.dom 2).ucodeSwap = none && u.lantern.eventCount = 1) = true := by decide +kernel
theorem witness_TickActions_remap :
    let r : Remap := { tile := 9, spare := 1055, copied := none, byOp := false }
    let s : State := { atTick dev0 with svc := { Svc.reset with remaps := [r] } }
    let s' : State := { (atTick dev0).setFld TICK_COUNT_count 4 with svc := { Svc.reset with remaps := [{ r with copied := some 3 }] } }
    s.busy 9 = false ∧ namesTile s 9 = false ∧
    nextIs (exec (.tileRemap 9) s) (fun u => u.svc.remaps = [{ r with copied := some 0 }]) = true ∧
    nextIs (exec (.tileMapSwitch 9) s') (fun u => u.phys 9 = 1055 && u.svc.remaps = [] && u.spares.badTiles = [s'.phys 9]) = true := by decide +kernel

theorem witness_PowerModes_write : ready0.regsWf = true ∧
    goesTo (exec (.pwrModeWrite 3) ready0) ready0.cfgReject = true ∧ goesTo (exec (.pwrModeWrite 2) run0) run0.cfgReject = true ∧
    nextIs (exec (.pwrModeWrite 1) run0) (fun u => u.staged = [⟨1, 0x1010, 0, 1, 1⟩] && u.plat.pwr = .staged 1) = true ∧
    nextIs (exec (.pwrModeWrite 0) (run0.setFld PWR_MODE_mode 1)) (fun u => u.out = [.vddCore 780] && u.plat.pwr = .rising 0 && u.staged = []) = true := by decide +kernel
theorem witness_PowerModes_supply :
    let s := run0.modPlat (fun p => { p with pwr := .rising 1, vddCore := 660 })
    nextIs (exec .vddCoreSettled s) (fun u => u.plat.vddCore = 720 && u.plat.pwr = .staged 1 && u.staged = [⟨1, 0x1010, 0, 1, 1⟩]) = true ∧
    nextIs (exec .regulatorTimeout s) (fun u => u.plat.pwr = .none && u.out = [.vddCore 660] && u.plat.cfgReject && u.plat.dev = .run) = true ∧
    (let t := (train0.modPlat (fun p => { p with train := { p.train with retrain := some 2 } })).setFld PWR_MODE_mode 2
     nextIs (exec .bondRateRetrainDone t) (fun u => u.plat.dev = .ready && u.plat.train.retrain = none && u.fld CLK_CORE_CFG_dram_mhz = 700) = true) := by decide +kernel

def cool64 : List Int := List.replicate 64 400
def cool48 : List Int := List.replicate 48 400
/-- Stacks at 25 °C, just above 85, 95 and 105 °C. -/
def warm : TempSample := ⟨cool64, cool48, 1361 :: cool48.tail, 1521 :: cool48.tail, cool48.dropLast ++ [1681]⟩
theorem witness_PowerAndTemperature :
    ([(800, 0), (1300, 1), (65535, 1)]).all (fun p => nextIs (exec (.powerSample (BitVec.ofNat 16 p.1)) (run0.setFld PWR_LIMIT_watts 1299))
      (fun u => u.fld PWR_TELEM_power_w = p.1 && u.fld PWR_TELEM_throttle = p.2)) = true ∧
    critical warm = none ∧ critical { warm with stack3 := cool48.dropLast ++ [1760] } = some (64 + 48 * 3 + 47, 1760) ∧
    nextIs (exec (.tempSample warm) ready0) (fun u => u.plat.dev = .ready && (List.range 4).map (fun q => u.fld MEM_REFRESH_STATE_rate q) = [0, 1, 2, 2] &&
      (List.range 4).map (fun q => u.fld MEM_STACK_STATUS_throttle q) = [0, 0, 0, 1] && u.fld MEM_TEMP_temp 3 = 1681 && u.fld MEM_TEMP_sensor 3 = 47 &&
      u.fld THERM_STATUS_logic_temp = 400) = true ∧
    nextIs (exec (.tempSample { warm with logic := 1840 :: cool64.tail }) ready0) (fun u => u.plat.dev = .fault && u.plat.thermAlert) = true := by decide +kernel

theorem witness_FatalFaults : run0.mayFail = true ∧ run0.regsWf = true ∧ run0.partsWf = true ∧
    ([Instr.refclkLoss, .supplyFault 8 0, .lockstepMismatch 0, .pllLost 0, .pllLost 8, .pllLost 16, .pllLost 25]).all (fun c =>
      nextIs (exec c (run0.setFld FAB_BYPASS_STATUS_bypass_arm 1)) (fun u => u.plat.dev = .fault && u.runningJobs = [] && u.staged = [] && u.plat.selfRefresh && !u.plat.lsEn &&
        u.fld FAB_BYPASS_STATUS_closed = 15)) = true ∧
    ([(4499, false), (4500, true), (5500, true), (5501, false)]).all (fun p => nextIs (exec (.supplyFault 9 (BitVec.ofNat 64 p.1)) run0) (fun u => u.plat.vbypOk = p.2 && u.plat.dev = .run)) = true ∧
    goesTo (exec (.pmbAlert 5) run0) run0 = true ∧
    goesTo (exec (.faultInject (BitVec.ofNat 64 (2 ^ 63 + 4 * 2 ^ 16))) run0) run0.cfgReject = true ∧
    nextIs (exec (.faultInject (BitVec.ofNat 64 (2 ^ 63 + 3 * 2 ^ 16 + 2 + 0x0C * 256))) run0) (fun u => (u.job 0).phase = .aborting && (u.job 0).att.fault) = true ∧
    (let s : State := { run0 with jobs := [(0, { jobA with att := { jobA.att with started := false } })] }
     nextIs (exec (.faultInject (BitVec.ofNat 64 (2 ^ 63 + 3 * 2 ^ 16 + 2 + 0x0C * 256))) s) (fun u => !(u.job 0).running)) = true := by decide +kernel

/-- PWR_LIMIT (RW, 400 to 1600), TILE_EXC of tile 0 (W1C), and DXE_CTRL (STATIC) of a job that runs and of one that does not. -/
theorem witness_RegisterWrites_values : run0.regsWf = true ∧ ([0x1018, 0x4020, 0x9000]).all (fun o => (assoc fieldTable (normal o)).isSome && run0.takesWrite o && !actingWords.contains (normal o)) = true ∧
    nextIs (exec (.registerWrite 0 0x1018 1600) run0) (fun u => u.fld PWR_LIMIT_watts = 1600) = true ∧
    goesTo (exec (.registerWrite 0 0x1018 399) run0) run0.cfgReject = true ∧
    (let s := run0.setReg 0x4020 0xFFFF
     s.keyFor 0 0x4020 = 0x4020 ∧ nextIs (exec (.registerWrite 0 0x4020 0x8001) s) (fun u => u.reg 0x4020 = 0x7FFE) = true) := by decide +kernel
theorem witness_RegisterWrites_static :
    let v : BitVec 64 := BitVec.ofNat 64 (run0.reg 0x9000 + 256)
    run0.badWord 0 0x9000 v.toNat = false ∧ run0.badWord 0 0x9100 v.toNat = false ∧
    nextIs (exec (.registerWrite 0 0x9000 v) run0) (fun u => u.reg 0x9000 = run0.reg 0x9000) = true ∧
    nextIs (exec (.registerWrite 0 0x9100 v) run0) (fun u => u.fld DXE_CTRL_h 1 = run0.fld DXE_CTRL_h 1 + 1) = true := by decide +kernel
theorem witness_RegisterWrites_ignored : assoc fieldTable (normal 0x1FF8) = none ∧ goesTo (exec (.registerWrite 0 0x1FF8 5) run0) run0 = true ∧
    (let s := run0.modPlat (fun p => { p with dev := .frozen })
     s.takesWrite 0x1018 = false ∧ goesTo (exec (.registerWrite 0 0x1018 1600) s) s = true) := by decide +kernel
theorem witness_ClearsAndArming : run0.regsWf = true ∧
    nextIs (exec (.bypassArmWrite true) run0) (fun u => u.fld FAB_BYPASS_STATUS_bypass_arm = 1) = true ∧
    (let s := run0.modPlat (fun p => { p with vbypOk := false })
     goesTo (exec (.bypassArmWrite true) s) s.cfgReject = true ∧ nextIs (exec (.bypassArmWrite false) s) (fun u => u.fld FAB_BYPASS_STATUS_bypass_arm = 0) = true) ∧
    nextIs (exec .eccClear (run0.setReg 0x3008 5)) (fun u => u.reg 0x3008 = 0) = true ∧
    nextIs (exec .statsClear (hostS.setFld HST_PORT_STATUS_frame_discards 5)) (fun u => u.fld HST_PORT_STATUS_frame_discards = 0 && u.fld HST_PORT_STATUS_link_up = 1) = true := by
  decide +kernel


/-! ## Memory repair, faults of tiles and blocks, the engines of the stack domains -/

theorem witness_ChannelRepairs_request : run0.regsWf = true ∧ run0.partsWf = true ∧ run0.chanFree 3 65 = true ∧ run0.repairing 3 = false ∧
    (let v : BitVec 64 := BitVec.ofNat 64 (2 ^ 63 + 65535 * 2 ^ 32 + 2 ^ 24 + 63 * 2 ^ 16 + 3 * 256)
     nextIs (exec (.repairRequest v) run0) (fun u => u.repairState 3 = 1 && (u.dom 3).repair.chan = 63 && (u.dom 3).repair.spare = 65 &&
       u.fld MEM_REPAIR_CTRL_repair_threshold = 65535 && nextIs (exec (.repairRequest v) u) (fun w => w.plat.cfgReject && w.domains = u.domains)) = true) := by decide +kernel
theorem witness_ChannelRepairs_wanted :
    ([Instr.repairThreshold 1 63, .bondGroupFailure 1 63]).all (fun c =>
      nextIs (exec c (run0.setFld MEM_REPAIR_CTRL_auto_repair 0)) (fun u => u.fld MEM_STACK_STATUS_repair_wanted 1 = 1 && u.fld MEM_STACK_STATUS_want_chan 1 = 63 && u.domains = []) &&
      nextIs (exec c (run0.setFld MEM_REPAIR_CTRL_auto_repair 1)) (fun u => u.repairState 1 = 1 && (u.dom 1).repair.chan = 63 && (u.dom 1).repair.spare = 64)) = true ∧
    run0.freeChans 1 = [64, 65] := by decide +kernel
def copyS : State := (dev0.setRepairState 2 1).setFld MEM_CTRL_patrol_en 1
theorem witness_ChannelRepairs_copy : copyS.repairState 2 = 1 ∧ copyS.runningJobs = [] ∧ (4 * quarter - 1) / 64 * 64 + 64 = 4 * quarter ∧
    nextIs (exec (.repairCopyDone 2) copyS) (fun u => u.repairState 2 = 2) = true ∧
    nextIs (exec (.repairFailed 2 [BitVec.ofNat 42 (4 * quarter - 1), 5]) copyS) (fun u => u.repairState 2 = 1 && u.ue.contains 0 && u.ue.contains (4 * quarter - 64) &&
      (u.dom 2).repair.pending.contains 0) = true ∧
    nextIs (exec (.repairFailed 2 ((List.range 65).map (fun k => BitVec.ofNat 42 (64 * k)))) copyS) (fun u => u.repairState 2 = 4 && (u.dom 2).repair.failures = [0]) = true := by
  decide +kernel
theorem witness_ChannelRepairs_scrub : goesTo (exec (.patrolScrub 100 .clean false) copyS) copyS = true ∧
    nextIs (exec (.patrolScrub 100 .corrected true) copyS) (fun u => u.fld MEM_ECC_COUNT_corrected = 1) = true ∧
    nextIs (exec (.patrolScrub 100 .uncorrectable false) copyS) (fun u => u.ue = [64] && u.fld MEM_ECC_COUNT_uncorrectable = 1) = true := by decide +kernel
theorem witness_ChannelRepairs_retried : nextIs (exec (.patrolScrub 100 .retried true) copyS) (fun u => u.fld MEM_ECC_COUNT_cmd_retries = 1) = true ∧
    (copyS.dom 2).repair.pending = [] ∧
    (let s := copyS.modPlat (fun p => { p with dev := .frozen })
     s.blocksRun = false ∧ ([.repairCopyDone 2, .repairFailed 2 [5], .repairThreshold 2 1, .bondGroupFailure 2 1, .channelSwitch 2, .patrolScrub 5 .corrected true] : List Instr).all
       (fun c => goesTo (exec c s) s) = true) ∧
    (let s := copyS.setFld MEM_REPAIR_CTRL_auto_repair 1
     s.repairing 2 = true ∧ s.withdrawn 2 = false ∧ (s.dom 2).repair.chan ≠ 63 ∧
       nextIs (exec (.repairThreshold 2 63) s) (fun u => (u.dom 2).repair.wanted = [63] && (u.dom 2).repair.chan = 0)) = true := by decide +kernel

theorem witness_TileAndBlockFaults_storage : busy0.svc.paused = false ∧ busy0.tileOf 0 = some 0 ∧ busy0.jobOfTile 0 = some 0 ∧ busy0.tileFree 1055 = true ∧
    nextIs (exec (.tileStorageUe 1055 9) busy0) (fun u => u.spares.badTiles = [1055] && u.jobs = busy0.jobs) = true := by decide +kernel
theorem witness_TileAndBlockFaults_parity :
    nextIs (exec (.tileControlParity 0 7 5) busy0) (fun u => (u.job 0).phase = .aborting && (u.job 0).att.reason.map (·.1) = some 8 && u.svc.remaps = []) = true ∧
    (let s : State := { busy0 with svc := { Svc.reset with parity := [(0, 5)] } }
     (s.freeTiles 0).isEmpty = false ∧ nextIs (exec (.tileControlParity 0 7 (86400000000000 + 4)) s) (fun u => (u.job 0).phase = .aborting &&
       u.svc.remaps.map (fun r => (r.tile, r.spare)) = [(0, (s.freeTiles 0).getD 0 0)]) = true) := by decide +kernel
theorem witness_TileAndBlockFaults_wedge : blockKnown 0 = true ∧ busy0.blockJobs 0 = [0] ∧ busy0.svc.wedged = [] := by decide +kernel

/-- A descriptor of 64 bytes from its fields: offset and value. -/
def desc (l : List (Nat × Nat)) : Bytes := toLE 64 (l.foldl (fun a p => a + p.2 * 2 ^ (8 * p.1)) 0)
def descAt (b : Bytes) : Desc := { tile := 0, ctx := 0, index := 5, bytes := b }
/-- A lookup of rows 2 and 9 of a table of 4 rows of 64 bytes of BF16 at 4096, index list at 1024, pooled sums of one bag to FP32 at 8192. -/
def lookB : Bytes := desc [(0, 4096), (8, 4), (12, 64), (14, 6), (15, 1), (16, 1024), (24, 2048), (32, 1), (36, 2), (48, 8192), (56, 8), (60, 77)]
/-- Index list 2, 9; offsets 0, 2; 1.0 as element 0 of row 2. -/
def lookS (b : Bytes) : State :=
  { run0 with dram := [(1024, 2), (1032, 9), (2052, 2), (4224, 0x80), (4225, 0x3F)], domains := [(1, { Domain.reset with lookupQ := [descAt b] })],
              jobs := [(0, { jobA with mask := 3 })] }
theorem witness_Lookups_request : (lookS lookB).halted (blkLookup + 1) = false ∧ (lookS lookB).owner 1 = some 0 ∧ (lookS lookB).partsWf = true ∧
    (lookS lookB).glogOn 0 = false ∧ (lookupOf lookB).ok = true ∧ (lookupOf lookB).inJob 3 = true ∧ (lookupOf (desc [(57, 16)])).ok = false ∧
    nextIs (exec (.lookupRequest 1 []) (lookS lookB)) (fun u => (u.dom 1).lookupQ = [] && (u.dom 1).lookups.map (fun g => (g.tag.toNat, g.out, g.status, g.rows.length)) = [(77, 8192, 0, 128)] &&
      ((u.dom 1).lookups.all (fun g => g.rows.take 4 = [0, 0, 0x80, 0x3F]))) = true ∧
    nextIs (exec (.lookupRequest 1 []) (lookS (desc [(57, 16), (60, 5)]))) (fun u => (u.dom 1).lookups.map (fun g => (g.tag.toNat, g.status, g.rows.length)) = [(5, 1, 0)]) = true := by
  decide +kernel
def gathered (status : Nat) (rows : Bytes) : State :=
  { run0 with
    domains := [(0, { Domain.reset with lookups := [{ who := descAt [], tag := 77, status := status, out := 8192, rows := rows }] })] }
theorem witness_Lookups_done : inJob 1 8192 2 = true ∧ ((gathered 0 [1, 2]).writeAt 0 8192 [1, 2]).2.1 = 0 ∧ ((gathered 0 [1, 2]).writeAt 0 8192 [1, 2]).2.2 = [] ∧
    nextIs (exec (.lookupDone 0 0) (gathered 1 [])) (fun u => (u.tile 0).done = [(77, true)]) = true ∧
    nextIs (exec (.lookupDone 0 0) (gathered 0 [1, 2])) (fun u => (u.tile 0).done = [(77, false)] && u.dram = [(8192, 1), (8193, 2)] && (u.dom 0).lookups = []) = true := by decide +kernel

/-- The log of job 0: control words and table 0 at 128 KiB, ring from 192 KiB. Table 0 (D 16, FP32, plain, one owner: this device) has
its rows at 8192; the index list at 1024 names row 2; the gradient list stands at 2048; the owner list at 3072. -/
def logS0 : State := (((run0.setFld MEM_GLOG_BASE_base 2).setFld MEM_GLOG_SIZE_log_en 1).setFld MEM_GLOG_SIZE_lag 1).setFld MEM_GLOG_SIZE_size 16
def tableB : Bytes := desc [(0, 8192), (16, 4), (20, 16), (23, 8), (24, 0x3F800000), (32, 1), (40, 3072)]
/-- An append of n rows to table 0, tag 77. -/
def appendB (n : Nat) : Bytes := desc [(0, 1024), (8, 2048), (16, n), (24, 64), (28, 77)]
def logS (n row : Nat) : State :=
  ((logS0.setMem 131072 tableB).setMem 1024 (toLE 8 row)).modDom 0 (fun d => { d with appendQ := [descAt (appendB n)] })
theorem witness_GradientLog_append : (logS 1 2).partsWf = true ∧ (logS 1 2).regsWf = true ∧ (logS 1 2).owner 0 = some 0 ∧
    appendOk (logS 1 2) 0 (appendB 1) = true ∧ appendOk (logS 0 2) 0 (appendB 0) = false ∧ (logS 1 2).reachable 0 0 = true ∧
    nextIs (exec (.glogAppend 0) (logS 0 2)) (fun u => (u.tile 0).done = [(77, true)]) = true ∧
    nextIs (exec (.glogAppend 0) (logS 1 4)) (fun u => (u.tile 0).done = [(77, false)] && u.router = (logS 1 4).router) = true ∧
    nextIs (exec (.glogAppend 0) (logS 1 2)) (fun u => (u.dom 0).appends.map (fun a => (a.tag.toNat, a.left)) = [(77, 1)] &&
      u.router.xfers.map (fun y => (y.log, y.dst.toNat, y.data.length)) = [(true, 0, 96)]) = true := by decide +kernel
/-- An entry of row 2 with gradient 1.0 in element 0, committed at step 0, due at step 1 with lag 1; the row's element 0 is 2.0. -/
def entry0 : GEntry :=
  { step := 0, table := 0, row := 2, origin := 0, tile := 0, seq := 0, position := 0, grad := [0, 0, 0x80, 0x3F] ++ List.replicate 60 0, committed := true, done := false }
def applyS : State := (((logS0.setMem 131072 tableB).setMem (8192 + 128) [0, 0, 0, 0x40]).modJob 0 (fun x => { x with glog := [entry0] })).setFld STEP_NUMBER_step 1 0
theorem witness_GradientLog_apply : applyS.partsWf = true ∧ applyS.due 0 entry0 = true ∧ applyS.ownAddr 8320 = true ∧ (applyS.job 0).gTables = none ∧
    nextIs (exec (.glogApply 0 [] 0) applyS) (fun u => (u.job 0).applying.map (fun r => (r.row, (r.w.map BitVec.toNat).take 2, r.w.length)) = [(2, [0x40400000, 0], 16)]) = true ∧
    nextIs (exec (.glogApply 0 [] 0) applyS) (fun u => nextIs (exec (.glogWritebackDone 0) u) (fun v => (v.job 0).applying = [] && (v.job 0).glog = [] &&
      (v.job 0).gHead = 128 && rdN v.dram 8320 4 = [0, 0, 0x40, 0x40])) = true := by decide +kernel

/-- BUILD of a BF16 codebook from one row of 128 bytes at 4096, result at 8192; and a RELEASE of slot 15, count 3. -/
def buildB : Bytes := desc [(0, 1), (2, 6), (4, 77), (8, 4096), (16, 128), (20, 1), (32, 8192)]
def releaseB (flags slot n : Nat) : Bytes := desc [(0, 2), (1, flags), (3, slot), (4, 77), (40, n)]
def codecS (b : Bytes) (slots : Sparse CodeSlot) : State :=
  { run0 with domains := [(0, { Domain.reset with codecQ := [descAt b] })], jobs := [(0, { jobA with slots := slots })], dram := [(4096, 0x80), (4097, 0x3F)] }
def held15 : CodeSlot := { CodeSlot.reset with st := .held, stored := 2 }
theorem witness_CodecCommands_build : (codecS buildB []).partsWf = true ∧ ((codecS buildB []).job 0).wf = true ∧ (codecS buildB []).halted blkCodec = false ∧
    buildOk 1 buildB = true ∧ buildOk 1 (desc [(0, 1)]) = false ∧ ((codecS buildB []).job 0).freeSlots.head? = some 0 ∧
    nextIs (exec (.codecBuild 0) (codecS buildB [])) (fun u => ((u.job 0).slot 0).st = .building && ((u.job 0).slot 0).gen = 1 && (u.dom 0).codecQ = []) = true ∧
    nextIs (exec (.codecBuild 0) (codecS (desc [(0, 1), (4, 77)]) [])) (fun u => (u.tile 0).done = [(77, true)] && (u.job 0).slots = []) = true := by decide +kernel
theorem witness_CodecCommands_release : ((codecS buildB [(15, held15)]).job 0).wf = true ∧
    nextIs (exec (.codecRelease 0) (codecS (releaseB 0 15 2) [(15, held15)])) (fun u => ((u.job 0).slot 15).stored = 0 && (u.tile 0).done = [(77, false)] && (u.job 0).counters = []) = true ∧
    nextIs (exec (.codecRelease 0) (codecS (releaseB 0 15 3) [(15, held15)])) (fun u => ((u.job 0).slot 15).stored = 0 && (u.job 0).counters = [(5, 1)]) = true ∧
    nextIs (exec (.codecRelease 0) (codecS (releaseB 2 15 2) [(15, held15)])) (fun u => ((u.job 0).slot 15).st = .free) = true ∧
    nextIs (exec (.codecRelease 0) (codecS (releaseB 0 16 2) [(15, held15)])) (fun u => (u.tile 0).done = [(77, true)] && (u.job 0).slots = [(15, held15)]) = true := by decide +kernel
theorem witness_CodecCommands_done :
    let s := codecS buildB [(15, { held15 with st := .building, cmd := descAt buildB, gen := 7, stored := 0, entries := List.replicate 16 5 })]
    ((s.job 0).slot 15).status = 0 ∧
    nextIs (exec (.codecBuildDone 0 15) s) (fun u => ((u.job 0).slot 15).st = .held && rdN u.dram 8192 12 = [15, 7, 0, 0, 0, 0, 0, 0, 5, 0, 5, 0] && (u.tile 0).done = [(77, false)]) = true := by
  decide +kernel


/-! ## Links, lanes, packets -/

def portS (x : Port) : State := twoS.modPort 0 (fun _ => x)
/-- A packet of op and addresses for device dst. -/
def pkt (op : Nat) (dst : BitVec 12) (a : Nat) (b : Bytes) : Packet :=
  { op := BitVec.ofNat 8 op, flags := 0, jobTag := 5, src := 1, dst := dst, streamSeq := 0, xferId := 3, pktIndex := 0, pktCount := 1, notify := 0,
    dstAddr := BitVec.ofNat 64 a, payload := b }
/-- Frames 4 and 5 wait for their ack, 3 units of credit are out; 9 is the next number expected. -/
def upP (replays : Nat) : Port :=
  { Port.reset with st := .up, txSeq := 6, rxSeq := 9, retry := [(4, 0, pkt 1 1 0 [1]), (5, 0, pkt 1 1 0 [2])], replays := replays, credits := [(0, 3)] }
/-- A whole frame that acks and returns 2 units of virtual channel 0, and one whose CRC is wrong. -/
def head (seq ack : BitVec 32) (b : FrameBody) : LinkHead := frameHead 0 seq ack 0 2 b
def torn (h : LinkHead) : LinkHead := { h with crc := h.crc + 1 }
/-- The body of the frame that left last. -/
def lastBody (u : State) : Option FrameBody :=
  match u.out.getLast? with
  | some (.frame _ _ b) => some b
  | _ => none
theorem head_good (seq ack : BitVec 32) (b : FrameBody) : headGood (head seq ack b) b = true ∧ (head seq ack b).type.toNat = frameType b :=
  ⟨by simp [headGood, head, frameHead, headCheck, headBytes], by cases b <;> rfl⟩
/-- A whole frame is taken on a port that is UP. -/
theorem frame_taken (s : State) (p : Nat) (seq ack : BitVec 32) (b : FrameBody) (take : State → State) (hr : s.blocksRun = true)
    (hh : ¬ (s.halted (blkPort + p) = true ∨ (s.port p).st ≠ .up)) :
    onFrame s p (head seq ack b) b take = .next (take (takeHeader s p (head seq ack b))) := by
  have h := head_good seq ack b
  simp [onFrame, State.whenRuns, hr, hh, h.1, h.2]
theorem witness_LinkFrames : (portS (upP 0)).halted blkPort = false ∧ (portS (upP 0)).partsWf = true ∧ (portS (upP 0)).regsWf = true ∧
    ((portS (upP 0)).port 0).wf = true ∧ (portS (upP 0)).halted blkRouter = false ∧ opKnown 1 = true ∧ opKnown 7 = false ∧ (portS (upP 0)).self = 0 := by decide +kernel
theorem witness_LinkFrames_acks :
    nextIs (exec (.idleFrame 0 (head 0 4 .none)) (portS (upP 3))) (fun u => (u.port 0).retry.map (·.1) = [5] && (u.port 0).credits = [(0, 1)] && (u.port 0).replays = 0) = true ∧
    nextIs (exec (.idleFrame 0 (torn (head 0 4 .none))) (portS (upP 3))) (fun u => (u.port 0).retry.map (·.1) = [4, 5] && lastBody u = some (.nak 9)) = true ∧
    nextIs (exec (.idleFrame 0 { head 0 4 .none with fec := false }) (portS (upP 3))) (fun u => lastBody u = some (.nak 9)) = true ∧
    goesTo (exec (.nak 0 (head 0 4 .none) 5) (portS (upP 3))) (portS (upP 3)) = false ∧
    (let h := head 0 4 .none
     let h : LinkHead := { h with type := 7 }
     let h : LinkHead := { h with crc := headCheck h .none }
     nextIs (exec (.idleFrame 0 h) (portS (upP 3))) (fun u => u.out = (portS (upP 3)).out && (u.port 0).retry.length = 2)) = true := by
  decide +kernel
theorem witness_LinkFrames_data :
    nextIs (exec (.dataFrame 0 (head 9 3 (.data (pkt 1 0 0 [7]))) (pkt 1 0 0 [7])) (portS (upP 0))) (fun u => (u.port 0).rxSeq = 10 && u.out.contains (.packet (pkt 1 0 0 [7]))) = true ∧
    nextIs (exec (.dataFrame 0 (head 9 3 (.data (pkt 7 0 0 [7]))) (pkt 7 0 0 [7])) (portS (upP 0))) (fun u => (u.port 0).rxSeq = 10 && u.fld FAB_PORT_STATUS_bad_op 0 = 1) = true ∧
    nextIs (exec (.dataFrame 0 (head 8 3 (.data (pkt 1 0 0 [7]))) (pkt 1 0 0 [7])) (portS (upP 0))) (fun u => (u.port 0).rxSeq = 9 && u.out = (portS (upP 0)).out) = true ∧
    nextIs (exec (.dataFrame 0 (head 10 3 (.data (pkt 1 0 0 [7]))) (pkt 1 0 0 [7])) (portS (upP 0))) (fun u => (u.port 0).rxSeq = 9 && lastBody u = some (.nak 9)) = true := by
  decide +kernel
theorem witness_LinkFrames_replay :
    nextIs (exec (.nak 0 (head 0 4 (.nak 5)) 5) (portS (upP 0))) (fun u => lastBody u = some (.data (pkt 1 1 0 [2])) && (u.port 0).replays = 1) = true ∧
    nextIs (exec (.retryTimeout 0) (portS (upP 7))) (fun u => (u.port 0).replays = 8 && u.out.length = 2) = true ∧
    nextIs (exec (.retryTimeout 0) (portS (upP 8))) (fun u => (u.port 0).st = .train) = true := by decide +kernel
theorem witness_LinkFrames_crc : crc32c [0x31#8, 0x32#8, 0x33#8, 0x34#8, 0x35#8, 0x36#8, 0x37#8, 0x38#8, 0x39#8] = 0xE3069283 := by decide +kernel
def inSt (st : LinkSt) : State := portS { Port.reset with st := st, light := 31, ownNonce := 6 }
def litS (s : State) : State := { s with plat := { s.plat with lsEn := true, train := { s.plat.train with opticalDone := true } } }
/-- The port after a command. -/
def portGoes (c : Instr) (s : State) (st : LinkSt) : Bool := nextIs (exec c s) (fun u => (u.port 0).st = st)
theorem witness_LinkStates : (inSt .up).partsWf = true ∧ (inSt .up).regsWf = true ∧
    portGoes (.linkDown 0) (inSt .up) .down ∧ portGoes (.portEnable 0 false) (inSt .up) .disabled ∧
    portGoes (.lightLost 0) (inSt .quarantine) .down ∧ portGoes (.identTimeout 0) (inSt .ident) .down ∧ portGoes (.quarantineRelease 0) (inSt .quarantine) .train := by
  decide +kernel
theorem witness_LinkStates_train : min ((inSt .train).laneCount 0) ((inSt .train).port 0).lit = 4 ∧
    nextIs (exec (.linkTrained 0 100 9) (inSt .train)) (fun u => (u.port 0).st = .ident && u.fld FAB_PORT_STATUS_rtt 0 = 100 && u.fld FAB_PORT_STATUS_data_lanes 0 = 4 &&
      lastBody u = some (.hello 9)) = true ∧
    (let s := (inSt .train).modPort 0 (fun x => { x with light := 1 })
     min (s.laneCount 0) (s.port 0).lit = 1 ∧ portGoes (.linkTrained 0 100 9) s .down) ∧
    nextIs (exec (.trainTimeout 0) (inSt .train)) (fun u => (u.port 0).st = .down && (u.port 0).lightHold) = true := by decide +kernel
/-- A whole frame of the identity exchange is taken in IDENT. -/
theorem ident_taken (s : State) (p : Nat) (seq ack : BitVec 32) (b : FrameBody) (take : State → State) (hr : s.blocksRun = true)
    (hi : (s.port p).st = .ident) (hh : s.halted (blkPort + p) = false) :
    onIdentFrame s p (head seq ack b) b take = .next (take s) := by
  have h := head_good seq ack b
  simp [onIdentFrame, hi, State.whenRuns, hr, hh, h.1, h.2]
/-- A STATE frame on a port that is UP, whatever its body's bytes. -/
theorem witness_LinkStates_frame (a : Bool) : (takeHeader (inSt .up) 0 (head 0 4 (.state a))).port 0 = (inSt .up).port 0 ∧
    exec (.stateFrame 0 ⟨head 0 4 (.state a), a⟩) (inSt .up) = .next (takeState (takeHeader (inSt .up) 0 (head 0 4 (.state a))) 0 a) ∧
    ((takeState (takeHeader (inSt .up) 0 (head 0 4 (.state a))) 0 a).port 0).st = (if a then .up else .down) := by
  have hu : ((inSt .up).port 0).st = .up := by decide +kernel
  refine ⟨by cases a <;> decide +kernel, ?_, by cases a <;> decide +kernel⟩
  rw [← frame_taken (inSt .up) 0 0 4 (.state a) (fun s => takeState s 0 a) (by decide +kernel) (by decide +kernel)]
  show onIdentFrame (inSt .up) ((0 : Fin 10) : Nat) (head 0 4 (.state a)) (.state a) (fun s => takeState s ((0 : Fin 10) : Nat) a) = _
  simp only [Fin.val_zero]
  unfold onIdentFrame
  rw [hu]
theorem witness_LinkStates_light : (litS (inSt .down)).plat.lsEn = true ∧ (litS (inSt .down)).plat.train.opticalDone = true ∧ ((inSt .down).port 0).lightHold = false ∧
    2 ≤ ((inSt .down).port 0).lit ∧ 1 < (inSt .disabled).dims.getD 0 1 ∧
    portGoes (.lightAndLock 0 3) (litS (inSt .down)) .train ∧ portGoes (.lightAndLock 0 16) (litS (inSt .down)) .down ∧ portGoes (.downHoldExpiry 0) (litS (inSt .down)) .train ∧
    portGoes (.portEnable 0 true) (litS (inSt .disabled)) .train := by decide +kernel

def identB : IdentBody :=
  { lpv := 6, flags := 0, port := 1, serial := 4, site := 0, coord := ⟨1, 0, 0, 0⟩, expect := ⟨0, 0, 0, 0⟩, dims := ⟨2, 1, 1, 1⟩, peerNonce := 6, ownNonce := 7,
    pubkey := 0, certSig := 0, sig := 0 }
theorem witness_LinkIdentity : (inSt .ident).partsWf = true ∧ (inSt .ident).regsWf = true ∧ ((inSt .ident).port 0).accepted = false ∧ ((inSt .ident).port 0).peerNonce = none ∧
    nextIs (exec (.hello 0 ⟨head 0 4 (.hello 9), 9⟩) (inSt .ident)) (fun u => (u.port 0).peerNonce = some 9 && u.out.length = 1) = true ∧
    goesTo (exec (.hello 0 ⟨torn (head 0 4 (.hello 9)), 9⟩) (inSt .ident)) (inSt .ident) = true ∧
    nextIs (exec (.helloRepeat 0) (inSt .ident)) (fun u => lastBody u = some (.hello 6)) = true ∧
    joinOf (inSt .ident) 0 identB = .plain ∧ joinOf (inSt .ident) 0 { identB with coord := ⟨0, 0, 0, 0⟩ } = .refused := by decide +kernel
theorem witness_LinkIdentity_fault : identFault (inSt .ident) 0 { identB with peerNonce := 5 } = some 1 := by
  have h : ¬ 5#128 = ((inSt .ident).port 0).ownNonce := by decide +kernel
  simp [identFault, h]
def acceptS : State := (inSt .ident).modPort 0 (fun x => { x with accepted := true, txSeq := 4 })
theorem witness_LinkIdentity_up : acceptS.partsWf = true ∧ acceptS.runningJobs = [0] ∧
    (let s : State := { acceptS with jobs := [] }
     (exec (.stateFrame 0 ⟨head 0 4 (.state true), true⟩) s = .next (takeState s 0 true)) ∧
       (let u := takeState s 0 true
        (u.port 0).st = .up ∧ (u.port 0).txSeq = 0)) := by
  refine ⟨by decide +kernel, by decide +kernel, ?_, by decide +kernel⟩
  exact ident_taken { acceptS with jobs := [] } 0 0 4 (.state true) (fun s => takeState s 0 true) (by decide +kernel) (by decide +kernel) (by decide +kernel)
/-- An IDENT as it must be but for its signatures. -/
theorem witness_LinkIdentity_ident (b : IdentBody) (_ : identFault (inSt .ident) 0 b = some 3) :
    exec (.ident 0 ⟨head 0 4 (.ident b), b⟩) (inSt .ident) = .next (takeIdent (inSt .ident) 0 b) :=
  ident_taken (inSt .ident) 0 0 4 (.ident b) (fun s => takeIdent s 0 b) (by decide +kernel) (by decide +kernel) (by decide +kernel)

/-- Logical lane l on physical lane l, the spare is 4; lanes of a list are bad. -/
def laneS (bad : List (Nat × Nat)) : State :=
  let s := ((((inSt .up).setFld FAB_LANE_MAP_tx (1 * 8 + 2 * 64 + 3 * 512) 0).setFld FAB_LANE_MAP_rx (1 * 8 + 2 * 64 + 3 * 512) 0).setFld FAB_LANE_MAP_tx_spare 4 0).setFld FAB_LANE_MAP_rx_spare 4 0
  (s.setFld FAB_PORT_STATUS_data_lanes 4 0).modSpares (fun x => { x with lanes := bad })
theorem witness_Lanes_fail : (laneS []).partsWf = true ∧ (laneS []).regsWf = true ∧ (laneS []).laneBad 0 1 true = false ∧ (laneS []).laneLogical 0 true 1 = some 1 ∧
    (laneS []).fld (spareFld true) 0 = 4 ∧
    nextIs (exec (.laneFailure 0 1 true) (laneS [])) (fun u => u.lanePhys 0 true 1 = 4 && u.fld (spareFld true) 0 = 1 && (u.port 0).st = .up && u.fld FAB_PORT_STATUS_failed_lanes 0 = 2) = true ∧
    nextIs (exec (.laserFault [(0, 1)] false) (laneS [])) (fun u => u.lanePhys 0 false 1 = 4 && u.laneBad 0 1 false) = true ∧
    nextIs (exec (.laserFault [] true) (laneS [])) (fun u => u.fld HST_PORT_STATUS_link_up = 0) = true := by decide +kernel
theorem witness_Lanes_none_left : (laneS [(0, laneNo 4 true)]).laneBad 0 4 true = true ∧ (laneS []).fld FAB_PORT_STATUS_data_lanes 0 = 4 ∧
    nextIs (exec (.laneFailure 0 1 true) (laneS [(0, laneNo 4 true)])) (fun u => u.fld FAB_PORT_STATUS_data_lanes 0 = 3 && (u.port 0).st = .train) = true ∧
    nextIs (exec (.laneFailure 0 1 true) (laneS [(0, laneNo 4 true), (0, laneNo 3 true), (0, laneNo 2 true)])) (fun u => u.fld FAB_PORT_STATUS_data_lanes 0 = 1 &&
      (u.port 0).st = .down) = true := by decide +kernel
/-- A LANE frame, whatever its body's bytes. -/
theorem witness_Lanes_switch (rx : Bool) : let b : LaneBody := ⟨2, 4, rx, 0⟩
    let u := takeLane (takeHeader (laneS []) 0 (head 0 4 (.lane b))) 0 b
    (laneS []).fld (spareFld rx) 0 = 4 ∧ exec (.lane 0 ⟨head 0 4 (.lane b), b⟩) (laneS []) = .next u ∧ u.lanePhys 0 rx 2 = 4 ∧ u.fld (spareFld rx) 0 = 2 ∧
      (u.port 0).testRx = (if rx then some 2 else none) ∧ u.fld FAB_PORT_STATUS_spare_used 0 = (if rx then 0 else 1) := by
  refine ⟨by cases rx <;> decide +kernel, ?_, by cases rx <;> decide +kernel, by cases rx <;> decide +kernel, by cases rx <;> decide +kernel,
    by cases rx <;> decide +kernel⟩
  exact frame_taken (laneS []) 0 0 4 (.lane ⟨2, 4, rx, 0⟩) (fun s => takeLane s 0 ⟨2, 4, rx, 0⟩) (by decide +kernel) (by decide +kernel)

theorem witness_Lanes_rotate : ((laneS []).port 0).testTx = none ∧ rotNo 0 false ∉ (laneS []).spares.rotStop ∧ (laneS []).laneLogical 0 false ((4 + 1) % 5) = some 0 ∧
    nextIs (exec (.laneRotation 0) (laneS [])) (fun u => u.lanePhys 0 false 0 = 4 && (u.port 0).testTx = some 0 && u.fld (spareFld false) 0 = 0) = true ∧
    [true, false].all (fun pass => nextIs (exec (.prbsTestDone 0 3 pass) ((laneS []).modPort 0 (fun x => { x with testTx := some 3 }))) (fun u =>
      (u.port 0).testTx = none && u.fld SVC_BIST_RESULT_kind = 5 && u.laneBad 0 3 false = !pass)) = true := by decide +kernel

theorem witness_InOrder : InOrder twoS (pkt 1 0 128 [1, 2]) 0 := ⟨by decide +kernel, by decide +kernel, by decide +kernel, by decide +kernel, by decide +kernel, by decide +kernel, by decide +kernel⟩
/-- A put with a notify of event 3 of tile 2. -/
def notifyK : Packet := { pkt 1 0 128 [1, 2] with flags := 32, notify := 3 + 2 * 32 }
theorem witness_PacketsArrive_put : inJob (twoS.job 0).mask.toNat 128 2 = true ∧ notifyOk (twoS.job 0) notifyK = true ∧ twoS.partsWf = true ∧ twoS.regsWf = true ∧
    (twoS.writeAt 0 128 [1, 2]).2.1 = 0 ∧ (twoS.writeAt 0 128 [1, 2]).2.2 = [] ∧ (twoS.tile 2).wf = true ∧ (twoS.tile 2).evadds = [] ∧
    nextIs (exec (.putPacket notifyK) twoS) (fun u => rdN u.dram 128 2 = [1, 2] && (u.tile 2).event 3 = 1 && (u.stream 1 0 (pktClass notifyK)).expect = 1) = true := by
  decide +kernel
/-- A get of 8 bytes at 128, for the requester's address 4092. -/
def getK : Packet := pkt 2 0 128 (toBE 8 8 ++ toBE 8 4092)
theorem witness_PacketsArrive_get : inJob (twoS.job 0).mask.toNat 128 8 = true ∧ (twoS.readAt 128 8).2 = [] ∧ twoS.ue = [] ∧
    (getPackets twoS getK 4092 [1, 2, 3, 4, 5, 6, 7, 8]).map (fun q => (q.dstAddr.toNat, q.payload)) = [(4092, [1, 2, 3, 4]), (4096, [5, 6, 7, 8])] ∧
    nextIs (exec (.getReq getK) twoS) (fun u => (u.stream 1 0 (pktClass getK)).expect = 1) = true := by decide +kernel
theorem witness_PacketsArrive_order :
    nextIs (exec (.putPacket { pkt 1 0 128 [1, 2] with streamSeq := 1 }) twoS) (fun u => u.dram = twoS.dram && (u.stream 1 0 0).resent = [1]) = true ∧
    goesTo (exec (.logEntry { pkt 5 0 128 [1, 2] with streamSeq := 0xFFFFFFFF }) twoS) twoS = true := by decide +kernel
/-- The first packet of a put of two is held; a last one that leaves the job's memory writes nothing. -/
def halfK : Packet := { pkt 1 0 128 [1, 2] with pktCount := 2 }
theorem witness_PacketsArrive_parts :
    nextIs (exec (.putPacket halfK) twoS) (fun u => u.dram = twoS.dram && (u.stream 1 0 (pktClass halfK)).parts = [halfK] && (u.stream 1 0 (pktClass halfK)).expect = 0 &&
      (let k : Packet := { halfK with pktIndex := 1, dstAddr := BitVec.ofNat 64 (2 ^ 44) }
       (putCheck u 0 [halfK, k] ≠ 0) && nextIs (exec (.putPacket k) u) (fun v => v.dram = u.dram && (v.stream 1 0 (pktClass halfK)).expect = 1))) = true := by decide +kernel
/-- A log entry of 64 gradient bytes for row 2 of table 0 (length field at 18). -/
def logB : Bytes := List.replicate 8 0 ++ toLE 8 2 ++ toLE 2 0 ++ toLE 2 64 ++ List.replicate 12 0 ++ List.replicate 64 1
theorem witness_PacketsArrive_log : InOrder logS0 (pkt 5 0 0 logB) 0 ∧ logS0.partsWf = true ∧ logS0.regsWf = true ∧ (logS0.stream 1 0 0).parts = [] ∧ (logLand logS0 0 logB).2 = 0 ∧
    nextIs (exec (.logEntry (pkt 5 0 0 logB)) logS0) (fun u => (u.job 0).glog.map (fun e => (e.row.toNat, e.committed, e.grad.length)) = [(2, false, 64)] &&
      (u.stream 1 0 0).expect = 1) = true :=
  ⟨⟨by decide +kernel, by decide +kernel, by decide +kernel, by decide +kernel, by decide +kernel, by decide +kernel, by decide +kernel⟩, by decide +kernel⟩

/-- A transfer of tile 0, asynchronous instruction 9, to device 1. -/
def xfer0 : Xfer :=
  { id := 3, job := 0, tile := 0, async := 9, event := 3, log := false, get := false, cls := 0, seq := 0, dst := 1, dstAddr := 0, srcAddr := 128, len := 2,
    notify := none, data := [1, 2], got := [], resend := false, fullWait := false, status := 0, dom := 0, tag := 0 }
def xferS (l : List Xfer) : State :=
  (({ twoS with tiles := [(0, { tile5 with asyncs := [{ id := 9, ctx := 0, index := 5, kind := .launch, event := 3, done := 0, status := 0, part := 0, buf := [] }] })] }).modRouter
    (fun r => { r with xfers := l })).modPort 0 (fun p => { p with st := .up })
def complK (st : Byte) : Packet := pkt 4 0 0 [st]
theorem witness_TransfersEnd_completion : (xferS [xfer0]).partsWf = true ∧ (xferS [xfer0]).regsWf = true ∧ (xferS [xfer0]).xferOf (complK 0) = some xfer0 ∧
    nextIs (exec (.completion (complK 1)) (xferS [xfer0])) (fun u => u.router.xfers.map (·.resend) = [true]) = true ∧
    nextIs (exec (.completion (complK 9)) (xferS [xfer0])) (fun u => u.router.xfers.map (·.fullWait) = [true]) = true ∧
    nextIs (exec (.completion (complK 0)) (xferS [xfer0])) (fun u => u.router.xfers = [] && (u.tile 0).asyncs.isEmpty) = true := by decide +kernel
def getX : Xfer := { xfer0 with get := true }
theorem witness_TransfersEnd_get : (xferS [getX]).xferOf (pkt 3 0 4092 [1, 2]) = some getX ∧ ((xferS [getX]).writeAt 0 4092 [1, 2]).2.1 = 0 ∧
    ((xferS [getX]).writeAt 0 4092 [1, 2]).2.2 = [] ∧
    nextIs (exec (.getData (pkt 3 0 4092 [1, 2])) (xferS [getX])) (fun u => u.dram = [(4092, 1), (4093, 2)] && u.router.xfers = []) = true ∧
    nextIs (exec (.getData { pkt 3 0 4092 [1, 2] with pktCount := 2 }) (xferS [getX])) (fun u => u.dram = [(4092, 1), (4093, 2)] && u.router.xfers.map (·.got) = [[0]]) = true := by
  decide +kernel
def waitX : Xfer := { xfer0 with fullWait := true }
theorem witness_TransfersEnd_again : (xferS [{ xfer0 with resend := true }]).firstOfStream xfer0 = true ∧ (xferS [{ waitX with id := 2 }, waitX]).firstOfStream waitX = false ∧
    (xferS [xfer0]).ue = [] ∧ (((xferS [xfer0]).tile 0).asyncs.any (fun a => a.id = 9)) = true ∧
    nextIs (exec (.transferResend 3) (xferS [{ xfer0 with resend := true }])) (fun u => u.router.xfers.map (·.resend) = [false] && !u.out.isEmpty) = true ∧
    nextIs (exec (.fullResendDelay 3) (xferS [{ waitX with id := 2 }, waitX])) (fun u => u.router.xfers.map (fun x => (x.resend, x.fullWait)) = [(false, true), (true, false)]) = true ∧
    nextIs (exec (.e2eTimeout 3) (xferS [xfer0])) (fun u => u.router.xfers = [] && u.fld TILE_STATUS_async_err 0 = 1) = true := by decide +kernel

/-- Device 1 is isolated: both links to it are down here. -/
theorem witness_Announcements : twoS.partsWf = true ∧ twoS.regsWf = true ∧ (twoS.job 0).running = true ∧ (twoS.job 0).inSlice twoS.dims 1 = true ∧ twoS.self = 0 ∧
    twoS.isolated 0 1 = true ∧ twoS.jobOfTag 5 = some 0 ∧
    nextIs (exec (.linkState 5 (.down 1 2 100)) twoS) (fun u => u.router.down 1 2 && !u.router.down 1 3 &&
      goesTo (exec (.linkState 5 (.up 1 2 100)) u) u && nextIs (exec (.linkState 5 (.up 1 2 101)) u) (fun v => !v.router.down 1 2)) = true ∧
    goesTo (exec (.linkState 5 (.other 9)) twoS) twoS = true := by decide +kernel


/-! ## The delta exchange engine -/

/-- The partner device of site 1, and what this device holds of its stream. -/
def far1 : BitVec 32 := 4096
def peer0 : Peer := Peer.fresh far1 0
/-- One group of a shard that keeps 1.0 as its first element. -/
def blk (shard : BitVec 32) (round n first : Nat) : Block := rawBlock false shard round n first true [{ scale := 127, elems := [(0, 0x38)] }]
def assocP (kind : BitVec 8) : Assoc :=
  { kind := kind, page := 0, slot := 0, peer := far1, serial := 0, pubkey := 0,
    tx := { current := 0, previous := none, seq := 0, since := 0, wantNext := false, chain := 0, key := (0, 0), keyBefore := none }, rx := { current := 0, previous := none, seq := 0, since := 0, wantNext := false, chain := 0, key := (0, 0), keyBefore := none },
    heart1 := 4, heart2 := 0 }
/-- A job whose engine exchanges shard 0 of 256 elements with site 1; steps of one round each, step 3. -/
def dxS (f : Dxe → Dxe) : State :=
  let x : Dxe := { Dxe.reset with
    active := true, shards := [(0, 0, 0)], shardElems := 256, members := [0, 1], partners := [(0, 1, far1)], peers := [peer0], closeGroups := [0] }
  let s := { hostS with host := { HostPort.reset with neighbours := [0] }, jobs := [(0, { jobA with att := { Attempt.reset with started := true, dcloses := List.range 256 }, fedJob := 7, led := { Ledger.reset with contributors := 1 }, dxe := f x })] }
  let s := ((((s.setFld DXE_CTRL_h 1 0).setFld DXE_CTRL_topk 2 0).setFld DXE_WINDOW_window_bytes 1 0).setFld DXE_WINDOW_store_bytes 1 0).setFld STEP_NUMBER_step 3 0
  (((s.setFld SEC_PAGE_CTRL_bound 1 0).setFld SEC_PAGE_CTRL_job 0 0).setFld SEC_PAGE_CTRL_enc 0 0).modSec (fun x => { x with assocs := [assocP 2, assocP 3] })
def dx0 : State := dxS id
/-- The stream to the partner. -/
def peerOf (s : State) : Peer := ((s.job 0).dxe.peer far1).getD peer0

theorem witness_RoundClose : CloseDue dx0 0 2 ∧ dx0.halted blkDxe = false ∧ dx0.partsWf = true ∧ dx0.regsWf = true ∧ dx0.svc.paused = false :=
  ⟨⟨by decide +kernel, by decide +kernel, by decide +kernel, by decide +kernel, by decide +kernel, by decide +kernel, by decide +kernel⟩, by decide +kernel⟩
/-- The first weight is 1.0, or infinite. -/
def dxW (b : Byte) : State := { dx0 with dram := [(2, 0x80), (3, b)] }
theorem witness_RoundClose_delta :
    (((dxW 0x3F).job 0).dxe.shards.zipIdx.map (fun p => closeShard (dxW 0x3F) 0 2 p.2 p.1)).any (·.bad) = false ∧
    (((dxW 0x7F).job 0).dxe.shards.zipIdx.map (fun p => closeShard (dxW 0x7F) 0 2 p.2 p.1)).any (·.bad) = true ∧
    nextIs (exec (.roundClose 0) (dxW 0x3F)) (fun u => (u.job 0).dxe.own.map (fun c => (c.1, c.2.map (fun b => (b.groups.toNat, b.elemCount.toNat, b.final)))) = [(2, [(1, 1, true)])] &&
      (u.job 0).dxe.liveReading && u.lanes.length = 1) = true := by decide +kernel

def b0 : Block := blk 0 2 0 0
def sendS (f : Peer → Peer) : State := dxS (fun x => { x with peers := [f peer0], own := [(2, [b0])], closed := some 2 })
theorem witness_StreamsOut : (sendS id).partsWf = true ∧ (sendS id).regsWf = true ∧ (sendS id).halted blkDxe = false ∧ ((sendS id).job 0).running = true ∧
    (((sendS id).job 0).dxe.peer far1).isSome = true ∧
    (let s : State := { sendS id with lanes := [(0, far1, b0), (0, far1, blk 0 2 1 1)] }
     nextIs (exec (.blockEncodeDone 0 far1 1) s) (fun u => (peerOf u).outQ = [] && (peerOf u).coded = [blk 0 2 1 1] && u.lanes = [(0, far1, b0)] &&
       nextIs (exec (.blockEncodeDone 0 far1 0) u) (fun v => (peerOf v).outQ = [b0, blk 0 2 1 1] && (peerOf v).coded = [])) &&
     nextIs (exec (.blockEncodeDone 0 far1 0) s) (fun u => (peerOf u).outQ = [b0] && (peerOf u).coded = [])) = true ∧
    nextIs (exec (.blockSend 0 far1) (sendS (fun p => { p with outQ := [b0, blk 0 2 1 1] }))) (fun u => (peerOf u).unacked.map (·.block) = [0, 1] && (peerOf u).outQ = [] &&
      (u.job 0).dxe.inFlight = 2 * (32 + b0.body.length) && !u.out.isEmpty) = true ∧
    nextIs (exec (.blockResendTimeout 0 far1) (sendS (fun p => { p with unacked := [b0] }))) (fun u => (peerOf u).unacked = [b0] && !u.out.isEmpty) = true ∧
    (((sendS id).job 0).dxe.ownBlock (blockIdent b0)).isSome = true := by decide +kernel
/-- The code of the only gap and the only value that occur. -/
def tab : TableBody :=
  { retire := false, fp4 := false, id := 3, rsvZero := true, round := 2, gapLens := 1 :: List.replicate 255 0,
    valLens := List.replicate 0x38 0 ++ 1 :: List.replicate (255 - 0x38) 0 }
theorem witness_StreamsOut_table : tableOk tab = true ∧ buildTable false 3 2 [{ scale := 127, elems := [(0, 0x38)] }] = tab ∧
    nextIs (exec (.tableBuild 0 far1 2) (sendS id)) (fun u => (peerOf u).txTables = [⟨{ tab with id := 0 }, false, false⟩] && !u.out.isEmpty) = true ∧
    ((sendS (fun p => { p with txTables := [⟨tab, true, false⟩] })).job 0).dxe.peers.map (fun p => (p.code b0).raw) = [false] := by decide +kernel
def idOf (n : BitVec 32) : BitVec 32 × BitVec 64 × BitVec 32 := (0, 2, n)
theorem witness_StreamsOut_acks :
    ((sendS id).job 0).dxe.storeBytes + 4096 ≤ (sendS id).fld DXE_WINDOW_store_bytes 0 * 2 ^ 26 ∧
    nextIs (exec (.ackCoalesceExpiry 0 far1) (sendS (fun p => { p with ackDue := [idOf 1], refused := [idOf 2] }))) (fun u =>
      (peerOf u).ackDue = [] && (peerOf u).refused = [] && (peerOf u).gaps = [idOf 2] && u.out.length = 2) = true ∧
    nextIs (exec (.ackCoalesceExpiry 0 far1) ((sendS (fun p => { p with ackDue := [idOf 1], refused := [idOf 2] })).setFld DXE_WINDOW_store_bytes 0 0)) (fun u =>
      (peerOf u).ackDue = [] && (peerOf u).refused = [idOf 2] && (peerOf u).gaps = [] && u.out.length = 1) = true ∧
    ((sendS id).shardsWith 0 far1).contains 0 = true ∧
    nextIs (exec (.gapTimeout 0 0 2 [5, 6] far1) (sendS id)) (fun u => (peerOf u).gaps = [idOf 5, idOf 6]) = true ∧
    nextIs (exec (.nackResend 0 0 2 far1) (sendS (fun p => { p with gaps := [idOf 5] }))) (fun u => (peerOf u).gaps = [idOf 5] && u.out.length = 1) = true ∧
    nextIs (exec (.nackResend 0 0 2 far1) ((sendS (fun p => { p with gaps := [idOf 5] })).modDxe 0 (fun x => { x with settled := [(1, 2)] }))) (fun u => (peerOf u).gaps = []) = true := by
  decide +kernel

/-- A datagram of page 0 from the partner, not tagged. -/
def dg : Ubtik := { page := 0, context := 7, src := far1, keyEpoch := 0, length := 0, msg := 1, tagged := false, tagOk := true, mismatches := 0 }
theorem witness_StreamsIn : ([3, 4, 6, 7] : List Nat).all (fun c => decide (admitJob dx0 dg pairRx c 2 = (dx0, some (0, assocP 2)))) = true ∧ (((dx0.job 0).dxe.peer far1) = some peer0) := by decide +kernel
theorem witness_BlockFits : BlockFits dx0 0 far1 peer0 (blk 0 0 0 0) :=
  ⟨by decide +kernel, by decide +kernel, by decide +kernel, by decide +kernel, by decide +kernel, by decide +kernel, by decide +kernel, by decide +kernel, by decide +kernel, by decide +kernel⟩
theorem witness_StreamsIn_blocks :
    nextIs (exec (.delta dg [blk 0 0 0 0] true) dx0) (fun u => (u.job 0).dxe.store = [(far1, blk 0 0 0 0)] && (peerOf u).ackDue = [(0, 0, 0)] &&
      nextIs (exec (.delta dg [blk 0 0 0 0] true) u) (fun v => (v.job 0).dxe.store = (u.job 0).dxe.store && (peerOf v).ackDue = [(0, 0, 0), (0, 0, 0)])) = true ∧
    blockFormOk { blk 0 0 0 0 with tableId := 1 } = false ∧
    goesTo (exec (.delta dg [{ blk 0 0 0 0 with tableId := 1 }] true) dx0) (dx0.count DXE_STATUS_corrupt 1 0) = true := by decide +kernel
theorem witness_StreamsIn_tables :
    nextIs (exec (.table dg tab) dx0) (fun u => (peerOf u).rxTables = [⟨tab, false, false⟩] &&
      nextIs (exec (.tableRetire dg { tab with retire := true, gapLens := [], valLens := [] }) u) (fun v => (peerOf v).rxTables = [])) = true ∧
    tableOk { tab with rsvZero := false } = false ∧ goesTo (exec (.table dg { tab with rsvZero := false }) dx0) (dx0.count DXE_STATUS_protocol 1 0) = true := by decide +kernel
/-- Block 0 of shard 0 in round 2; and table 3. -/
def ackB (cls reason : BitVec 8) (a c : Nat) : AckBody := { cls := cls, reason := reason, ref := 2, entries := [⟨BitVec.ofNat 32 a, 0, BitVec.ofNat 32 c⟩] }
theorem witness_StreamsIn_acks :
    nextIs (exec (.ack dg (ackB 3 0 0 65536)) (sendS (fun p => { p with unacked := [b0] }))) (fun u => (peerOf u).unacked = []) = true ∧
    (3 * 2 ^ 24).testBit 23 = false ∧
    nextIs (exec (.ack dg (ackB 4 0 (3 * 2 ^ 24) 0)) (sendS (fun p => { p with txTables := [⟨{ tab with id := 1, round := 1 }, true, false⟩, ⟨tab, false, false⟩] }))) (fun u =>
      (peerOf u).txTables.map (fun t => (t.acked, t.retiring)) = [(true, true), (true, false)]) = true ∧
    nextIs (exec (.nack dg (ackB 3 1 0 65536)) (sendS id)) (fun u => (peerOf u).unacked = [b0]) = true := by decide +kernel

def heart (seq : BitVec 32) (hp : Bool) : HeartBody :=
  { seq := seq, txTime := 0, secondary := false, hearsPrimary := hp, hearsSecondary := true, exchange := false, shard := 0 }
theorem witness_PartnerPaths_heart :
    goesTo (exec (.heart dg (heart 3 true)) dx0) dx0 = true ∧
    nextIs (exec (.heart dg (heart 4 true)) dx0) (fun u => (peerOf u).primary.samples.length = 1 && u.sec.assocs.map (·.heart1) = [5, 4]) = true ∧
    nextIs (exec (.heart dg (heart 4 false)) dx0) (fun u => (peerOf u).second) = true := by decide +kernel
theorem witness_PartnerPaths_silence : ((dx0.job 0).dxe.partners[0]?) = some (0, 1, far1) ∧
    nextIs (exec (.pathSilence 0 0 false) dx0) (fun u => (peerOf u).second && (peerOf u).primary.silent && u.fld DXE_STATUS_failovers 0 = 1) = true ∧
    nextIs (exec (.pathSilence 0 0 true) dx0) (fun u => !(peerOf u).second && (peerOf u).secondary.silent) = true ∧
    nextIs (exec (.pathReturn 0 0) (dxS (fun x => { x with peers := [{ peer0 with second := true }] }))) (fun u => !(peerOf u).second) = true ∧
    ((dx0.job 0).dxe.peers.map (·.dev)).Nodup ∧
    nextIs (exec (.heartSend 0) dx0) (fun u => (peerOf u).primary.seq = 1 && (peerOf u).secondary.seq = 1 && u.out.length = 2) = true := by decide +kernel


/-! ## Manifests and installation: a device of site 0 that is its lead, and messages under its own key -/

/-- Shard 0 of two elements, held and exchanged here, and shard 1, exchanged by another group. -/
def mfS (f : Dxe → Dxe) : State :=
  (dxS (fun x => f { x with shardElems := 2, shards := [(0, 0, 0), (1, 0, 2)], closeGroups := [0, 1] })).modSec (fun x => { x with assocs := [assocP 2, assocP 3] })
def mf0 : State := mfS id
/-- A message of one fragment, and its state once that has come and is acknowledged. -/
def whole (b : Bytes) (sig : BitVec 912) : Frag := ⟨0, 1, true, signedMessage b sig⟩
def gotF : Fragments := { peer := far1, msg := 1, outbound := false, waiting := [], count := 1, parts := [] }
def mfT (f : Dxe → Dxe) : State := ackAll (noted (mfS f) dg gotF) 0 dg 1
def man0 : ManifestBody :=
  { takeover := false, issuer := 0, fedJob := 7, round := 0, nextDeadline := 0, nextBeacon := 1, eta := 0x3F800000, mu := 0, baseDigest := 0, prevSeal := 0,
    members := [(0, 0), (1, 0)], contribs := [], absents := [], sig := 0 }
theorem witness_SignedMessages : mf0.svc.paused = false ∧ siteOf dg.src ≠ mf0.site ∧ admitJob mf0 dg pairRx 5 3 = (mf0, some (0, assocP 3)) ∧ mf0.partsWf = true ∧
    (fragsOf mf0 dg).all (fun p => !p.waiting.isEmpty) = true ∧ ((mfT id).job 0).dxe.active = true := by decide +kernel
/-- A message that comes whole and verifies under its lead's key. -/
theorem witness_SignedMessages_genuine (b : Bytes) (sig : BitVec 912) (n : b.length ≤ 4096) (h : Config.ed448Verify ctxManifest 0 b sig = true) :
    ∃ p, addPart (partial' mf0 dg (whole b sig)) (whole b sig) = some p ∧ p.waiting = [] ∧ { p with parts := [] } = gotF ∧
      joinParts p = signedMessage b sig ∧ (mfT id).signedBy dg.src b sig = true := by
  have hf : fragsOf mf0 dg = none := by decide +kernel
  have ho : ¬ dg.src.toNat = (mfT id).origin := by decide +kernel
  have hk : (mfT id).peerKey dg.src = some 0 := by decide +kernel
  refine ⟨{ gotF with parts := [(0, signedMessage b sig)] }, ?_, rfl, rfl, ?_, ?_⟩
  · have hl : ¬ 1048576 < (signedMessage b sig).length := by simp [signedMessage, toBE, toLE]; omega
    have hp : partial' mf0 dg (whole b sig) = { gotF with waiting := [0] } := by unfold partial'; rw [hf]; rfl
    rw [hp]; simp [addPart, whole, gotF, fragLimit, hl]
  · simp [joinParts, gotF, assoc]
  · unfold State.signedBy; rw [if_neg ho, hk]; exact h
/-- Fragments: of a message already complete, one that disagrees with its message, and the first of two; and a message that is not its bytes. -/
def joinB : JoinBody := { site := 1, fedJob := 7, round := 0, sig := 0 }
theorem witness_SignedMessages_fragments :
    (let s := noted mf0 dg gotF
     goesTo (exec (.join dg ⟨⟨0, 1, true, []⟩, joinB⟩) s) (ackAll s 0 dg 1)) = true ∧
    goesTo (exec (.join dg ⟨⟨1, 1, true, []⟩, joinB⟩) mf0) (mf0.count DXE_STATUS_discarded 1 0) = true ∧
    goesTo (exec (.join dg ⟨⟨0, 2, false, [1]⟩, joinB⟩) mf0) (noted mf0 dg { gotF with waiting := [1], count := 2, parts := [(0, [1])] }) = true ∧
    goesTo (exec (.join dg ⟨⟨0, 1, true, [1]⟩, joinB⟩) mf0) ((mfT id).count DXE_STATUS_discarded 1 0) = true := by decide +kernel
/-- Round 1, of which site 1 is the beacon, after a first that is sealed. -/
def roundOne : Dxe → Dxe := fun x => { x with bundles := [(0, man0, 0)], sealedNext := 1, installed := 1 }
def man1 : ManifestBody := { man0 with issuer := 1, round := 1, prevSeal := manifestDigest man0 }
theorem witness_SignedMessages_manifest : man1.issuer = siteOf dg.src ∧ man1.fedJob = ((mfT roundOne).job 0).fedJob ∧ man1.round.toNat = ((mfT roundOne).job 0).dxe.sealedNext ∧
    issuerOk (mfT roundOne) 0 man1 = true ∧
    man1.prevSeal = ((((mfT roundOne).job 0).dxe.bundles.find? (fun e => decide (e.1 + 1 = 1))).map (fun e => manifestDigest e.2.1)).getD 0 ∧
    (((mfT roundOne).job 0).dxe.round 1).isNone = true ∧
    baseDigest (mfT roundOne) 0 1 = some man1.baseDigest ∧ baseDigest (mfT roundOne) 0 1 ≠ some { man1 with baseDigest := 9 }.baseDigest := by
  refine ⟨by decide +kernel, by decide +kernel, by decide +kernel, by decide +kernel, ?_, by decide +kernel, by decide +kernel, by decide +kernel⟩
  have h : ((mfT roundOne).job 0).dxe.bundles = [(0, man0, 0)] := by decide +kernel
  rw [h]; rfl
def csign (site : BitVec 16) : CountersignBody := { site := site, fedJob := 7, round := 0, manifestDigest := manifestDigest man0, anchorDigest := 5, sig := 0 }
/-- The manifest accepted, with the countersignatures of sites. -/
def signedS (l : List (BitVec 16)) : Dxe → Dxe := fun x => { x with rounds := [{ Round.fresh 0 with manifest := some man0, stage := .computing, signs := l.map csign }] }
theorem witness_SignedMessages_countersign : (csign 1).site = siteOf dg.src ∧ (csign 1).round.toNat = ((mfT (signedS [])).job 0).dxe.sealedNext ∧
    (((mfT (signedS [0])).job 0).dxe.round 0).map (·.manifest) = some (some man0) ∧
    (∀ q ∈ [csign 0, csign 1], q.manifestDigest = manifestDigest man0 ∧ q.anchorDigest = 5) ∧
    majority (distinct [1]) 2 = false ∧ majority (distinct [0, 1]) 2 = true := by
  refine ⟨by decide +kernel, by decide +kernel, by decide +kernel, ?_, by decide, by decide⟩
  intro q hq; simp at hq; rcases hq with rfl | rfl <;> exact ⟨rfl, rfl⟩
def receiptB (site absent : BitVec 16) : ReceiptBody := { site := site, fedJob := 7, round := 0, absentIssuer := absent, entries := [], sig := 0 }
theorem witness_SignedMessages_receipt : (receiptB 1 0xFFFF).site = siteOf dg.src ∧ (receiptB 1 0).site ∈ ((mfT id).job 0).dxe.members ∧
    (mfT id).isLeadDevice 0 = true ∧ ((mfT id).job 0).dxe.beacon 0 = (mfT id).site ∧ joinB.site = siteOf dg.src ∧
    (let x : State := mfT (fun x => { x with rounds := [{ Round.fresh 0 with receipts := [receiptB 0 0xFFFF] }] })
     ((x.job 0).dxe.round 0).map (fun z => (z.manifest, z.declared.contains x.site, z.receipts.map (·.site))) = some (none, false, [0])) := by decide +kernel

/-- A time at which a round of the device has come. -/
def atTime (n : Nat) (f : Dxe → Dxe) : State := { mfS f with clock := { (mfS f).clock with siteTime := n } }
def roundOf (u : State) (r : Nat) : Option Round := (u.job 0).dxe.round r
theorem witness_RoundTimes : mf0.partsWf = true ∧ mf0.blocksRun = true ∧ mf0.svc.paused = false ∧ (mf0.job 0).running = true ∧ (mf0.job 0).dxe.active = true ∧
    mf0.isLeadDevice 0 = true ∧ (mf0.job 0).dxe.beacon 0 = mf0.site ∧ (roundOf mf0 0).isNone = true ∧ (mf0.job 0).dxe.grace = 2000000 ∧ mf0.deadline 0 0 = 0 := by decide +kernel
theorem witness_RoundTimes_cutoff : (atTime 1999999 id).past 0 0 1 = false ∧ (atTime 2000000 id).past 0 0 1 = true ∧
    goesTo (exec (.cutoff 0 0 []) (atTime 1999999 id)) (atTime 1999999 id) = true ∧
    nextIs (exec (.cutoff 0 0 [[(1, 0)]]) (atTime 2000000 id)) (fun u => (roundOf u 0).map (fun y => (y.cut, y.reports, y.receiptSent, y.receipts.map (·.site))) =
      some (true, [[], [(1, 0)]], true, [0])) = true := by decide +kernel
theorem witness_RoundTimes_deadline : (atTime 3999999 id).past 0 0 2 = false ∧ (atTime 4000000 id).past 0 0 2 = true ∧
    goesTo (exec (.manifestDeadline 0) (atTime 3999999 id)) (atTime 3999999 id) = true ∧
    nextIs (exec (.manifestDeadline 0) (atTime 4000000 id)) (fun u => (roundOf u 0).map (fun y => (y.stage, y.manifest.map (fun b => (b.issuer, b.takeover)))) =
      some (.computing, some (0, false))) = true := by decide +kernel
theorem witness_RoundTimes_absent : (atTime 6000000 id).past 0 0 3 = true ∧
    nextIs (exec (.beaconAbsent 0) (atTime 6000000 id)) (fun u => (roundOf u 0).map (fun y => (y.declared, y.absents.map (fun d => (d.site, d.absentIssuer)))) =
      some ([0], [(0, 0)])) = true ∧
    (let gone : Dxe → Dxe := fun x => { x with rounds := [{ Round.fresh 0 with declared := [0] }] }
     ((atTime 0 gone).job 0).dxe.gone ((roundOf (atTime 0 gone) 0).getD (Round.fresh 0)) = [0] ∧
     (atTime 0 gone).takeoverIssued 0 ((roundOf (atTime 0 gone) 0).getD (Round.fresh 0)) = 6000000 ∧
     goesTo (exec (.takeoverTimeout 0) (atTime 11999999 gone)) (atTime 11999999 gone) = true ∧
     nextIs (exec (.takeoverTimeout 0) (atTime 12000000 gone)) (fun u => (roundOf u 0).map (·.declared) = some [0, 1]) = true) := by decide +kernel
/-- Both sites named one manifest, with two anchors. -/
def splitY : Dxe → Dxe := fun x => { x with rounds := [{ Round.fresh 0 with signs := [{ csign 0 with manifestDigest := 9 }, { csign 1 with manifestDigest := 9, anchorDigest := 6 }] }] }
theorem witness_RoundTimes_split :
    nextIs (exec (.anchorDigestTimeout 0) (atTime 6000000 splitY)) (fun u => (u.job 0).phase = .aborting && (u.job 0).att.fault) = true ∧
    goesTo (exec (.anchorDigestTimeout 0) (atTime 5999999 splitY)) (atTime 5999999 splitY) = true ∧
    goesTo (exec (.anchorDigestTimeout 0) (atTime 6000000 id)) (atTime 6000000 id) = true := by decide +kernel
theorem witness_RoundTimes_stall : mf0.roundNow 0 - (mf0.job 0).dxe.sealedNext = 3 ∧ goesTo (exec (.stallLimit 0) (mf0.setFld DXE_STALE_CFG_stall_limit 3 0)) (mf0.setFld DXE_STALE_CFG_stall_limit 3 0) = true ∧
    goesTo (exec (.stallLimit 0) (mf0.setFld DXE_STALE_CFG_stall_limit 2 0)) ((mf0.setFld DXE_STALE_CFG_stall_limit 2 0).notify 5 0 3) = true := by decide +kernel
def sentF : Fragments := { peer := far1, msg := 9, outbound := true, waiting := [0, 1], count := 2, parts := [(0, [1, 2]), (1, [3])] }
def fragS : State := mf0.modHost (fun h => { h with frags := [sentF, { gotF with msg := 4, waiting := [2], count := 3 }, gotF] })
theorem witness_RoundTimes_fragments : fragS.host.frags.filter (fun f => f.outbound && decide (f.msg = 9) && f.waiting.contains 1) = [sentF] ∧
    (fragS.sec.assocs.find? (fun a => decide (a.kind = 3) && decide (a.peer = far1))).map (fun a => fragS.pageEnc a.page) = some false ∧
    nextIs (exec (.fragmentResend 9 1) fragS) (fun u => u.out.map (fun o => match o with
      | .udp _ o => some o
      | _ => none) = [some (.fragment far1 9 1 2 [3])]) = true ∧
    nextIs (exec (.fragmentDiscard far1 4) fragS) (fun u => u.host.frags = [sentF, gotF]) = true := by decide +kernel

/-- The contribution of site 0 in round 0: 1.0 in its first element (code 0x38 scaled by 1). -/
def contrib0 : ManifestBody := { man0 with contribs := [{ site := 0, age := 0, round := 0, weight := 0x3F800000 }] }
def nextS (copies : List (BitVec 32)) : State :=
  mfS (fun x => { x with own := [(0, [blk 0 0 0 0])], rounds := [{ Round.fresh 0 with manifest := some contrib0, stage := .computing, copies := copies }] })
theorem witness_NextCopies : (nextS []).partsWf = true ∧ (nextS []).regsWf = true ∧ ((nextS []).job 0).wf = true ∧ (((nextS []).job 0).dxe.round 0).isSome = true ∧
    ((nextS []).job 0).dxe.installed = 0 ∧ (nextS []).halted blkDxe = false ∧ missingOf (nextS []) 0 contrib0 = [] ∧ (nextS []).exchanges 0 0 = true ∧ (nextS []).exchanges 0 1 = false ∧
    (outerUpdate (nextS []) 0 0 0 contrib0).map (fun p => (p.1.toNat, p.2.toNat)) = [(0x3F800000, 0x3F800000), (0, 0)] ∧ ((nextS []).job 0).dxe.shardIndex 1 = some 1 := by decide +kernel
theorem witness_NextCopies_digests (a : List (BitVec 32)) : shardDigest a = shardDigest a ∧ shardDigest a ≠ shardDigest a + 1 :=
  ⟨rfl, fun h => by simp at h⟩
/-- A fetch of the base of a waiting manifest, or of the target's anchor, from site 1: both shards have come, A and M of each. -/
def fetchS (base : Bool) (want : BitVec 256) : State :=
  mfS (fun x => { x with refetch := some (1, base), gotShards := [(0, [1, 2], [0, 3]), (1, [4, 5], [6, 7])],
                         rounds := [{ Round.fresh 0 with waiting := some { man0 with baseDigest := want }, sealedDigest := some want, stage := .sealed }] })
theorem witness_NextCopies_refetch : ((fetchS true 0).job 0).dxe.joining = none ∧ ((fetchS true 0).job 0).dxe.refetch = some (1, true) ∧
    fetchedTables ((fetchS true 0).job 0).dxe = some ([(0, 1), (1, 2), (2, 4), (3, 5)], [(1, 3), (2, 6), (3, 7)]) ∧ fetchedTables (mf0.job 0).dxe = none ∧
    (fetchS true 0).partsWf = true ∧ ((fetchS false 0).job 0).dxe.target = 0 ∧ ((roundOf (fetchS false 7) 0).bind (·.sealedDigest)) = some 7 ∧
    goesTo (exec (.refetchDone 0 1 true []) mf0) mf0 = true ∧
    nextIs (exec (.refetchTimeout 0) (fetchS true 0)) (fun u => (u.job 0).dxe.refetch = some (1, true) && (u.job 0).dxe.gotShards.isEmpty) = true ∧
    nextIs (exec (.refetchTimeout 0) (mfS (fun x => { x with joining := some 1 }))) (fun u => (u.job 0).dxe.joining = some 1) = true := by decide +kernel
/-- The digest that the fetched values have, whatever the hash: it is the one wanted, or it is not. -/
theorem witness_NextCopies_fetched : ∃ d, siteDigest (fetchS false 0) 0 [(0, 1), (1, 2), (2, 4), (3, 5)] [] = some d ∧ some d ≠ some (d + 1) := by
  refine ⟨_, rfl, fun h => ?_⟩
  simp at h
def heldS : State :=
  ((mfS (fun x => { x with rounds := [{ Round.fresh 0 with manifest := some contrib0, stage := .ready }], anchorNext := [(0, 6)], own := [(0, []), (1, [])] })).modJob 0 (fun x =>
    { x with phase := .repairing, holdAct := true }))
theorem witness_NextCopies_install : heldS.partsWf = true ∧ (heldS.job 0).wf = true ∧ (heldS.job 0).holdAct = true ∧ (heldS.job 0).anchorReady = true ∧
    ((heldS.job 0).dxe.round (heldS.job 0).dxe.target).bind (·.manifest) = some contrib0 ∧ goesTo (exec (.installationAct 0 false) heldS) heldS = true := by decide +kernel


/-! ## The host port -/

def dgC (n : Nat) : Ubtik :=
  { page := 0xFF, context := 3, src := 0xFFFFFFFF, keyEpoch := 0, length := 0, msg := BitVec.ofNat 64 n, tagged := true, tagOk := true, mismatches := 0 }
def path7 : NetPath := ⟨7, 5, 1, 0⟩
def rq (n : Nat) : Req := { head := dgC n, path := path7 }
def sess : Session := { id := 3, host := 0, path := path7, last := 4, kept := [(4, 1, ⟨0, []⟩)], held := [], busy := none, mask := 0, noticeNext := 1, notices := [⟨0, 2, 255, 0, 0⟩], dropped := 0 }
def assocH : Assoc := { assocP 1 with page := 255, slot := 3, peer := 0xFFFFFFFF }
/-- The pair served the host last. -/
def servedH : Pair := { current := none, suspended := none, waiting := [], served := [4] }
/-- A session in slot 3, whose latest request is 4; a job is in an open attempt. -/
def ctlS (x : Session) : State := (hostS.modHost (fun h => { h with sessions := [(3, x)], neighbours := [0] })).modSec (fun z => { z with assocs := [assocH], pairs := [(1, servedH)] })
def ctl0 : State := ctlS sess
/-- Without a job. -/
def ctlN : State := { ctl0 with jobs := [] }
theorem witness_NextRequest : NextRequest ctl0 3 sess (rq 5) ∧ NextRequest ctlN 3 sess (rq 5) :=
  ⟨⟨by decide +kernel, by decide +kernel, by decide +kernel, by decide +kernel, by decide +kernel, by decide +kernel, by decide +kernel, by decide +kernel⟩,
   ⟨by decide +kernel, by decide +kernel, by decide +kernel, by decide +kernel, by decide +kernel, by decide +kernel, by decide +kernel, by decide +kernel⟩⟩
theorem witness_Admits : Admits ctl0 ctl0 3 (rq 5) ∧ Admits ctlN ctlN 3 (rq 5) :=
  ⟨⟨by decide +kernel, by decide +kernel, by decide +kernel⟩, ⟨by decide +kernel, by decide +kernel, by decide +kernel⟩⟩
theorem keyed_of (s : State) (h : s.passes pairTx true = true) (e : s.sec.assocs = [assocH]) : Keyed s 3 :=
  ⟨h, ⟨assocH, by rw [e]; exact List.mem_singleton.mpr rfl, rfl, rfl⟩, by
    rw [e]; intro a ha _ _; obtain rfl := List.mem_singleton.mp ha; exact ⟨by decide, by decide, by decide⟩⟩
theorem witness_Keyed : Keyed ctl0 3 ∧ Keyed ctlN 3 := ⟨keyed_of ctl0 (by decide +kernel) rfl, keyed_of ctlN (by decide +kernel) rfl⟩
/-- The request was answered with a status and data. -/
def gets (r : Res) (n op st : Nat) (data : Bytes) : Bool := nextIs r (fun u => u.out.any (fun o => match o with
    | .udp h o => decide (o = .response 3 (BitVec.ofNat 64 n) op ⟨BitVec.ofNat 8 st, data⟩) && decide (h.path = path7)
    | _ => false))

theorem witness_RequestOrder : ctl0.hostUp = true ∧ ctl0.passes pairRx true = true ∧
    gets (exec (.ctrlNop (rq 4) 1 0) ctl0) 4 1 0 [] = true ∧ goesTo (exec (.ctrlNop (rq 3) 1 0) ctl0) ctl0 = true ∧ goesTo (exec (.ctrlNop (rq 21) 1 0) ctl0) ctl0 = true ∧
    nextIs (exec (.ctrlNop (rq 20) 1 0) ctl0) (fun u => u.host.sessions.map (fun p => p.2.held.map (·.1)) = [[20]] && goesTo (exec (.drain (rq 20)) u) u) = true ∧
    (let s := ctlS { sess with busy := some 5 }
     goesTo (exec (.ctrlNop (rq 5) 1 0) s) s = true ∧ nextIs (exec (.ctrlNop (rq 6) 1 0) s) (fun u => u.host.sessions.map (fun p => p.2.held.map (·.1)) = [[6]]) = true) ∧
    goesTo (exec (.ctrlNop { rq 5 with head := { dgC 5 with tagged := false } } 1 0) ctl0) (ctl0.count SEC_STATUS_admit_fail) = true ∧
    goesTo (exec (.ctrlNop { rq 5 with head := { dgC 5 with context := 11 } } 1 0) ctl0) (ctl0.count SEC_STATUS_admit_fail) = true := by decide +kernel

theorem witness_RequestsAnswered : gets (exec (.ctrlNop (rq 5) 1 0) ctl0) 5 1 0 [] = true ∧ gets (exec (.ctrlNop (rq 5) 1 1) ctl0) 5 1 6 [] = true ∧ gets (exec (.ctrlNop (rq 5) 0x99 0) ctl0) 5 0x99 6 [] = true ∧ permitted ctl0 0x99 = true ∧ permitted ctl0 1 = true ∧
    (let s := ctl0.modPlat (fun p => { p with dev := .train })
     permitted s 3 = false ∧ permitted s 2 = true ∧ s.memOpen = false ∧ gets (exec (.write (rq 5) 64 [1]) s) 5 3 5 [] = true ∧ gets (exec (.read (rq 5) 64 1) s) 5 2 5 [] = true) := by
  decide +kernel
def ctlM : State := { ctl0 with dram := [(64, 9), (65, 8)] }
theorem witness_RequestsAnswered_read : placeOf 64 2 = .dram ∧ ctlM.memOpen = true ∧ ctlM.ue = [] ∧ placeOf (2 ^ 63) 8 = .none ∧ placeOf regBase 8 = .regs ∧
    gets (exec (.read (rq 5) 64 2) ctlM) 5 2 0 [9, 8] = true ∧ gets (exec (.read (rq 5) 64 0) ctlM) 5 2 6 [] = true ∧ gets (exec (.read (rq 5) 64 8193) ctlM) 5 2 6 [] = true ∧
    gets (exec (.read (rq 5) (BitVec.ofNat 64 (2 ^ 63)) 8) ctlM) 5 2 1 [] = true ∧ gets (exec (.read (rq 5) (BitVec.ofNat 64 (regBase + 4)) 8) ctlM) 5 2 1 [] = true ∧
    gets (exec (.read (rq 5) (BitVec.ofNat 64 regBase) 8) ctlM) 5 2 0 (readRegs ctlM 3 0 8) = true := by decide +kernel
theorem witness_RequestsAnswered_subscribe : nextIs (exec (.subscribe (rq 5) 0x8002) ctl0) (fun u => u.host.sessions.map (·.2.mask) = [0x8002]) = true ∧
    gets (exec (.subscribe (rq 5) 1) ctl0) 5 0x30 6 [] = true := by decide +kernel

theorem witness_RequestsAct_write : permitted ctl0 3 = true ∧ ctl0.partsWf = true ∧ ctl0.regsWf = true ∧ ctl0.dramWf = true ∧ ctlN.runningJobs = [] ∧
    gets (exec (.write (rq 5) 64 [1, 2]) ctlN) 5 3 0 [] = true ∧ nextIs (exec (.write (rq 5) 64 [1, 2]) ctlN) (fun u => u.dram = [(64, 1), (65, 2)]) = true ∧
    (let s := withRegion ctl0
     0 ∈ s.runningJobs ∧ s.refuses 0 0x800000 2 = true ∧ gets (exec (.write (rq 5) 0x800000 [1, 2]) s) 5 3 3 [] = true) := by decide +kernel
def startA : JobArgs := { job := 0, mask := 1, tag := 9, origin := ⟨0, 0, 0, 0⟩, extent := ⟨1, 1, 1, 1⟩, fedJob := 0 }
def ctlR : State := ctlN.modPlat (fun p => { p with dev := .ready })
theorem witness_RequestsAct_start : (startCheck ctlN startA).2 = 0 ∧ (startCheck ctl0 { startA with job := 1 }).2 = 7 ∧ NextRequest ctlR 3 sess (rq 5) ∧ permitted ctlR 0x10 = true ∧
    gets (exec (.jobStart (rq 5) { startA with job := 1 }) ctl0) 5 0x10 7 [] = true :=
  ⟨by decide +kernel, by decide +kernel,
   ⟨by decide +kernel, by decide +kernel, by decide +kernel, by decide +kernel, by decide +kernel, by decide +kernel, by decide +kernel, by decide +kernel⟩, by decide +kernel⟩
def betweenS : State := ctl0.modJob 0 (fun x => { x with att := Attempt.reset })
theorem witness_RequestsAct_stop : permitted ctl0 0x11 = true ∧ (ctl0.job 0).running = true ∧ (betweenS.job 0).att.started = false ∧ (betweenS.job 0).phase = .opened ∧
    (ctl0.job 0).att.reason = none ∧ betweenS.host.sessions.map (·.1) = [3] ∧
    gets (exec (.jobStop (rq 5) 4 0) ctl0) 5 0x11 6 [] = true ∧ gets (exec (.jobStop (rq 5) 1 0) ctl0) 5 0x11 0 [] = true ∧
    nextIs (exec (.jobStop (rq 5) 0 1) ctl0) (fun u => (u.job 0).att.stopCommit && u.host.sessions.map (·.2.busy) = [some 5] && u.out = ctl0.out) = true := by decide +kernel
/-- Page 2 is bound to job 0. -/
def pageS (s : State) : State := ((s.setFld SEC_PAGE_CTRL_bound 1 2).setFld SEC_PAGE_CTRL_job 0 2).setFld SEC_PAGE_CTRL_enc 1 2
theorem witness_RequestsAct_bulk : permitted (pageS ctl0) 0x20 = true ∧ (pageS ctl0).fencedPair pairBulk = false ∧ (pageS ctl0).pageHolds 2 64 100 = true ∧
    (pageS ctl0).host.bulks = [] ∧
    nextIs (exec (.bulkImport (rq 5) 64 100 2) (pageS ctl0)) (fun u => u.host.bulks.map (fun b => (b.id, b.inbound, b.addr, b.len)) = [((pageS ctl0).host.bulkNext, true, 64, 100)]) = true ∧
    nextIs (exec (.bulkExport (rq 5) 64 100 7 2) (pageS ctl0)) (fun u => u.host.bulks.map (fun b => (b.inbound, b.addr, b.unacked)) = [(false, 64, [0])]) = true ∧
    (let s := (pageS ctl0).setFld SEC_CMP_FAULT_fenced 4
     s.fencedPair pairBulk = true ∧ gets (exec (.bulkImport (rq 5) 64 100 2) s) 5 0x21 5 [] = true) := by decide +kernel
theorem witness_RequestsAct_rest : permitted ctl0 0x40 = true ∧ permitted ctl0 0x41 = true ∧ permitted ctl0 0x42 = true ∧ ctlN.plat.dev ≠ .drain ∧ (ctl0.job 0).att.started = true ∧
    nextIs (exec (.drain (rq 5)) ctl0) (fun u => u.plat.dev = .drain) = true ∧ nextIs (exec (.drain (rq 5)) ctlN) (fun u => u.plat.dev = .ready) = true ∧
    nextIs (exec (.close (rq 5)) ctl0) (fun u => u.host.sessions.isEmpty && u.sec.assocs.isEmpty && u.out.length = 2) = true ∧
    nextIs (exec (.reset (rq 5)) ctlM) (fun u => u.dram = [] && u.jobs.isEmpty && u.plat.cause = 2) = true := by decide +kernel

/-- A frame with a datagram of 16 payload bytes for this device. -/
def wireW : Wire :=
  { fec := false, frameLen := 120, vlan := some 1, extension := false, checksumOk := true, port := 0xB7A0, udpLen := 56, version := 1, cls := 2, flags := 0, dst := 0, length := 16 }
theorem witness_HostPortEvents : ctl0.clocked = true ∧ ctl0.regsWf = true ∧ sess.notices.length ≤ 256 ∧
    nextIs (exec (.sessionTimeout 3) ctl0) (fun u => u.host.sessions.isEmpty) = true ∧ nextIs (exec (.sessionTimeout 2) ctl0) (fun u => u.host.sessions = ctl0.host.sessions) = true ∧
    nextIs (exec (.sessionKill 8) ctl0) (fun u => u.host.sessions.isEmpty) = true ∧
    nextIs (exec (.notifyResend 3) ctl0) (fun u => u.out.any (fun o => match o with
      | .udp _ o => decide (o = .notice 3 ⟨0, 2, 255, 0, 0⟩)
      | _ => false)) = true ∧
    goesTo (exec (.neighborSolicitation ctl0.globalAddr 7) ctl0) { ctl0 with out := [.neighbour 7], host := { ctl0.host with neighbours := addNeighbour 7 [0] } } = true ∧
    goesTo (exec (.neighborSolicitation 1 7) ctl0) ctl0 = true ∧ nextIs (exec (.echoRequest 7 [1]) ctl0) (fun u => u.out = (if ctl0.host.neighbours.contains (ctl0.nextHop 7) then [] else [.solicit (ctl0.nextHop 7)]) ++ [.echo 7 [1]]) = true ∧
    ([(wireW, 0, 0), ({ wireW with fec := true }, 0, 0), ({ wireW with frameLen := 9217 }, 1, 0), ({ wireW with vlan := none }, 1, 0), ({ wireW with vlan := some 2 }, 1, 0),
      ({ wireW with extension := true, checksumOk := false }, 0, 0), ({ wireW with checksumOk := false }, 0, 1), ({ wireW with port := 5 }, 0, 1), ({ wireW with version := 2 }, 0, 1),
      ({ wireW with cls := 9 }, 0, 1), ({ wireW with flags := 1 }, 0, 1), ({ wireW with dst := 9 }, 0, 1), ({ wireW with udpLen := 57 }, 0, 1)]).all (fun p =>
      nextIs (exec (.discardedFrame p.1) ctl0) (fun u => u.fld HST_PORT_STATUS_frame_discards = p.2.1 && u.fld HST_PORT_STATUS_ubtik_discards = p.2.2)) = true := by decide +kernel
/-- An import of three bytes at 64 by the session. -/
def bulk0 : Bulk :=
  { id := 7, inbound := true, session := 3, page := 2, addr := 64, len := 3, udp := 0, doneSegs := [], pieces := [], host := true, unacked := [], body := [], peer := 0xFFFFFFFF, req := none }
def bulkS (b : Bulk) : State := (pageS ctlN).modHost (fun h => { h with bulks := [b] })
def dgH : Ubtik := { page := 2, context := 0, src := 0xFFFFFFFF, keyEpoch := 0, length := 0, msg := 1, tagged := true, tagOk := true, mismatches := 0 }
theorem witness_HostPortEvents_import : (bulkS bulk0).pageJob 2 = some 0 ∧ (bulkS bulk0).inService = true ∧ bulk0.segLen 0 = 3 ∧ bulk0.segs = 1 ∧ placeOf 64 3 = .dram ∧
    (admitHost (bulkS bulk0) dgH 3 pairBulk 2 true true).2 = true ∧ ((bulkS bulk0).job 0).running = false ∧
    nextIs (exec (.bulkData dgH 7 0 0 [1, 2, 3] true) (bulkS bulk0)) (fun u => u.host.bulks.map (·.doneSegs) = [[0]] && rdN u.dram 64 3 = [1, 2, 3]) = true ∧
    nextIs (exec (.bulkData { dgH with tagOk := false } 7 0 0 [1, 2, 3] true) (bulkS bulk0)) (fun u => u.dram = [] && u.host.bulks = [bulk0] && u.fld SEC_STATUS_tag_fail = 1) = true := by
  decide +kernel
theorem witness_HostPortEvents_object : (dxS (fun x => { x with shardElems := 2, anchor := [(1, 5)] })).fencedPair pairBulk = false ∧
    (admitJob (dxS (fun x => { x with shardElems := 2, anchor := [(1, 5)] })) dg pairBulk 2 2).2 = some (0, assocP 2) ∧
    anchorObject ((dxS (fun x => { x with shardElems := 2, anchor := [(1, 5)] })).job 0).dxe 0 0 1 = some [0, 0, 0, 0, 5, 0, 0, 0, 0, 0, 0, 0, 0, 0, 0, 0] ∧
    nextIs (exec (.bulkRequest dg 2 0 0 1) (dxS (fun x => { x with shardElems := 2, anchor := [(1, 5)] }))) (fun u => u.host.bulks.map (fun b => (b.peer, b.inbound, b.body.length)) = [(far1, false, 32)]) = true ∧
    nextIs (exec (.bulkRequest dg 1 0 0 1) dx0) (fun u => u.host.bulks.isEmpty) = true := by decide +kernel
def bulkX : Bulk := { bulk0 with inbound := false, unacked := [0] }
theorem witness_HostPortEvents_resend : (bulkS bulkX).bulkOf 7 = some bulkX ∧ (bulkS bulkX).hostUp = true ∧ (bulkS bulkX).ue = [] ∧ (bulkS bulkX).passes pairBulk false = true ∧
    goesTo (exec (.bulkSegmentResend 7 1) (bulkS bulkX)) (bulkS bulkX) = true ∧
    nextIs (exec (.bulkSegmentResend 7 0) (bulkS bulkX)) (fun u => u.out.any (fun o => match o with
      | .udp _ o => decide (o = .bulk 7 0 0 [0, 0, 0] true)
      | _ => false)) = true ∧
    nextIs (exec (.bulkAbandon 7 0xFFFFFFFF) (bulkS bulkX)) (fun u => u.host.bulks.isEmpty) = true := by decide +kernel


/-! ## Associations, handshakes, keys -/

/-- Page 0 is encrypted; the partner's key epochs are 1; the receive pair has served job 0. -/
def epoch1 : Epochs := { current := 1, previous := none, seq := 0, since := 0, wantNext := false, chain := 0, key := (0, 0), keyBefore := none }
def encS : State := (dx0.setFld SEC_PAGE_CTRL_enc 1 0).modSec (fun x => { x with assocs := [{ assocP 2 with rx := epoch1, tx := epoch1 }], pairs := [(1, { servedH with served := [0] })] })
def dgT (k : BitVec 16) (ok : Bool) : Ubtik := { dg with tagged := true, keyEpoch := k, tagOk := ok }
theorem witness_Admission : dx0.jobTraffic = true ∧ dx0.pageJob 0 = some 0 ∧ dx0.pageJob 1 = none ∧ (dx0.job 0).fedJob = 7 ∧ dx0.assocOf 2 0 far1 = some (assocP 2) ∧
    ({ dx0 with plat := { dx0.plat with dev := .train } } : State).jobTraffic = false ∧ encS.regsWf = true ∧ encS.fencedPair pairRx = false ∧ encS.halted (blkPair + pairRx) = false ∧
    (admitJob dx0 { dg with page := 1 } pairRx 2 2).2 = none ∧ (admitJob dx0 { dg with context := 8 } pairRx 2 2).1 = dx0.count SEC_STATUS_admit_fail := by decide +kernel
theorem witness_Admission_tagged :
    (admitJob encS dg pairRx 2 2).2 = none ∧ (admitJob encS (dgT 1 true) pairRx 2 2).2.isSome = true ∧ (admitJob encS (dgT 1 false) pairRx 2 2).1 = encS.count SEC_STATUS_tag_fail ∧
    (admitJob encS (dgT 3 true) pairRx 2 2).2 = none ∧ (admitJob encS (dgT 1 false) pairRx 2 2 true).2.isSome = true ∧
    ((admitJob encS (dgT 2 true) pairRx 2 2).1.sec.assocs.map (fun a => (a.rx.current, a.rx.previous))) = [(2, some 1)] := by decide +kernel

def initH : InitBody := { kind := 1, flags := 1, page := 255, nonce := 5, eph := 6, src := 0xFFFFFFFF, path := path7 }
/-- A datagram of a handshake with the tag of a nonce. -/
def tagOf (nonce : BitVec 128) : HsTag := { header := [1], tagged := true, keyEpoch := 0, tag := shakeTag nonce [1] }
theorem witness_Handshakes : ctl0.hostUp = true ∧ ctl0.passes pairRx false = true ∧ ctl0.passes pairTx false = true ∧ ctl0.svc.paused = false ∧ ctl0.regsWf = true ∧
    initStatus ctl0 initH = 0 ∧ initStatus ctl0 { initH with flags := 8 } = 1 ∧ initStatus ctl0 { initH with page := 0 } = 2 ∧ ctl0.sec.shakes = [] ∧
    ([{ tagOf 5 with tagged := false }, { tagOf 5 with keyEpoch := 1 }]).all (fun t => goesTo (exec (.init ⟨t, initH⟩) ctl0) (ctl0.count SEC_STATUS_admit_fail)) = true := by decide +kernel
theorem witness_Handshakes_tag (nonce : BitVec 128) : tagGood (tagOf nonce) nonce ∧ ({ tagOf nonce with tag := shakeTag nonce [1] + 1 } : HsTag).tag ≠ shakeTag nonce (tagOf nonce).header :=
  ⟨⟨rfl, rfl, rfl⟩, by simp [tagOf]⟩
def respB : RespBody :=
  { status := 0, session := 3, nonce := 5, eph := 6, serial := 7, pubkey := 8, certSig := 9, sig := 10, src := far1 }
def shake0 (initiator : Bool) (answered : Bool) : Shake :=
  { initiator := initiator, peer := if initiator then far1 else 0xFFFFFFFF, attempts := 1, secret := 3, init := { initH with kind := if initiator then 2 else 1 },
    resp := if answered then some (respB, []) else none }
def shakeS (initiator answered : Bool) : State := ctl0.modSec (fun x => { x with shakes := [shake0 initiator answered] })
def finB : FinBody := { src := 0xFFFFFFFF, nonceI := 5, credential := 2, serial := 4, pubkey := 0, certSig := 0, sig := 0 }
theorem witness_Handshakes_fin : (shakeS false true).sec.shakes.find? (fun h => !h.initiator && decide (h.peer = finB.src) && decide (h.init.nonce = finB.nonceI)) = some (shake0 false true) ∧
    (shake0 false true).resp = some (respB, []) ∧ goesTo (exec (.fin ⟨{ tagOf 5 with tagged := false }, finB⟩) (shakeS false true)) ((shakeS false true).count SEC_STATUS_admit_fail) = true ∧
    nextIs (exec (.handshakeTimeout 0xFFFFFFFF) (shakeS false true)) (fun u => u.sec.shakes = []) = true := by decide +kernel
theorem witness_Handshakes_resp :
    (shakeS true false).sec.shakes.filter (fun h => h.initiator && decide (h.peer = far1) && h.resp.isNone) = [shake0 true false] ∧ respB.src = far1 ∧
    goesTo (exec (.resp ⟨{ tagOf 5 with keyEpoch := 2 }, respB⟩) (shakeS true false)) ((shakeS true false).count SEC_STATUS_admit_fail) = true ∧
    nextIs (exec (.initResend far1 2 255) (shakeS true false)) (fun u => u.sec.shakes.map (·.attempts) = [2] && u.free = (shakeS true false).free + 2) = true ∧
    nextIs (exec (.initResend far1 2 255) (ctl0.modSec (fun x => { x with shakes := [{ shake0 true false with attempts := 20 }] }))) (fun u => u.sec.shakes = [] && u.fld SEC_STATUS_hs_fail = 1) = true := by
  decide +kernel
/-- The RESP's tag is looked at under the nonce of the INIT. -/
theorem witness_Handshakes_found : (shakeOk (shakeS true false) (tagOf 5) 5).2 = true := by
  have h : (tagOf 5).tag = shakeTag 5 (tagOf 5).header := rfl
  unfold shakeOk
  rw [if_neg (by decide), if_neg (not_not_intro h)]
theorem witness_Handshakes_finAck : (shakeS true true).sec.shakes.find? (fun h => h.initiator && decide (h.peer = dg.src) && h.resp.isSome) = some (shake0 true true) ∧
    goesTo (exec (.finAck dg) (shakeS true true)) ((shakeS true true).count SEC_STATUS_admit_fail) = true ∧
    goesTo (exec (.finAck (dgT 2 true)) (shakeS true true)) ((shakeS true true).count SEC_STATUS_admit_fail) = true ∧
    nextIs (exec (.finAck (dgT 1 false)) (shakeS true true)) (fun u => u.fld SEC_STATUS_tag_fail = 1 && u.sec.assocs = (shakeS true true).sec.assocs) = true ∧
    nextIs (exec (.finAck (dgT 1 true)) (shakeS true true)) (fun u => u.sec.shakes.isEmpty && (u.sec.assocs.getLast?.map (fun a => (a.kind, a.peer, a.serial, a.tx.current)) = some (2, far1, 7, 1))) = true := by
  decide +kernel

theorem witness_KeysAndEngines : encS.partsWf = true ∧ encS.regsWf = true ∧ (encS.assocAt 0 0).map (·.tx) = some epoch1 ∧ encS.clocked = true ∧
    (encS.sec.assocs.all (fun b => b.tx.current < 65535 && b.rx.current ≤ 65535)) = true ∧
    nextIs (exec (.keyEpochAge 0 0) encS) (fun u => u.sec.assocs.map (fun a => (a.tx.current, a.tx.previous)) = [(2, some 1)] &&
      nextIs (exec (.keyEpochAge 0 0) u) (fun v => v.sec.assocs.map (fun a => (a.tx.current, a.tx.wantNext)) = [(2, true)] &&
        nextIs (exec (.epochRelease 0 0) v) (fun w => w.sec.assocs.map (fun a => (a.tx.current, a.tx.previous, a.tx.wantNext)) = [(3, some 2, false)]))) = true := by decide +kernel
theorem witness_KeysAndEngines_pairs : encS.fencedPair 1 = false ∧ encS.svc.paused = false ∧ goesTo (exec (.cipherKat 1 true) encS) encS = true ∧
    nextIs (exec (.cipherKat 1 true) { encS with plat := { encS.plat with dev := .train } }) (fun u => u.plat.train.kat.getLsbD 1) = true ∧
    nextIs (exec (.cipherFence 2) encS) (fun u => u.fencedPair 2 && (u.job 0).running) = true := by decide +kernel
theorem witness_KeysAndEngines_fenced : (encS.setFld SEC_CMP_FAULT_fenced 2).fencedPair 1 = true ∧
    ([Instr.cipherKat 1 true, .cipherKat 1 false, .cipherFence 1]).all (fun c => goesTo (exec c (encS.setFld SEC_CMP_FAULT_fenced 2)) (encS.setFld SEC_CMP_FAULT_fenced 2)) = true := by decide +kernel


/-! ## Service and debug -/

/-- A tile of the domain under test; channel 64 too; an op is running or not. -/
def svcS (busy : Bool) : State :=
  { run0 with svc := { Svc.reset with bistBusy := busy, march := [65] }, spares := { run0.spares with testTiles := [259], testChans := [64] } }
theorem witness_SpareTests_remap : (svcS false).regsWf = true ∧ (svcS false).partsWf = true ∧ (svcS false).inService = true ∧ (svcS false).svc.remaps = [] ∧
    (svcS false).tileFree 256 = true ∧ (svcS false).tileFree 255 = false ∧ (svcS false).tileFree 259 = false ∧
    nextIs (exec (.remap 3) (svcS true)) (fun u => u.fld SVC_BIST_RESULT_outcome = 3 && u.fld SVC_BIST_RESULT_unit = 3) = true := by decide +kernel
theorem witness_SpareTests_first : nextIs (exec (.remap 3) (svcS false)) (fun u => u.svc.remaps = [{ tile := 3, spare := 256, copied := none, byOp := true }] && u.svc.bistBusy) = true := by
  decide +kernel
def remapS : State := { svcS true with svc := { (svcS true).svc with remaps := [{ tile := 3, spare := 256, copied := none, byOp := true }] } }
theorem witness_SpareTests_timeout : nextIs (exec (.remapTimeout 3) remapS) (fun u => u.svc.remaps = [] && !u.svc.bistBusy && u.fld SVC_BIST_RESULT_outcome = 2) = true := by decide +kernel
theorem witness_SpareTests_channel : (svcS false).chanPhys 0 3 = 3 ∧ (svcS false).freeChans 0 = [65] ∧ (svcS false).repairing 0 = false ∧
    nextIs (exec (.testChannel 0 3) (svcS false)) (fun u => u.repairState 0 = 1 && (u.dom 0).repair.spare = 65 && (u.dom 0).repair.test && u.svc.bistBusy) = true ∧
    nextIs (exec (.testChannel 0 3) (svcS true)) (fun u => u.fld SVC_BIST_RESULT_outcome = 3 && u.domains = []) = true := by decide +kernel
theorem witness_SpareTests_tiles : 259 ∈ (svcS true).spares.testTiles ∧
    nextIs (exec (.tileBistDone 259 false) (svcS true)) (fun u => u.spares.badTiles = [259] && u.spares.testTiles = [] && !u.svc.bistBusy) = true ∧
    nextIs (exec (.tileBistDone 259 true) (svcS true)) (fun u => u.spares.badTiles = [] && u.tileFree 259) = true ∧
    nextIs (exec (.spareTileTest 256 false) (svcS false)) (fun u => !u.tileFree 256 && u.fld SVC_BIST_RESULT_outcome = 2) = true := by decide +kernel
theorem witness_SpareTests_channels : (svcS false).chanFree 0 65 = true ∧ 64 ∈ (svcS true).spares.testChans ∧ 65 ∉ (svcS true).spares.testChans ∧ 65 ∈ (svcS true).svc.march ∧
    nextIs (exec (.spareChannelTest 0 65) (svcS false)) (fun u => u.svc.march.contains 65 && u.fld SVC_BIST_RESULT_kind = 4) = true ∧
    nextIs (exec (.channelMarchTestDone 0 64 false) (svcS true)) (fun u => u.spares.badChans = [64] && u.spares.testChans = [] && u.fld SVC_BIST_RESULT_kind = 3) = true ∧
    nextIs (exec (.channelMarchTestDone 0 65 true) (svcS true)) (fun u => u.spares.badChans = [] && u.svc.march = [] && u.fld SVC_BIST_RESULT_kind = 4) = true ∧
    goesTo (exec (.bondRecentre 0 3) (svcS true)) (svcS true) = true := by decide +kernel

/-- READY, with an op running, registers of SVC_UPDATE_CTRL and slot B's image. -/
def opS (op mask target v : Nat) : State :=
  let s : State := { run0 with
    jobs := [], plat := { run0.plat with dev := .ready, flash := { run0.plat.flash with slotB := { run0.plat.flash.slotA with valid := true } } },
    svc := { Svc.reset with op := op } }
  ((s.setFld SVC_UPDATE_CTRL_mask mask).setFld SVC_UPDATE_CTRL_target target).setFld SVC_UPDATE_CTRL_version v
def opIs (r : Res) (v : Nat) : Bool := nextIs r (fun u => u.fld SVC_UPDATE_CTRL_status = v)
theorem witness_Images_ops : (opS 0 1 0 0).regsWf = true ∧ (opS 0 1 0 0).partsWf = true ∧ (opS 0 1 0 0).inService = true ∧ handoverOk (opS 0 1 0 0) = true ∧
    handoverOk { run0 with plat := { run0.plat with flash := { run0.plat.flash with slotA := { run0.plat.flash.slotA with valid := false }, slotB := { run0.plat.flash.slotB with valid := false } } } } = false ∧
    opIs (exec .loadFw (opS 0 1 0 0)) 1 ∧ opIs (exec .handover (opS 0 1 0 0)) 1 ∧ opIs (exec .swapUcode (opS 0 1 0 0)) 1 ∧ opIs (exec .swapUcode (opS 0 0 0 0)) 2 ∧
    opIs (exec .loadFw (opS 3 0 0 0)) 4 ∧ opIs (exec .loadFw { opS 0 0 0 0 with plat := { (opS 0 0 0 0).plat with dev := .train } }) 6 := by decide +kernel
theorem witness_Images_fuses : (opS 0 0 0 0).plat.fuses.minFw = 0 ∧ (opS 0 0 0 0).plat.fuses.minUcode = 0 ∧ (opS 0 0 0 0).plat.fuses.owner = none ∧
    opIs (exec .setMinVersion (opS 0 0 0 0)) 2 ∧ opIs (exec .setMinVersion (opS 0 0 0 9)) 6 ∧ opIs (exec .setMinVersion (opS 0 0 1 0)) 2 ∧
    opIs (exec .programOwner ((opS 0 0 0 0).modPlat (fun p => { p with fuses := { p.fuses with owner := some 3 } }))) 6 ∧
    opIs (exec .setMinVersion ({ opS 0 0 0 0 with plat := { (opS 0 0 0 0).plat with dev := .run } })) 6 := by decide +kernel
theorem witness_Images_owner : opIs (exec .programOwner (opS 0 0 0 0)) 2 := by decide +kernel
/-- The image at 4096 of DRAM, and its length. -/
def loadS (op n : Nat) (b : Bytes) : State :=
  let s := ((opS op 2 0 0).setFld SVC_UPDATE_CTRL_addr 4096).setFld SVC_UPDATE_CTRL_len n
  { s with dram := wrN s.dram 4096 b }
/-- What is no image; what has the header of one. -/
theorem witness_Images_loads : (loadS 1 256 []).clocked = true ∧ (loadS 1 256 []).ueIn 4096 256 = [] ∧
    nextIs (exec (.fwLoadDone true) (loadS 1 256 [])) (fun u => u.svc.op = 0 && u.fld SVC_UPDATE_CTRL_status = 3 && !(u.plat.flash.slot (!u.plat.running)).valid) = true ∧
    nextIs (exec (.fwLoadDone true) (loadS 1 256 (headOf 2))) (fun u => u.fld SVC_UPDATE_CTRL_status = 3) = true ∧
    nextIs (exec (.ucodeLoadDone true) (loadS 3 256 [])) (fun u => u.fld SVC_UPDATE_CTRL_status = 3 && u.dom 1 = (loadS 3 256 []).dom 1) = true ∧
    nextIs (exec (.configLoadDone true) (loadS 5 256 [])) (fun u => u.fld SVC_UPDATE_CTRL_status = 3) = true := by
  decide +kernel
/-- An image without a body, with its digest: sound when its signature verifies. -/
def imageB (kind : Nat) (sig : BitVec 912) : Bytes :=
  toBE 4 0x4B494D47 ++ toBE 1 kind ++ toLE 15 0 ++ toLE 8 0 ++ toLE 64 (Config.shake256 [] 512).toNat ++ toLE 36 0 ++ toBE 114 sig.toNat ++ toLE 14 0
theorem witness_Images_sound (h : Config.ed448Verify 2 Config.imageKey ((imageB 1 5).take 128) 5 = true) : imageSound 1 (2 ^ 23) 0 (imageB 1 5) := by
  have hs : imageSig (imageB 1 5) = 5 := by decide +kernel
  refine ⟨by decide +kernel, by decide +kernel, by decide +kernel, by decide +kernel, by decide +kernel, ?_, by rw [hs]; exact h⟩
  rfl

def handS (h : Option Nat) : State := { opS 2 0 0 0 with svc := { Svc.reset with op := 2, handover := some h, paused := h.isSome } }
theorem witness_Handover : (handS none).regsWf = true ∧ (handS none).svc.op = 2 ∧ quietPoint (handS none) = true ∧
    quietPoint ((handS none).modSec (fun x => { x with shakes := [shake0 true false] })) = false ∧
    opIs (exec .handoverBusy (handS none)) 4 ∧ (handS (some 1)).svc.handover = some (some 1) ∧ (handS (some 1)).svc.latched = [] ∧ (handS (some 1)).svc.waiting = [] ∧
    (handS (some 1)).host.sessions = [] := by decide +kernel
theorem witness_Handover_confirm : nextIs (exec .fwConfirm (handS (some 1))) (fun u => !u.svc.paused && u.plat.flash.bootSlot && u.fld SVC_UPDATE_CTRL_status = 2) = true := by decide +kernel

theorem witness_FreezeAndThaw : run0.partsWf = true ∧ run0.regsWf = true ∧ canonical run0.svc.shifts (fun _ => 0) = true ∧ run0.inService = true ∧
    ([Instr.freezeNFall 9, .dbgFreeze 9]).all (fun c => nextIs (exec c run0) (fun u => u.plat.dev = .frozen && u.plat.selfRefresh && u.svc.stopCycles = 9 && !u.clock.ticking && u.jobs = run0.jobs)) = true ∧
    (let s := run0.modPlat (fun p => { p with dev := .train })
     s.inService = false ∧ goesTo (exec (.freezeNFall 9) s) s = true ∧ goesTo (exec (.dbgFreeze 9) s) (s.cfgReject) = true) := by decide +kernel
def frozenS (shifts : Sparse Nat) : State := { run0 with plat := { run0.plat with dev := .frozen, selfRefresh := true }, svc := { Svc.reset with shifts := shifts } }
theorem witness_FreezeAndThaw_thaw : (frozenS []).plat.dev = .frozen ∧ (frozenS [(4, 9)]).svc.shifts ≠ [] ∧ canonical (frozenS [(4, 9)]).svc.shifts (fun _ => 0) = true ∧
    goesTo (exec .thaw (frozenS [(4, 9)])) (frozenS [(4, 9)]) = true ∧
    nextIs (exec .pmEnter (frozenS [(4, 9)])) (fun u => u.plat.dev = .postMortem && u.runningJobs = [] && !u.plat.selfRefresh) = true ∧ (frozenS []).fld DBG_SCAN_CTRL_chain < 1334 := by
  decide +kernel

/-! ## The whole block -/

theorem witness_StepTakesFront : step { run0 with pending := [.linkState 5 (.other 9), .thaw] } = .next { run0 with pending := [.thaw] } ∧ step run0 = .next run0 := ⟨rfl, rfl⟩
theorem witness_ScratchpadReadsBack : run0.wf = true ∧ (run0.writeSpad (spadBase + 0x3FFFF) [1, 2]).readSpad (spadBase + 0x3FFFE) 4 = [0, 1, 2, 0] := by decide +kernel
theorem witness_SelectsSeparate : run0.regsWf = true ∧ (assoc fieldTable (normal 0x4000)).isSome = true ∧ (regWrite run0 0 0x4000 5).2 = true ∧
    (regWrite run0 0 0x4000 5).1.reg 0x4000 = 5 ∧ readWord (regWrite run0 0 0x4000 5).1 1 0x4000 = readWord run0 1 0x4000 := by decide +kernel
theorem witness_SelectsSeparate_each : ([0x4000, 0xB008, 0xC008, 0x9098, 0x9198, 0x9298, 0x9398]).all (fun off => (assoc fieldTable (normal off)).isSome && (regWrite run0 8 off 1).2) = true := by
  decide +kernel
theorem witness_StepKeepsForm : State.reset.wf = true := by decide +kernel
/-- INT8 with BF16. -/
def mixL : LayMM :=
  { arrays := 1, sfmt := 5, xfmt := 6, sbase := 0, xbase := 0, dbase := 0, dcount := 0, rows := 0, rowmask := 0, colmask := 0, acc := 0, xsrc := 0, xaddr := 0, smx := 0, xmx := 0,
    sscale := 0, xscale := 0, rsv := 0 }
theorem witness_MatrixPairs : mayIssue busy0 c0 = true ∧ busy0.partsWf = true ∧ busy0.kl5 0 = false ∧ mixL.smx = 0 ∧ mixL.xmx = 0 ∧ mmUnusedZero .warp mixL = true ∧
    ranTo c0 (.mmw c0 mixL) busy0 (fun s => rejectAt s 0 0 5 3) = true := by decide +kernel


/-! ## Words of tile instructions, bit by bit: opcode, fa to ff of five bits, aux of 26 and imm of 64 (Table PRG-3); the MM and the VCR
layout (Tables PRG-5, PRG-6) -/

theorem test_word_add : tileInstr c0 (0b00000001#8 ++ 0b00011#5 ++ 0b00100#5 ++ 0b00101#5 ++ 0#15 ++ 0#26 ++ 0#64) = some (.add c0 ⟨3, 4, 5, 0, 0, 0, 0, 0⟩) := by decide
theorem test_word_pset : tileInstr c0 (0b00001101#8 ++ 0b00111#5 ++ 0b00001#5 ++ 0#20 ++ 0#26 ++ 0#64) = some (.pset c0 ⟨7, 1, 0, 0, 0, 0, 0, 0⟩) := by decide
theorem test_word_br : tileInstr c0 (0b00010000#8 ++ 0#5 ++ 0b00001#5 ++ 0b00010#5 ++ 0#15 ++ 0b00000000000000000000000001#26 ++ 0xFFFFFFFFFFFFFFFE#64) =
    some (.br c0 ⟨0, 1, 2, 0, 0, 0, 1, 0xFFFFFFFFFFFFFFFE⟩) := by decide
theorem test_word_mmf : tileInstr c0 (0b00100001#8 ++ 0b00001111#8 ++ 0b0110#4 ++ 0b1000#4 ++ 0b100000#6 ++ 0b000001#6 ++ 0b111111#6 ++ 0b000010#6 ++
      0b100000000001#12 ++ 0b1000000000000001#16 ++ 0b0000000000000011#16 ++ 0b1#1 ++ 0b0#1 ++ 0b10001#5 ++ 0b1#1 ++ 0b0#1 ++ 0b000011#6 ++ 0b110000#6 ++ 0#15) =
    some (.mmf c0
      { arrays := 15, sfmt := 6, xfmt := 8, sbase := 32, xbase := 1, dbase := 63, dcount := 2, rows := 0x801, rowmask := 0x8001, colmask := 3, acc := 1,
        xsrc := 0, xaddr := 17, smx := 1, xmx := 0, sscale := 3, xscale := 48, rsv := 0 }) := by decide
theorem test_word_vcr : tileInstr c0 (0b00110000#8 ++ 0b00010#5 ++ 0b000001#6 ++ 0b000010#6 ++ 0b000011#6 ++ 0b000100#6 ++ 0b10000000000001#14 ++ 0b101#3 ++ 0b11111#5 ++
      0b00001#5 ++ 0b00010#5 ++ 0b00011#5 ++ 0b00100#5 ++ 0#49) =
    some (.vcr c0 { slot := 2, abase := 1, bbase := 2, cbase := 3, dbase := 4, n := 0x2001, pred := 5, k0 := 31, k1 := 1, tid := 2, e0 := 3, g := 4, rsv := 0 }) := by decide
theorem test_word_ld : tileInstr c0 (0b01000000#8 ++ 0b10001#5 ++ 0b00110#5 ++ 0#20 ++ 0b10000000000000000000000001#26 ++ 64#64) = some (.ld c0 ⟨17, 6, 0, 0, 0, 0, 0x2000001, 64⟩) := by decide
theorem test_word_din : tileInstr c0 (0b01010000#8 ++ 0b00001#5 ++ 0#25 ++ 0#26 ++ 0#64) = some (.din c0 ⟨1, 0, 0, 0, 0, 0, 0, 0⟩) := by decide
theorem test_word_put : tileInstr c0 (0b01100000#8 ++ 0b00001#5 ++ 0b00010#5 ++ 0b00011#5 ++ 0b00100#5 ++ 0b00101#5 ++ 0b00110#5 ++ 0#26 ++ 0#64) =
    some (.put c0 ⟨1, 2, 3, 4, 5, 6, 0, 0⟩) := by decide
theorem test_word_wait : tileInstr c0 (0b01110000#8 ++ 0b00011#5 ++ 0#25 ++ 0#26 ++ 9#64) = some (.wait c0 ⟨3, 0, 0, 0, 0, 0, 0, 9⟩) := by decide
theorem test_word_claunch : tileInstr c2 (0b10000000#8 ++ 0b00001#5 ++ 0#25 ++ 0#26 ++ 0#64) = some (.claunch c2 ⟨1, 0, 0, 0, 0, 0, 0, 0⟩) := by decide
theorem test_word_scommit : tileInstr c2 (0b10010000#8 ++ 0#30 ++ 0#26 ++ 0#64) = some (.scommit c2 ⟨0, 0, 0, 0, 0, 0, 0, 0⟩) := by decide
theorem test_word_dstat : tileInstr c2 (0b10100001#8 ++ 0b00010#5 ++ 0#25 ++ 0#26 ++ 2#64) = some (.dstat c2 ⟨2, 0, 0, 0, 0, 0, 0, 2⟩) := by decide
theorem test_word_undefined : tileInstr c0 (0b00001111#8 ++ 0#120) = none ∧ tileInstr c0 (0b11111111#8 ++ 0#120) = none := by decide
theorem test_table_words : (decodeTableWord 0 0).isNone = true ∧ State.reset.withFetchWord 16 5 = State.reset := ⟨rfl, rfl⟩

/-! ## Operands that no source sends: each check refuses one -/

def longPkt : Packet := pkt 1 0 0 (List.replicate 4097 0)
def longCol : ColPacket := { readyP with payload := List.replicate 4097 0 }
theorem test_ill_packets : Packet.wellFormed (pkt 1 0 0 (List.replicate 4096 0)) = true ∧ ColPacket.wellFormed { readyP with payload := List.replicate 4096 0 } = true ∧
    ([Instr.dataFrame 0 (head 0 0 (.data longPkt)) longPkt, .putPacket longPkt, .getReq longPkt, .getData longPkt, .completion longPkt, .logEntry longPkt, .chunk longCol,
      .ready longCol { op := 0, fmt := 0, dims := 0, bucketNo := 0, len := 0 }]).any Instr.wellFormed = false := by decide +kernel
def sample : TempSample := { logic := List.replicate 64 0, stack0 := List.replicate 48 0, stack1 := List.replicate 48 0, stack2 := List.replicate 48 0, stack3 := List.replicate 48 0 }
theorem test_ill_samples : Instr.wellFormed (.tempSample sample) = true ∧ Instr.wellFormed (.tempSample { sample with logic := List.replicate 63 0 }) = false ∧
    Instr.wellFormed (.tempSample { sample with stack3 := List.replicate 49 0 }) = false := by decide +kernel
theorem test_ill_tables : Instr.wellFormed (.table dg tab) = true ∧ Instr.wellFormed (.table dg { tab with gapLens := [] }) = false ∧
    Instr.wellFormed (.tableRetire dg tab) = false ∧
    Instr.wellFormed (.tableRetire dg { tab with retire := true, gapLens := [], valLens := [] }) = true ∧ Instr.wellFormed (.table dg { tab with retire := true }) = false := by decide +kernel
/-- A fragment of `n` bytes. -/
def fragOf (n : Nat) : Frag := ⟨0, 2, false, List.replicate n 0⟩
theorem test_ill_manifests : Instr.wellFormed (.manifest dg ⟨fragOf 9094, man0⟩) = true ∧ Instr.wellFormed (.manifest dg ⟨fragOf 9095, man0⟩) = false ∧
    Instr.wellFormed (.manifest dg ⟨fragOf 1, { man0 with members := List.replicate 1025 (0, 0) }⟩) = false ∧
    Instr.wellFormed (.manifest dg ⟨fragOf 1, { man0 with absents := List.replicate 1025 (receiptB 0 0) }⟩) = false := by decide +kernel
theorem test_ill_contributions (l : List Contribution) (h : l.length = 65537) : Instr.wellFormed (.manifest dg ⟨fragOf 1, { man0 with contribs := l }⟩) = false := by
  simp [Instr.wellFormed, ManifestBody.wellFormed, h]
theorem test_ill_fragments : ([Instr.countersign dg ⟨fragOf 9095, csign 1⟩, .receipt dg ⟨fragOf 9095, receiptB 0 0⟩, .join dg ⟨fragOf 9095, joinB⟩]).any Instr.wellFormed = false ∧
    ([Instr.countersign dg ⟨fragOf 9094, csign 1⟩, .receipt dg ⟨fragOf 9094, receiptB 0 0⟩, .join dg ⟨fragOf 9094, joinB⟩]).all Instr.wellFormed = true := by decide +kernel
theorem test_ill_write (l : Bytes) (h : l.length = 2 ^ 32) : Instr.wellFormed (.write (rq 5) 0 l) = false := by
  simp [Instr.wellFormed, h]
theorem test_ill_bulk : Instr.wellFormed (.bulkData dg 0 0 0 [] true) = false ∧ Instr.wellFormed (.bulkData dg 0 0 0 (List.replicate 8192 0) true) = true ∧
    Instr.wellFormed (.bulkData dg 0 0 0 (List.replicate 8193 0) true) = false := by decide +kernel
theorem test_ill_lists : Instr.wellFormed (.tileSelfTestDone [5, 5]) = false ∧ Instr.wellFormed (.stackTrained 0 [5, 5]) = false ∧
    Instr.wellFormed (.laserFault [(0, 1), (0, 1)] false) = false ∧ Instr.wellFormed (.laserFault [(0, 1), (1, 1)] false) = true := by decide +kernel

end Sys2Proof.Tests
end

section
/-! PROOFS. The pairs marked "—" in Table ARR-2 (R27). Such a pair is rejected once the instruction's address register is
there; before that, while a scalar load in flight is still to write that register, the instruction is held and not rejected. -/
namespace Sys2Proof.Machine

/-! ## The issue of a matrix instruction -/

theorem exec_matrix {row : (At → LayMM → Instr) × MmKind} (hrow : row ∈ mmRowsOf) (i : At) (l : LayMM) (s : State) :
    exec (row.1 i l) s = issue (row.1 i l) i s (issueMm row.2 i l) := by
  simp only [mmRowsOf, List.mem_cons, List.not_mem_nil, or_false] at hrow
  obtain rfl | rfl | rfl := hrow <;> rfl

theorem issueMm_hold_of_addressBusy {i : At} {l : LayMM} {s : State} (hbusy : s.sregBusy i [l.xaddr] = true) (k : MmKind) :
    issueMm k i l s = .hold := if_pos hbusy

/-- The hold comes before every check of the instruction, that of its format pair included. -/
theorem exec_matrix_of_addressBusy {row : (At → LayMM → Instr) × MmKind} (hrow : row ∈ mmRowsOf) {i : At} {l : LayMM} {s : State}
    (hissues : Issues (row.1 i l) s i) (hbusy : s.sregBusy i [l.xaddr] = true) :
    exec (row.1 i l) s = .next (s.modTile i.tile (fun x => { x with passed := addTo i.ctx x.passed })) :=
  (exec_matrix hrow i l s).trans (issue_hold hissues (issueMm_hold_of_addressBusy hbusy row.2))

/-! ## Table ARR-2 -/

theorem pairOk_eq_false_of_ne : ∀ sf xf : BitVec 4, sf ≠ xf → (sf = 5 ∨ sf = 9 ∨ xf = 5 ∨ xf = 9) → pairOk sf.toNat xf.toNat = false := by
  decide

theorem mmReject_isSome_of_not_pairOk {l : LayMM} (hpair : pairOk l.sfmt.toNat l.xfmt.toNat = false) (k : MmKind) (kl5 : Bool) (xaddr : Nat) :
    (mmReject k l kl5 xaddr).isSome = true := by
  simp only [mmReject, hpair, Bool.not_false, if_true]
  split_ifs <;> rfl

/-- R27 as the model keeps it: a pair marked "—" is rejected once the address register is there. This is the premise that
`Obligations.MatrixPairs` leaves out. -/
theorem exec_matrix_rejects_dashPair {row : (At → LayMM → Instr) × MmKind} (hrow : row ∈ mmRowsOf) {i : At} {l : LayMM} {s : State}
    (hissues : Issues (row.1 i l) s i) (hfree : s.sregBusy i [l.xaddr] = false) (hne : l.sfmt ≠ l.xfmt)
    (hdash : l.sfmt = 5 ∨ l.sfmt = 9 ∨ l.xfmt = 5 ∨ l.xfmt = 9) :
    ∃ code, exec (row.1 i l) s = .next (rejectAt s i.tile i.ctx (s.ctxOf i).index code) := by
  obtain ⟨code, hcode⟩ := Option.isSome_iff_exists.1 (mmReject_isSome_of_not_pairOk
    (pairOk_eq_false_of_ne _ _ hne hdash) row.2 (s.kl5 i.tile) (s.sreg i l.xaddr).toNat)
  have hreject : issueMm row.2 i l s = .reject code := by simp [issueMm, hfree, hcode]
  exact ⟨code, (exec_matrix hrow i l s).trans (issue_reject hissues hreject)⟩

/-! ## A rejection ends its tile's issuing (R128) -/

@[simp] theorem Tile.modCtx_rejected (x : Tile) (c : Nat) (f : Ctx → Ctx) : (x.modCtx c f).rejected = x.rejected := by
  simp only [Tile.modCtx, Tile.setCtx]; split_ifs <;> rfl

@[simp] theorem Tile.applyEvadds_rejected (x : Tile) : x.applyEvadds.rejected = x.rejected := by
  unfold Tile.applyEvadds
  refine foldl_keeps (P := fun y : Tile => y.rejected = x.rejected) ?_ _ rfl
  exact fun _ _ hy => hy

@[simp] theorem Tile.resume_rejected (x : Tile) (c : Nat) : (x.resume c).rejected = x.rejected := by
  unfold Tile.resume; split
  · split <;> simp
  · split <;> simp
  · rfl

theorem keys_tiles_of_partsWf {s : State} (hparts : s.partsWf = true) : keysAbove 0 s.tiles = true := by
  obtain ⟨htiles, -⟩ := (State.partsWf_iff s).1 hparts
  exact canonical_keys htiles

theorem keys_jobs_of_partsWf {s : State} (hparts : s.partsWf = true) : keysAbove 0 s.jobs = true := by
  obtain ⟨-, -, hjobs, -⟩ := (State.partsWf_iff s).1 hparts
  exact canonical_keys hjobs

theorem settle_tile_rejected {s : State} (hparts : s.partsWf = true) (t : Nat) :
    ((s.settle t).tile t).rejected = (s.tile t).rejected := by
  simp [State.settle, setTile_tile_same _ _ _ (keys_tiles_of_partsWf hparts)]

theorem modAtt_job_phase {s : State} (hparts : s.partsWf = true) (j : Nat) (f : Attempt → Attempt) :
    ((s.modAtt j f).job j).phase = (s.job j).phase := by
  rw [State.modAtt, modJob_job_same _ _ _ (keys_jobs_of_partsWf hparts)]

theorem noteReason_tile (s : State) (j reason prog origin t : Nat) : (noteReason s j reason prog origin).tile t = s.tile t := by
  simp only [noteReason]; split_ifs <;> rfl

theorem raiseAbort_tile_of_aborting {s : State} {j : Nat} (hphase : (s.job j).phase = .aborting) (reason prog t : Nat) :
    (raiseAbort s j reason prog).tile t = s.tile t := by
  simp only [raiseAbort, beginAbort, hphase, noteReason_tile]

/-- In an attempt that is abandoned already a rejection that does not recur does nothing to the tile but end its issuing. -/
theorem rejectAt_rejected_of_aborting {s : State} {t j : Nat} (hparts : s.partsWf = true) (hjob : s.jobOfTile t = some j)
    (hphase : (s.job j).phase = .aborting) (c index code : Nat) (hnew : (t, index, code) ∉ (s.job j).att.lastReject) :
    ((rejectAt s t c index code).tile t).rejected = true := by
  unfold rejectAt
  extract_lets named ended
  have hnamed : named.partsWf = true := hparts
  have hended : ended.partsWf = true := State.partsWf_setTile (State.partsWf_modTile hnamed t _) t _
  have hjobEnded : ended.job j = s.job j := rfl
  have hownerEnded : ended.jobOfTile t = some j := hjob
  have hrejected : (ended.tile t).rejected = true := by
    rw [show ended = State.settle _ t from rfl, settle_tile_rejected (State.partsWf_modTile hnamed t _),
      modTile_tile_same _ _ _ (keys_tiles_of_partsWf hnamed)]
  have hfirst : (ended.job j).att.lastReject.contains (t, index, code) = false := by simp [hjobEnded, hnew]
  simp only [hownerEnded, hfirst, Bool.false_eq_true, if_false]
  rw [raiseAbort_tile_of_aborting ((modAtt_job_phase hended j _).trans hphase), modAtt_at_tile, hrejected]

/-! ## The counterexample -/

/-- MMW of BF16 rows, streamed from the scratchpad address in s4, with an INT8 block: its pair is marked "—" in Table ARR-2, and no
other rule of Table PRG-7 is broken. -/
def dashPairFields : LayMM :=
  { arrays := 1, sfmt := 5, xfmt := 6, sbase := 0, xbase := 0, dbase := 8, dcount := 0, rows := 0, rowmask := 0, colmask := 0, acc := 0,
    xsrc := 1, xaddr := 4, smx := 0, xmx := 0, sscale := 0, xscale := 0, rsv := 0 }

def dashPairAt : At := ⟨0, 0⟩

/-- An LDS of eight bytes into s4, not granted yet. -/
def addressLoad : LsOp :=
  { op := 0, ctx := 0, kind := .lds 0 8 false 4, granted := 0, buf := [], holds := (0, 0), tensors := [], lossNf := false, gradNf := false }

/-- A tile that runs a frame: the LDS is in flight, and the MMW stands at index 5. -/
def addressLoadTile : Tile :=
  { Tile.reset with
    busy := true, frame := 1, ctx0 := { Ctx.reset with run := .running, index := 5 }, opNext := 1, ls := [addressLoad],
    imem := wrN [] (16 * 5) (toLE 16 ((tileWord (.mmw dashPairAt dashPairFields)).getD 0).toNat) }

/-- A job of stack domain 0 whose attempt is abandoned while its frames still run (R142). -/
def abandonedJob : Job :=
  { Job.reset with
    mask := 1, tag := 5, origin := ⟨0, 0, 0, 0⟩, extent := ⟨1, 1, 1, 1⟩, running := true, phase := .aborting,
    att := { Attempt.reset with started := true } }

def addressLoadState : State :=
  { State.reset with plat := { Plat.reset with dev := .run }, tiles := [(0, addressLoadTile)], jobs := [(0, abandonedJob)] }

theorem addressLoadState_wf : addressLoadState.wf = true := by decide +kernel

theorem addressLoadState_partsWf : addressLoadState.partsWf = true := by
  have hwf := addressLoadState_wf
  simp only [State.wf, Bool.and_eq_true] at hwf
  tauto

theorem addressLoadState_issues : Issues (.mmw dashPairAt dashPairFields) addressLoadState dashPairAt := ⟨by decide +kernel, by decide +kernel⟩

theorem addressLoadState_addressBusy : addressLoadState.sregBusy dashPairAt [dashPairFields.xaddr] = true := by decide +kernel

/-- The same state with the LDS complete. -/
def addressReadyState : State := { addressLoadState with tiles := [(0, { addressLoadTile with ls := [] })] }

/-- Without the load in flight the same MMW is rejected. -/
theorem exec_addressReadyState :
    ∃ code, exec (.mmw dashPairAt dashPairFields) addressReadyState = .next (rejectAt addressReadyState 0 0 5 code) :=
  exec_matrix_rejects_dashPair (row := (.mmw, .warp)) (by simp [mmRowsOf]) ⟨by decide +kernel, by decide +kernel⟩ (by decide +kernel)
    (by decide) (by decide)

/-- The MMW is held: its tile goes on issuing. -/
theorem exec_addressLoadState :
    ∃ u, exec (.mmw dashPairAt dashPairFields) addressLoadState = .next u ∧ (u.tile 0).rejected = false :=
  ⟨_, exec_matrix_of_addressBusy (row := (.mmw, .warp)) (by simp [mmRowsOf]) addressLoadState_issues addressLoadState_addressBusy, rfl⟩

/-- Refutes O59: nothing in it says that the address register is there. The MMW of INT8 by BF16 at an address that an LDS in flight
has still to write is held, which leaves its tile issuing; a rejection would have ended that. -/
theorem not_matrixPairs : ¬ Obligations.MatrixPairs := by
  unfold Obligations.MatrixPairs
  intro hpairs
  obtain ⟨_, code, hexec, rfl, -⟩ := hpairs (.mmw, .warp) (by simp [mmRowsOf]) dashPairAt dashPairFields addressLoadState
    addressLoadState_issues addressLoadState_partsWf (by decide) (by decide) (by decide) (by decide)
  obtain ⟨u, hheld, hissuing⟩ := exec_addressLoadState
  have hrejected := rejectAt_rejected_of_aborting (t := 0) (j := 0) addressLoadState_partsWf rfl rfl 0 5 code List.not_mem_nil
  obtain rfl := Host.Outcome.next.inj (hexec.symm.trans hheld)
  exact Bool.false_ne_true (hissuing.symm.trans hrejected)

end Sys2Proof.Machine
end

section
/-! PROOFS. The place of the STEP and DXE instructions (R117): each of the four goes through `issueStep`, whose check of the place comes
after that of the form and before those of the operands. -/
namespace Sys2Proof.Machine

theorem issueStep_rejects_elsewhere {op : Instr} {i : At} {s : State} {formOk : Bool} (hissues : Issues op s i) (hform : formOk = true)
    (helsewhere : s.isLead i.tile = false ∨ i.ctx ≠ 2) (regs : List (BitVec 5)) (act : State → Nat → Issue) :
    issueStep op i s formOk regs act = .next (rejectAt s i.tile i.ctx (s.ctxOf i).index rejContext) := by
  have hplace : (s.isLead i.tile && decide (i.ctx = 2)) = false := by
    obtain hlead | hctx := helsewhere
    · rw [hlead, Bool.false_and]
    · rw [decide_eq_false hctx, Bool.and_false]
  exact issue_reject hissues (by simp [hform, hplace])

/-- A number of 64 bits in which bit 0 alone may be set. -/
theorem lt_two_of_and_high_eq_zero {n : Nat} (hbound : n < 2 ^ 64) (hand : n &&& (2 ^ 64 - 1 - 1) = 0) : n < 2 := by
  have hhalf : n >>> 1 &&& (2 ^ 63 - 1) = 0 := by
    simpa [Nat.shiftRight_and_distrib] using congrArg (· >>> 1) hand
  rw [Nat.and_two_pow_sub_one_eq_mod, Nat.shiftRight_eq_div_pow] at hhalf
  omega

/-- The use in `stepRows` admits the selectors 0 and 1 of DSTAT, both of which are forms that `execDstat` takes. -/
theorem dstatForm_of_unusedZero {f : LayR} (hunused : unusedZero f { a := true, imm := 1 } = true) :
    (unusedZero f { a := true, imm := immAll } && decide (f.imm.toNat < 3)) = true := by
  simp only [unusedZero, Bool.and_eq_true, decide_eq_true_eq] at hunused ⊢
  obtain ⟨hfields, himm⟩ := hunused
  have hselector : f.imm.toNat < 2 := lt_two_of_and_high_eq_zero f.imm.isLt himm
  exact ⟨⟨hfields, Nat.and_zero _⟩, hselector.trans (by decide)⟩

theorem exec_scommit (i : At) (f : LayR) (s : State) : exec (.scommit i f) s = execScommit i f s := rfl

theorem exec_sabort (i : At) (f : LayR) (s : State) : exec (.sabort i f) s = execSabort i f s := rfl

theorem exec_dclose (i : At) (f : LayR) (s : State) : exec (.dclose i f) s = execDclose i f s := rfl

theorem exec_dstat (i : At) (f : LayR) (s : State) : exec (.dstat i f) s = execDstat i f s := rfl

/-- R117 for DSTAT of every selector that is not reserved; `stepRows` leaves selector 2 out. -/
theorem exec_dstat_rejects_elsewhere {i : At} {f : LayR} {s : State} (hissues : Issues (.dstat i f) s i)
    (hform : (unusedZero f { a := true, imm := immAll } && decide (f.imm.toNat < 3)) = true)
    (helsewhere : s.isLead i.tile = false ∨ i.ctx ≠ 2) :
    exec (.dstat i f) s = .next (rejectAt s i.tile i.ctx (s.ctxOf i).index rejContext) :=
  (exec_dstat i f s).trans (issueStep_rejects_elsewhere hissues hform helsewhere _ _)

/-- DSTAT of selector 2, into s2. -/
def anchorQuery : LayR := { fa := 2, fb := 0, fc := 0, fd := 0, fe := 0, ff := 0, aux := 0, imm := 2 }

/-- The DSTAT stands at index 5 of context 0. -/
def anchorQueryState : State :=
  { addressReadyState with
    tiles := [(0, { addressLoadTile with ls := [], imem := wrN [] (16 * 5) (toLE 16 (wordR 0xA1 anchorQuery).toNat) })] }

/-- A form that the use in `stepRows` shuts out is rejected all the same. -/
theorem exec_anchorQuery :
    exec (.dstat ⟨0, 0⟩ anchorQuery) anchorQueryState = .next (rejectAt anchorQueryState 0 0 5 rejContext) :=
  exec_dstat_rejects_elsewhere ⟨by decide +kernel, by decide +kernel⟩ (by decide) (.inr (by decide))

/-- Settles O58: by the instruction, the check of the place in `issueStep`. -/
theorem stepClassContext : Obligations.StepClassContext := by
  unfold Obligations.StepClassContext
  intro row hrow i f s hissues hunused helsewhere
  simp only [stepRows, List.mem_cons, List.not_mem_nil, or_false] at hrow
  obtain rfl | rfl | rfl | rfl := hrow
  · exact (exec_scommit i f s).trans (issueStep_rejects_elsewhere hissues hunused helsewhere _ _)
  · exact (exec_sabort i f s).trans (issueStep_rejects_elsewhere hissues hunused helsewhere _ _)
  · exact (exec_dclose i f s).trans (issueStep_rejects_elsewhere hissues hunused helsewhere _ _)
  · exact exec_dstat_rejects_elsewhere hissues (dstatForm_of_unusedZero hunused) helsewhere

end Sys2Proof.Machine
end

section
/-! PROOFS. The interleave of R171 (`place`) has an inverse on the places that a job's channels hold, so it is one to one and
uses every byte of every logical channel. -/
namespace Sys2Proof.Machine

/-! ## The rotation over the stack domains and the fold over the channels -/

/-- The distance that turns a stack domain's position back from granule `k` of a channel to the position in its run. -/
def turnBack (k m : Nat) : Nat := m - k % m

theorem add_turnBack_mod (k : Nat) {m : Nat} (hm : 0 < m) : (k + turnBack k m) % m = 0 := by
  have hmultiple : k + turnBack k m = m * (k / m + 1) := by
    have hdiv := Nat.div_add_mod k m
    have hrem := Nat.mod_lt k hm
    rw [turnBack, Nat.mul_succ]
    omega
  rw [hmultiple, Nat.mul_mod_right]

theorem turn_turnBack {d k m : Nat} (hd : d < m) : ((d + k) % m + turnBack k m) % m = d := by
  rw [Nat.mod_add_mod, Nat.add_assoc, Nat.add_mod, add_turnBack_mod k (by omega), Nat.add_zero, Nat.mod_mod,
    Nat.mod_eq_of_lt hd]

theorem turnBack_turn {slot k m : Nat} (hslot : slot < m) : ((slot + turnBack k m) % m + k) % m = slot := by
  rw [Nat.mod_add_mod, Nat.add_right_comm, ← Nat.mod_add_mod, turn_turnBack hslot]

/-- The fold of R171: what the granule's number in its channel does to the channel's number. -/
def channelFold (k : Nat) : Nat := (k ^^^ (k >>> 6) ^^^ (k >>> 12) ^^^ (k >>> 18)) % 64

theorem xor_channelFold_lt {c : Nat} (hc : c < 64) (k : Nat) : c ^^^ channelFold k < 64 :=
  Nat.xor_lt_two_pow (n := 6) hc (Nat.mod_lt _ (by decide))

/-! ## The interleave and its inverse -/

/-- R171 by the turn `o / 2048 / 64 / m` of an offset, which is its granule's number in the channel. -/
theorem place_eq (o m : Nat) : place o m =
    ((o / 2048 / 64 % m + o / 2048 / 64 / m) % m, o / 2048 % 64 ^^^ channelFold (o / 2048 / 64 / m),
      o / 2048 / 64 / m * 2048 + o % 2048) := rfl

/-- The job offset of byte `b` of the granule that stands at position `c` of run `d` among the m runs of turn `k`. -/
def offsetOf (k d c b m : Nat) : Nat := ((k * m + d) * 64 + c) * 2048 + b

/-- A job offset falls apart into its turn, run, granule and byte. -/
theorem offsetOf_parts (o m : Nat) : offsetOf (o / 2048 / 64 / m) (o / 2048 / 64 % m) (o / 2048 % 64) (o % 2048) m = o := by
  simp only [offsetOf, Nat.div_add_mod']

theorem place_offsetOf {k d c b m : Nat} (hd : d < m) (hc : c < 64) (hb : b < 2048) :
    place (offsetOf k d c b m) m = ((d + k) % m, c ^^^ channelFold k, k * 2048 + b) := by
  have hgranule : offsetOf k d c b m / 2048 = (k * m + d) * 64 + c := by unfold offsetOf; omega
  have hbyte : offsetOf k d c b m % 2048 = b := by unfold offsetOf; omega
  have hrun : ((k * m + d) * 64 + c) / 64 = k * m + d := by omega
  have hposition : ((k * m + d) * 64 + c) % 64 = c := by omega
  have hturn : (k * m + d) / m = k := Nat.div_eq_of_lt_le (by omega) (by rw [Nat.succ_mul]; omega)
  have hdomain : (k * m + d) % m = d := by rw [Nat.mul_add_mod', Nat.mod_eq_of_lt hd]
  rw [place_eq, hgranule, hbyte, hrun, hposition, hturn, hdomain]

theorem offsetOf_lt {k d c b m : Nat} (hk : k < 589824) (hd : d < m) (hc : c < 64) (hb : b < 2048) :
    offsetOf k d c b m < m * quarter := by
  have hruns : (k + 1) * m ≤ 589824 * m := Nat.mul_le_mul_right m hk
  rw [Nat.succ_mul] at hruns
  unfold offsetOf quarter
  omega

theorem turn_lt {o m : Nat} (ho : o < m * quarter) : o / 2048 / 64 / m < 589824 := by
  refine Nat.div_lt_of_lt_mul ?_
  unfold quarter at ho
  omega

/-- The job offset that the interleave puts at a place. -/
def unplace (slot chan off m : Nat) : Nat :=
  offsetOf (off / 2048) ((slot + turnBack (off / 2048) m) % m) (chan ^^^ channelFold (off / 2048)) (off % 2048) m

section
variable {slot chan off m : Nat} (hslot : slot < m) (hchan : chan < 64)
include hslot hchan

theorem unplace_lt (hoff : off < 2048 * 589824) : unplace slot chan off m < m * quarter :=
  offsetOf_lt (Nat.div_lt_of_lt_mul hoff) (Nat.mod_lt _ (by omega)) (xor_channelFold_lt hchan _) (Nat.mod_lt _ (by decide))

theorem place_unplace : place (unplace slot chan off m) m = (slot, chan, off) := by
  rw [unplace, place_offsetOf (Nat.mod_lt _ (by omega)) (xor_channelFold_lt hchan _) (Nat.mod_lt _ (by decide)),
    turnBack_turn hslot, Nat.xor_xor_cancel_right, Nat.div_add_mod']

end

theorem place_bounds {o m : Nat} (hm : 0 < m) (ho : o < m * quarter) :
    (place o m).1 < m ∧ (place o m).2.1 < 64 ∧ (place o m).2.2 < 2048 * 589824 := by
  rw [place_eq]
  refine ⟨Nat.mod_lt _ hm, xor_channelFold_lt (Nat.mod_lt _ (by decide)) _, ?_⟩
  have hturn := turn_lt ho
  dsimp only
  omega

theorem unplace_place {m : Nat} (hm : 0 < m) (o : Nat) :
    unplace (place o m).1 (place o m).2.1 (place o m).2.2 m = o := by
  have hturn : (o / 2048 / 64 / m * 2048 + o % 2048) / 2048 = o / 2048 / 64 / m := by omega
  have hbyte : (o / 2048 / 64 / m * 2048 + o % 2048) % 2048 = o % 2048 := by omega
  rw [place_eq, unplace, hturn, hbyte, turn_turnBack (Nat.mod_lt _ hm), Nat.xor_xor_cancel_right, offsetOf_parts]

theorem eq_of_place_eq {o o' m : Nat} (hm : 0 < m) (hplace : place o m = place o' m) : o = o' := by
  calc o = unplace (place o m).1 (place o m).2.1 (place o m).2.2 m := (unplace_place hm o).symm
    _ = unplace (place o' m).1 (place o' m).2.1 (place o' m).2.2 m := by rw [hplace]
    _ = o' := unplace_place hm o'

/-- Settles O60: `unplace` is the inverse of the interleave on both sides, and each of the two keeps within its bounds. -/
theorem placeOneToOne : Obligations.PlaceOneToOne := by
  unfold Obligations.PlaceOneToOne
  intro m hm _
  refine ⟨fun o ho => place_bounds hm ho, fun o o' _ _ hplace => eq_of_place_eq hm hplace, fun slot chan off hslot hchan hoff => ?_⟩
  exact ⟨unplace slot chan off m, unplace_lt hslot hchan hoff, place_unplace hslot hchan⟩

end Sys2Proof.Machine
end

section
/-! PROOFS. The selects of a session (R405). A write of a select word lands in the word of that session and nowhere else; and
of all select words a read or a write looks only at those of its own session. -/
namespace Sys2Proof.Machine

/-! ## Fields landing in a word -/

theorem testBit_bits (v lo hi i : Nat) : (bits v lo hi).testBit i = (decide (i < hi + 1 - lo) && v.testBit (lo + i)) := by
  rw [bits, Nat.testBit_mod_two_pow, Nat.testBit_shiftRight]

theorem bits_mod_two_pow {n hi : Nat} (hhi : hi < n) (v lo : Nat) : bits (v % 2 ^ n) lo hi = bits v lo hi := by
  refine Nat.eq_of_testBit_eq fun i => ?_
  rw [testBit_bits, testBit_bits, Nat.testBit_mod_two_pow]
  by_cases hin : i < hi + 1 - lo
  · rw [decide_eq_true (show lo + i < n by omega), Bool.true_and]
  · rw [decide_eq_false hin, Bool.false_and, Bool.false_and]

/-- A word by what stands below a field, in it, and from its top upward. -/
theorem withBits_eq {lo hi : Nat} (hlo : lo ≤ hi) (v x : Nat) :
    withBits v lo hi x = v % 2 ^ lo + 2 ^ lo * (x % 2 ^ (hi + 1 - lo)) + 2 ^ (hi + 1) * (v / 2 ^ (hi + 1)) := by
  have hparts : v = v % 2 ^ lo + (2 ^ lo * (v / 2 ^ lo % 2 ^ (hi + 1 - lo)) + 2 ^ (hi + 1) * (v / 2 ^ (hi + 1))) := by
    rw [show hi + 1 = lo + (hi + 1 - lo) by omega, Nat.pow_add, ← Nat.div_div_eq_div_mul, Nat.mul_assoc, ← Nat.mul_add,
      Nat.add_sub_cancel_left, Nat.mod_add_div, Nat.mod_add_div]
  rw [withBits, bits, Nat.shiftRight_eq_div_pow, Nat.mul_comm _ (2 ^ lo), Nat.mul_comm _ (2 ^ lo)]
  omega

theorem withBits_div_above {lo hi : Nat} (hlo : lo ≤ hi) (v x : Nat) : withBits v lo hi x / 2 ^ (hi + 1) = v / 2 ^ (hi + 1) := by
  have hbelow := Nat.mod_lt v (Nat.two_pow_pos lo)
  have hfield : x % 2 ^ (hi + 1 - lo) + 1 ≤ 2 ^ (hi + 1 - lo) := Nat.mod_lt _ (Nat.two_pow_pos _)
  have hsum := Nat.mul_le_mul_left (2 ^ lo) hfield
  rw [← Nat.pow_add, show lo + (hi + 1 - lo) = hi + 1 by omega, Nat.mul_add, Nat.mul_one] at hsum
  rw [withBits_eq hlo, Nat.add_mul_div_left _ _ (Nat.two_pow_pos _), Nat.div_eq_of_lt (by omega), Nat.zero_add]

/-- A field above the one written reads as before. -/
theorem bits_withBits_above {lo hi lo' : Nat} (hlo : lo ≤ hi) (habove : hi < lo') (v x hi' : Nat) :
    bits (withBits v lo hi x) lo' hi' = bits v lo' hi' := by
  obtain ⟨d, rfl⟩ := Nat.exists_eq_add_of_lt habove
  rw [bits, bits, Nat.shiftRight_eq_div_pow, Nat.shiftRight_eq_div_pow, show hi + d + 1 = hi + 1 + d by omega, Nat.pow_add,
    ← Nat.div_div_eq_div_mul, ← Nat.div_div_eq_div_mul, withBits_div_above hlo]

/-- The fields of a value landing in a word, one after the other. -/
def landFields (v : Nat) (fs : List Fld) (old : Nat) : Nat := fs.foldl (fun w f => withBits w f.lo f.hi (f.of v)) old

/-- The fields of a word, from the highest down. -/
def Descending (fs : List Fld) : Prop := fs.Pairwise (fun f g => g.lo ≤ g.hi ∧ g.hi < f.lo)

theorem bits_landFields_of_below {f : Fld} {fs : List Fld} (hbelow : ∀ g ∈ fs, g.lo ≤ g.hi ∧ g.hi < f.lo) (v old : Nat) :
    bits (landFields v fs old) f.lo f.hi = bits old f.lo f.hi := by
  induction fs generalizing old with
  | nil => rfl
  | cons g gs ih =>
    obtain ⟨⟨hlo, hhi⟩, hrest⟩ := List.forall_mem_cons.mp hbelow
    exact (ih hrest _).trans (bits_withBits_above hlo hhi _ _ _)

theorem bits_landFields {f : Fld} {fs : List Fld} (hdesc : Descending fs) (hf : f ∈ fs) (v old : Nat) :
    bits (landFields v fs old) f.lo f.hi = bits v f.lo f.hi := by
  induction fs generalizing old with
  | nil => cases hf
  | cons g gs ih =>
    obtain ⟨hbelow, hrest⟩ := List.pairwise_cons.mp hdesc
    obtain rfl | hf := List.mem_cons.mp hf
    · calc bits (landFields v (f :: gs) old) f.lo f.hi
          = bits (withBits old f.lo f.hi (f.of v)) f.lo f.hi := bits_landFields_of_below hbelow v _
        _ = f.of v := by rw [bits_withBits_same, Fld.of, Nat.mod_eq_of_lt (bits_lt v f.lo f.hi)]
    · exact ih hrest hf _

/-! ## A write of a word of RW fields -/

theorem landNow_of_rw {fs : List Fld} (hrw : ∀ f ∈ fs, f.acc = .rw) (s : State) (slot off v old : Nat) :
    landNow s slot off v fs old = landFields v fs old :=
  List.foldl_ext _ _ old fun _ f hf => by simp only [hrw f hf]

theorem stageFields_of_rw {fs : List Fld} (hrw : ∀ f ∈ fs, f.acc = .rw) (s : State) (key v : Nat) :
    stageFields s key v fs = (s, true) := by
  have hnone : fs.filter (fun f => decide (f.acc = .rws)) = [] :=
    List.filter_eq_nil_iff.mpr fun f hf => by simp [hrw f hf]
  rw [stageFields, hnone]

theorem refusedField_of_rw {f : Fld} (hrw : f.acc = .rw) (s : State) (slot off v old : Nat) :
    refusedField s slot off v old f = false := by
  simp [refusedField, hrw]

theorem writePlain_of_rw {off : Nat} {fs : List Fld} (hrw : ∀ f ∈ fs, f.acc = .rw) (hpage : normal off ≠ 0xB010) (s : State) (slot v : Nat) :
    writePlain s slot off v fs = (s.setReg (s.keyFor slot off) (landFields v fs (s.reg (s.keyFor slot off))), true) := by
  have hnone : fs.any (refusedField s slot off v (s.reg (s.keyFor slot off))) = false :=
    List.any_eq_false.mpr fun f hf => by simp [refusedField_of_rw (hrw f hf)]
  simp only [writePlain, hnone, if_neg hpage, landNow_of_rw hrw, stageFields_of_rw hrw, ite_self, Bool.false_eq_true, if_false]

theorem reg_setReg_same {s : State} (hregs : s.regsWf = true) (k w : Nat) : (s.setReg k w).reg k = w % 2 ^ 64 := by
  rw [State.reg, State.setReg, look_store_same _ _ _ _ (State.keys_regs hregs), BitVec.toNat_ofNat]

/-! ## The select words, and what a write of one does -/

/-- TILE_SEL, SEC_PAGE_SEL, FLT_LOG_PTR, and DXE_PATH_STATUS of each job (R405). -/
def selectWords : List Nat := [0x4000, 0xB008, 0xC008, 0x9098, 0x9198, 0x9298, 0x9398]

theorem mem_selectWords (n : Nat) : n ∈ selectWords ↔
    n = 0x4000 ∨ n = 0xB008 ∨ n = 0xC008 ∨ n = 0x9098 ∨ n = 0x9198 ∨ n = 0x9298 ∨ n = 0x9398 := by
  simp [selectWords]

theorem lt_of_mem_selectWords {off : Nat} (hoff : off ∈ selectWords) : off < 0x10000 := by
  rw [mem_selectWords] at hoff
  omega

theorem keyFor_select {off : Nat} (hoff : off ∈ selectWords) (s : State) (slot : Nat) : s.keyFor slot off = off + 0x10000 * slot := by
  rw [mem_selectWords] at hoff
  obtain rfl | rfl | rfl | rfl | rfl | rfl | rfl := hoff <;> rfl

theorem normal_select_ne_pageCtrl {off : Nat} (hoff : off ∈ selectWords) : normal off ≠ 0xB010 := by
  rw [mem_selectWords] at hoff
  obtain rfl | rfl | rfl | rfl | rfl | rfl | rfl := hoff <;> decide

/-- No action is tied to a select word. -/
theorem writeActing_select {off : Nat} (hoff : off ∈ selectWords) (s : State) (slot v : Nat) (fs : List Fld) :
    writeActing s slot off v fs = writePlain s slot off v fs := by
  rw [mem_selectWords] at hoff
  obtain rfl | rfl | rfl | rfl | rfl | rfl | rfl := hoff <;> rfl

/-- The fields that a select word takes: RW, within the word, and listed from the highest down. -/
def SelectFields (fs : List Fld) : Prop := (∀ f ∈ fs, f.acc = .rw ∧ f.hi < 64) ∧ Descending fs

theorem selectFields_of_select {off : Nat} {fs : List Fld} (hoff : off ∈ selectWords) (hfs : assoc fieldTable (normal off) = some fs) :
    SelectFields fs := by
  rw [mem_selectWords] at hoff
  obtain rfl | rfl | rfl | rfl | rfl | rfl | rfl := hoff <;> obtain rfl := Option.some.inj hfs <;>
    exact ⟨by decide, by unfold Descending; decide⟩

/-- A select that is taken lands in its session's word, and changes nothing else. -/
theorem regWrite_select {s : State} {slot off v : Nat} {fs : List Fld} (hoff : off ∈ selectWords)
    (hfs : assoc fieldTable (normal off) = some fs) (htaken : (regWrite s slot off v).2 = true) :
    (regWrite s slot off v).1 = s.setReg (off + 0x10000 * slot) (landFields v fs (s.reg (off + 0x10000 * slot))) := by
  obtain ⟨hfields, -⟩ := selectFields_of_select hoff hfs
  have hstate : off ≠ 0x0018 := by rw [mem_selectWords] at hoff; omega
  have hacting : writeActing s slot off v fs =
      (s.setReg (off + 0x10000 * slot) (landFields v fs (s.reg (off + 0x10000 * slot))), true) := by
    rw [writeActing_select hoff, writePlain_of_rw (fun f hf => (hfields f hf).1) (normal_select_ne_pageCtrl hoff), keyFor_select hoff]
  simp only [regWrite, if_neg hstate, hfs] at htaken ⊢
  split at htaken
  · cases htaken
  · next hvalid => rw [if_neg hvalid, hacting]

/-- The key of a word is its offset, with a unit or a session added. -/
theorem keyFor_mod_of_lt {x : Nat} (hx : x < 0x10000) (s : State) (slot : Nat) : s.keyFor slot x % 0x10000 = x := by
  rw [State.keyFor]
  split_ifs <;> omega

/-- The block DXE has the registers of four jobs (Table REG-2). -/
theorem dxeJob_lt {x : Nat} (hfirst : 0x9000 ≤ normal x) (hlast : normal x < 0x9100) : x % 0x1000 / 0x100 < 4 := by
  rw [normal] at hfirst hlast
  split_ifs at hfirst hlast <;> omega

/-! ## What a write of a select word leaves -/

/-- The key of a select word of some session. -/
def SelectKey (k : Nat) : Prop := k % 0x10000 ∈ selectWords

theorem selectKey_iff (k : Nat) : SelectKey k ↔ k % 0x10000 = 0x4000 ∨ k % 0x10000 = 0xB008 ∨ k % 0x10000 = 0xC008 ∨
    k % 0x10000 = 0x9098 ∨ k % 0x10000 = 0x9198 ∨ k % 0x10000 = 0x9298 ∨ k % 0x10000 = 0x9398 := mem_selectWords _

theorem selectKey_of_slot {off : Nat} (hoff : off ∈ selectWords) (slot : Nat) : SelectKey (off + 0x10000 * slot) := by
  rw [SelectKey, Nat.add_mul_mod_self_left, Nat.mod_eq_of_lt (lt_of_mem_selectWords hoff)]
  exact hoff

section
variable {k : Nat} (hk : SelectKey k) (s : State) (w : Nat)
include hk

theorem reg_setSelect {k' : Nat} (hk' : ¬ SelectKey k') : (s.setReg k w).reg k' = s.reg k' :=
  setReg_reg_ne s fun heq => hk' (heq ▸ hk)

theorem fld_setSelect {f : Fld} {i : Nat} (hkey : f.key i % 0x10000 ∉ selectWords) : (s.setReg k w).fld f i = s.fld f i := by
  rw [State.fld, State.fld, reg_setSelect hk s w hkey]

/-- A field of the jobs, the ports or the stacks. -/
theorem fld_setSelect_below (n : Nat) {f : Fld} (hkeys : ∀ i < n, f.key i % 0x10000 ∉ selectWords) {i : Nat} (hi : i < n) :
    (s.setReg k w).fld f i = s.fld f i := fld_setSelect hk s w (hkeys i hi)

/-- A field of a unit that a select names. -/
theorem fld_setSelect_unit {f : Fld} (hstride : f.stride = 0x10000) (hword : f.word % 0x10000 ∉ selectWords) (i : Nat) :
    (s.setReg k w).fld f i = s.fld f i :=
  fld_setSelect hk s w (by rwa [Fld.key, hstride, Nat.add_mul_mod_self_left])

/-! ### The words that the device computes -/

theorem pageJob_setSelect : (s.setReg k w).pageJob = s.pageJob := by
  funext p
  rw [State.pageJob, State.pageJob, fld_setSelect_unit hk s w rfl (by decide), fld_setSelect_unit hk s w rfl (by decide)]

theorem pageEnc_setSelect : (s.setReg k w).pageEnc = s.pageEnc := by
  funext p
  rw [State.pageEnc, State.pageEnc, fld_setSelect_unit hk s w rfl (by decide)]

theorem genMode_setSelect : (s.setReg k w).genMode = s.genMode := by
  have hmode : (s.setReg k w).fld PWR_MODE_mode = s.fld PWR_MODE_mode := fld_setSelect hk s w (by decide)
  have hround : ∀ j < 4, (s.setReg k w).fld NUM_CTRL_rounding j = s.fld NUM_CTRL_rounding j :=
    fun _ => fld_setSelect_below hk s w 4 (by decide)
  have hdet : ∀ j < 4, (s.setReg k w).fld NUM_CTRL_determinism j = s.fld NUM_CTRL_determinism j :=
    fun _ => fld_setSelect_below hk s w 4 (by decide)
  have hcodec : ∀ j < 4, (s.setReg k w).fld MEM_CODEC_CFG_mode j = s.fld MEM_CODEC_CFG_mode j :=
    fun _ => fld_setSelect_below hk s w 4 (by decide)
  simp [State.genMode, pageJob_setSelect hk, pageEnc_setSelect hk, hmode, hround, hdet, hcodec]

theorem throttled_setSelect {q : Nat} (hq : q < 4) : (s.setReg k w).throttled q = s.throttled q := by
  rw [State.throttled, State.throttled, fld_setSelect_below hk s w 4 (by decide) hq, fld_setSelect hk s w (by decide),
    fld_setSelect hk s w (by decide)]

theorem step_setSelect {j : Nat} (hj : j < 4) : (s.setReg k w).step j = s.step j :=
  fld_setSelect_below hk s w 4 (by decide) hj

theorem ucodeDue_setSelect (q : Nat) : ucodeDue (s.setReg k w) q = ucodeDue s q := by
  have howner : (s.setReg k w).owner q = s.owner q := rfl
  rw [ucodeDue, ucodeDue, setReg_at_dom, howner]
  split
  · next v j hswap hown =>
    have hj : j < 4 := List.mem_range.mp (List.mem_of_find?_eq_some hown)
    rw [step_setSelect hk s w hj, setReg_at_job]
  · rfl
  · rfl
  · rfl

/-- The tiles of a device are those of its four stack domains. -/
theorem frameHeld_setSelect {t : Nat} (ht : t < 1024) : (s.setReg k w).frameHeld t = s.frameHeld t := by
  have hcount : (s.setReg k w).fld TICK_COUNT_count = s.fld TICK_COUNT_count := fld_setSelect hk s w (by decide)
  rw [State.frameHeld, State.frameHeld, throttled_setSelect hk s w (by omega), hcount, ucodeDue_setSelect hk]
  rfl

theorem chanFree_setSelect {q : Nat} (hq : q < 4) : (s.setReg k w).chanFree q = s.chanFree q := by
  have hphys (c : Nat) (hc : c ∈ List.range 64) : (s.setReg k w).chanPhys q c = s.chanPhys q c := by
    rw [List.mem_range] at hc
    rw [State.chanPhys, State.chanPhys, reg_setSelect hk s w (by rw [selectKey_iff, chanKey]; omega)]
  have hlogical (p : Nat) : (s.setReg k w).chanLogical q p = s.chanLogical q p :=
    List.find?_congr fun c hc => by rw [hphys c hc]
  have hrepairing : (s.setReg k w).repairing q = s.repairing q := by
    have hstate : (s.setReg k w).repairState q = s.repairState q := by
      rw [State.repairState, State.repairState, reg_setSelect hk s w (by decide : 0x3018 % 0x10000 ∉ selectWords)]
    rw [State.repairing, State.repairing, hstate]
  funext p
  rw [State.chanFree, State.chanFree, hlogical, hrepairing]
  rfl

theorem freeChans_setSelect {q : Nat} (hq : q < 4) : (s.setReg k w).freeChans q = s.freeChans q := by
  rw [State.freeChans, State.freeChans, chanFree_setSelect hk s w hq]

theorem roundNow_setSelect {j : Nat} (hj : j < 4) : (s.setReg k w).roundNow j = s.roundNow j := by
  rw [State.roundNow, State.roundNow, step_setSelect hk s w hj, fld_setSelect_below hk s w 4 (by decide) hj,
    fld_setSelect_below hk s w 4 (by decide) hj]

theorem locked_setSelect : (s.setReg k w).locked = s.locked := by
  rw [State.locked, State.locked, fld_setSelect hk s w (by decide), fld_setSelect hk s w (by decide)]

theorem dxeStatus_setSelect {j : Nat} (hj : j < 4) (word : Nat) : dxeStatus (s.setReg k w) j word = dxeStatus s j word := by
  have hidle : (s.setReg k w).reg (0x9040 + 0x100 * j) = s.reg (0x9040 + 0x100 * j) :=
    reg_setSelect hk s w (by rw [selectKey_iff]; omega)
  have hlimit : (s.setReg k w).fld DXE_STALE_CFG_stall_limit j = s.fld DXE_STALE_CFG_stall_limit j :=
    fld_setSelect_below hk s w 4 (by decide) hj
  have hwaits : (s.setReg k w).fld DXE_STATUS_close_waits j = s.fld DXE_STATUS_close_waits j :=
    fld_setSelect_below hk s w 4 (by decide) hj
  simp only [dxeStatus, setReg_at_job, hidle, roundNow_setSelect hk s w hj, hlimit, locked_setSelect hk, hwaits]

theorem tileFree_setSelect : (s.setReg k w).tileFree = s.tileFree := by
  have hphys : (s.setReg k w).phys = s.phys := funext (fld_setSelect_unit hk s w rfl (by decide))
  funext p
  rw [State.tileFree, State.tileFree, State.tileOf, State.tileOf, hphys]
  rfl

theorem spareStatus_setSelect : spareStatus (s.setReg k w) = spareStatus s := by
  refine List.foldl_ext _ _ 0 fun v q hq => ?_
  have hq : q < 4 := List.mem_range.mp hq
  simp only [State.freeTiles, State.withdrawn, tileFree_setSelect hk, freeChans_setSelect hk s w hq,
    fld_setSelect_below hk s w 4 (f := MEM_STACK_STATUS_withdrawn) (by decide) hq, setReg_spares]

theorem laneStatus_setSelect : laneStatus (s.setReg k w) = laneStatus s := by
  refine List.foldl_ext _ _ 0 fun v p hp => ?_
  have hp : p < 10 := List.mem_range.mp hp
  have hused : (s.setReg k w).fld FAB_PORT_STATUS_spare_used p = s.fld FAB_PORT_STATUS_spare_used p :=
    fld_setSelect_below hk s w 10 (by decide) hp
  have hbad (rx : Bool) :
      (s.setReg k w).laneBad p ((s.setReg k w).fld (spareFld rx) p) rx = s.laneBad p (s.fld (spareFld rx) p) rx := by
    rw [fld_setSelect_below hk s w 10 (by cases rx <;> decide) hp]
    rfl
  simp only [hbad, hused, setReg_spares]

theorem freezeStatus_setSelect : freezeStatus (s.setReg k w) = freezeStatus s := by
  rw [freezeStatus, freezeStatus, fld_setSelect hk s w (by decide)]
  rfl

end

/-! ## What another session has selected -/

/-- The key of a select word of another session than `other`. -/
structure ForeignSelect (k other : Nat) : Prop where
  select : SelectKey k
  foreign : ∀ off ∈ selectWords, off + 0x10000 * other ≠ k

theorem foreignSelect_of_slot {off slot other : Nat} (hoff : off ∈ selectWords) (hslot : slot ≠ other) :
    ForeignSelect (off + 0x10000 * slot) other :=
  ⟨selectKey_of_slot hoff slot, fun off' hoff' heq => by
    have := lt_of_mem_selectWords hoff
    have := lt_of_mem_selectWords hoff'
    omega⟩

section
variable {k other : Nat} (hk : ForeignSelect k other) (s : State) (w : Nat)
include hk

/-- A field of a select word of the other session. -/
theorem fld_setForeign {f : Fld} (hstride : f.stride = 0x10000) (hword : f.word ∈ selectWords) :
    (s.setReg k w).fld f other = s.fld f other := by
  rw [State.fld, State.fld, Fld.key, hstride, setReg_reg_ne s (hk.foreign _ hword)]

theorem selTile_setForeign : (s.setReg k w).selTile other = s.selTile other := fld_setForeign hk s w rfl (by decide)

theorem selCtx_setForeign : (s.setReg k w).selCtx other = s.selCtx other := fld_setForeign hk s w rfl (by decide)

theorem selPage_setForeign : (s.setReg k w).selPage other = s.selPage other := fld_setForeign hk s w rfl (by decide)

theorem selAssoc_setForeign : (s.setReg k w).selAssoc other = s.selAssoc other := fld_setForeign hk s w rfl (by decide)

theorem selLog_setForeign : (s.setReg k w).selLog other = s.selLog other := fld_setForeign hk s w rfl (by decide)

theorem keyFor_setForeign (x : Nat) : (s.setReg k w).keyFor other x = s.keyFor other x := by
  rw [State.keyFor, State.keyFor, selTile_setForeign hk, selCtx_setForeign hk, selPage_setForeign hk]

theorem keyEpoch_setForeign : keyEpoch (s.setReg k w) other = keyEpoch s other := by
  rw [keyEpoch, keyEpoch, selPage_setForeign hk, selAssoc_setForeign hk]
  rfl

theorem windowWord_setForeign (i : Nat) : windowWord (s.setReg k w) other i = windowWord s other i := by
  rw [windowWord, windowWord, selLog_setForeign hk, setReg_lantern]

theorem pathStatus_setForeign {j : Nat} (hj : j < 4) : pathStatus (s.setReg k w) j other = pathStatus s j other := by
  have hword : 0x9098 + 0x100 * j ∈ selectWords := by rw [mem_selectWords]; omega
  rw [pathStatus, pathStatus, setReg_reg_ne s (hk.foreign _ hword), setReg_at_job]

/-- The word that the state holds for the other session at an offset. -/
theorem reg_keyFor_setForeign {x : Nat} (hx : x < 0xF000) : (s.setReg k w).reg (s.keyFor other x) = s.reg (s.keyFor other x) := by
  refine setReg_reg_ne s fun heq => ?_
  by_cases hselect : x ∈ selectWords
  · exact hk.foreign x hselect (keyFor_select hselect s other ▸ heq)
  · have hword : s.keyFor other x % 0x10000 = x := keyFor_mod_of_lt (by omega) s other
    have hkey : SelectKey (s.keyFor other x) := heq ▸ hk.select
    rw [SelectKey, hword] at hkey
    exact hselect hkey

/-! ### What the other session reads -/

theorem readLow_setForeign {x : Nat} (hx : x < 0x7000) : readLow (s.setReg k w) other x = readLow s other x := by
  have hraw := reg_keyFor_setForeign hk s w (x := x) (by omega)
  have hheld : (s.setReg k w).frameHeld (s.selTile other) = s.frameHeld (s.selTile other) :=
    frameHeld_setSelect hk.select s w (bits_lt _ 0 9)
  simp only [readLow, keyFor_setForeign hk, hraw, selTile_setForeign hk, hheld, genMode_setSelect hk.select]
  split_ifs with _ _ _ _ _ hstack
  · rfl
  · rfl
  · rfl
  · rfl
  · rfl
  · rw [freeChans_setSelect hk.select s w (by omega)]
  · rfl
  · rfl
  · rfl

theorem readMid_setForeign {x : Nat} (hx : x < 0xB000) : readMid (s.setReg k w) other x = readMid s other x := by
  have hraw := reg_keyFor_setForeign hk s w (x := x) (by omega)
  have hjob (hdxe : 0x9000 ≤ normal x ∧ normal x < 0x9100) : x % 0x1000 / 0x100 < 4 := dxeJob_lt hdxe.1 hdxe.2
  simp only [readMid, keyFor_setForeign hk, hraw]
  split_ifs with _ _ hround hsealed hstages hpath
  · rfl
  · rfl
  · exact dxeStatus_setSelect hk.select s w (hjob (by omega)) 0
  · exact dxeStatus_setSelect hk.select s w (hjob (by omega)) 1
  · exact dxeStatus_setSelect hk.select s w (hjob (by omega)) 2
  · exact pathStatus_setForeign hk s w (hjob (by omega))
  · rfl
  · rfl

theorem readHigh_setForeign {x : Nat} (hx : x < 0xF000) : readHigh (s.setReg k w) other x = readHigh s other x := by
  have hraw := reg_keyFor_setForeign hk s w hx
  simp only [readHigh, keyFor_setForeign hk, hraw, keyEpoch_setForeign hk, selLog_setForeign hk, windowWord_setForeign hk,
    spareStatus_setSelect hk.select, laneStatus_setSelect hk.select, freezeStatus_setSelect hk.select]
  rfl

theorem readWord_setForeign (x : Nat) : readWord (s.setReg k w) other x = readWord s other x := by
  rw [readWord, readWord]
  split_ifs with hlow hmid hhigh
  · exact readLow_setForeign hk s w hlow
  · exact readMid_setForeign hk s w hmid
  · exact readHigh_setForeign hk s w hhigh
  · rfl

end

/-- Settles O57: a select that is taken writes the word of its session, which no read and no write of another looks at. -/
theorem selectsSeparate : Obligations.SelectsSeparate := by
  unfold Obligations.SelectsSeparate
  intro s slot other off v fs hregs hslot hoff hfs htaken
  obtain ⟨hfields, hdesc⟩ := selectFields_of_select hoff hfs
  have hforeign : ForeignSelect (off + 0x10000 * slot) other := foreignSelect_of_slot hoff (Fin.val_ne_of_ne hslot)
  rw [regWrite_select hoff hfs htaken]
  refine ⟨fun f hf _ => ?_, fun x => ⟨readWord_setForeign hforeign s _ x, keyFor_setForeign hforeign s _ x⟩⟩
  rw [reg_setReg_same hregs, bits_mod_two_pow (hfields f hf).2, bits_landFields hdesc hf]

end Sys2Proof.Machine
end
